-- ==== Sys2Proof/Word.lean ====
section
/-! DEFINITION. The word types of the device (R6, R25): bytes, 32-bit words, 64-bit values. -/

namespace Sys2Proof

/-- One byte of memory (R6). -/
abbrev Byte := BitVec 8

/-- One 32-bit instruction word or one lane of one vector register (R25, R131). -/
abbrev Word := BitVec 32

/-- A 64-bit value: an address, a register pair, a literal (R30, R63). -/
abbrev Dword := BitVec 64

end Sys2Proof
end

