-- ==== Sys2Proof/Syntax.lean ====
section
/-! DEFINITION. The instructions: one constructor for each row of the opcode table. The wave instructions
carry the raw fields of their form (R27, R28); the events of the engines, the host and the control loops
carry the identifiers of the thing that moves. -/

namespace Sys2Proof

/-- The guard fields of an X96 instruction (R28, R33): enable, invert and register of guards 0 and 1, and GOP. -/
structure Guard where
  ge0 : Bool
  gn0 : Bool
  ge1 : Bool
  gn1 : Bool
  gop : Bool
  g0 : BitVec 7
  g1 : BitVec 7
deriving DecidableEq, Repr

/-- No guard: every guard field zero (R29, R33). -/
def Guard.none : Guard := ⟨false, false, false, false, false, 0, 0⟩

/-- The fields of an X96 instruction (R28), or of an X160 one when `lit` holds its literal (R25, R30). -/
structure XF where
  lit : Option Dword
  p : Bool
  u : Bool
  h : BitVec 4
  d : BitVec 7
  a : BitVec 7
  b : BitVec 7
  c : BitVec 7
  e : BitVec 7
  m : BitVec 3
  t : BitVec 3
  g : Guard
  imm : BitVec 18
deriving DecidableEq, Repr

/-- The fields of a B32 instruction (R27), or of a B96 one when `lit` holds its literal (R25, R30). -/
structure BF where
  lit : Option Dword
  p : Bool
  u : Bool
  d : BitVec 7
  a : BitVec 7
  b : BitVec 7
deriving DecidableEq, Repr

/-- The conditions of the RISC-V branches (R328, the RISC-V standard: PRESUMED, log entry 6). -/
inductive RvCond | eq | ne | lt | ge | ltu | geu
deriving DecidableEq, Repr

/-- The sizes of the RISC-V loads and stores; `bu`, `hu`, `wu` are the zero-extending loads. -/
inductive RvSize | b | h | w | d | bu | hu | wu
deriving DecidableEq, Repr

/-- The register-register and register-immediate operations of RV64I, M, Zba and Zbb (R328). -/
inductive RvAlu
  | add | sub | sll | slt | sltu | xor | srl | sra | or | and
  | addw | subw | sllw | srlw | sraw
  | mul | mulh | mulhsu | mulhu | div | divu | rem | remu
  | mulw | divw | divuw | remw | remuw
  | adduw | sh1add | sh2add | sh3add | sh1adduw | sh2adduw | sh3adduw | slliuw
  | andn | orn | xnor | max | maxu | min | minu | rol | ror | rolw | rorw
deriving DecidableEq, Repr

/-- The one-operand operations of Zbb (R328). -/
inductive RvUn | clz | ctz | cpop | clzw | ctzw | cpopw | sextb | sexth | zexth | orcb | rev8
deriving DecidableEq, Repr

/-- The atomic memory operations of RV64A (R328). -/
inductive RvAmo | swap | add | xor | and | or | min | max | minu | maxu
deriving DecidableEq, Repr

/-- The operations of Zicsr (R328). -/
inductive RvCsr | rw | rs | rc
deriving DecidableEq, Repr

/-- One base RISC-V instruction of a handler: RV64IMAC, Zicsr, Zba and Zbb (R328). A compressed instruction
decodes to the instruction it abbreviates, with a length of 2 bytes. -/
inductive Rv
  | lui (rd : BitVec 5) (imm : BitVec 20)
  | auipc (rd : BitVec 5) (imm : BitVec 20)
  | jal (rd : BitVec 5) (off : BitVec 21)
  | jalr (rd rs1 : BitVec 5) (imm : BitVec 12)
  | branch (c : RvCond) (rs1 rs2 : BitVec 5) (off : BitVec 13)
  | load (z : RvSize) (rd rs1 : BitVec 5) (imm : BitVec 12)
  | store (z : RvSize) (rs2 rs1 : BitVec 5) (imm : BitVec 12)
  | opImm (o : RvAlu) (rd rs1 : BitVec 5) (imm : BitVec 12)
  | op (o : RvAlu) (rd rs1 rs2 : BitVec 5)
  | un (o : RvUn) (rd rs1 : BitVec 5)
  | fence
  | ecall
  | ebreak
  | lr (dbl : Bool) (rd rs1 : BitVec 5)
  | sc (dbl : Bool) (rd rs1 rs2 : BitVec 5)
  | amo (o : RvAmo) (dbl : Bool) (rd rs1 rs2 : BitVec 5)
  | csrReg (o : RvCsr) (rd rs1 : BitVec 5) (csr : BitVec 12)
  | csrImm (o : RvCsr) (rd zimm : BitVec 5) (csr : BitVec 12)
deriving DecidableEq, Repr

/-- The argument of the mailbox command ALCOVE (R331, R332, R371): a class control register, or one of the
sixteen registration entries of a class. -/
inductive AlcoveCmd
  | control (cls : Nat) (v : BitVec 32)
  | register (cls idx : Nat) (v : BitVec 256)
deriving DecidableEq, Repr

/-- What a write without a behaviour of its own can set (R226, R227, R229, R332, R354, R359, R363, R364):
the debug units of a launch, a host queue's size, a port's link registers, a partition's page tables, a
partition's handler image, and bytes of the host's own memory. -/
inductive RegTarget
  | bpAddr (launch i : Nat) (v : Dword)
  | bpCtl (launch i : Nat) (v : Word)
  | wpAddr (launch i : Nat) (v : Dword)
  | wpCtl (launch i : Nat) (v : Word)
  | catchCode (launch code : Nat) (on : Bool)
  | qsize (q : Nat) (v : Dword)
  | linkReg (port : Nat) (v : Dword)
  | pageMap (part vbase size pbase : Nat) (r w x : Bool)
  | pageUnmap (part vbase : Nat)
  | alcoveImage (part off : Nat) (bytes : List Byte)
  | hostMem (addr : Nat) (bytes : List Byte)
deriving DecidableEq, Repr

/-- The instructions and events of the opcode table: first the wave instructions and the instructions of
handlers, in the table's order, then the events. -/
inductive Instr
  /-- IADD: X96 integer add of vA and operand B, modulo 2^w, in each enabled lane (R147). -/
  | iadd (f : XF)
  /-- IADD_B32: B32 register form of IADD (OP7 0x01) (R56). -/
  | iaddB32 (f : BF)
  /-- IADD_B32_IMM: B32 immediate form of IADD with a signed imm7 (OP7 0x02) (R56). -/
  | iaddB32Imm (f : BF)
  /-- IADD_IMM: X96 immediate twin of IADD (OP10 0x041) with B taken from IMM18 (R54). -/
  | iaddImm (f : XF)
  /-- ISUB: X96 integer subtract, modulo 2^w (R147). -/
  | isub (f : XF)
  /-- ISUB_B32: B32 register form of ISUB (OP7 0x03) (R56). -/
  | isubB32 (f : BF)
  /-- ISUB_B32_IMM: B32 immediate form of ISUB (OP7 0x04) (R56). -/
  | isubB32Imm (f : BF)
  /-- ISUB_IMM: X96 immediate twin of ISUB (OP10 0x042) (R54). -/
  | isubImm (f : XF)
  /-- IADDC: X96 add with carry in vC bit 0, writing the sum to vD and the carry to vE (R148). -/
  | iaddc (f : XF)
  /-- IADDC_B32: B32 form of IADDC (OP7 0x25), with carry taken from and written to v0 (R148). -/
  | iaddcB32 (f : BF)
  /-- ISUBB: X96 subtract with borrow, writing the difference to vD and the borrow to vE (R148). -/
  | isubb (f : XF)
  /-- ISUBB_B32: B32 form of ISUBB (OP7 0x26) (R148). -/
  | isubbB32 (f : BF)
  /-- INEG: X96 two's complement negation (R147). -/
  | ineg (f : XF)
  /-- INEG_B32: B32 form of INEG (OP7 0x1B) (R56). -/
  | inegB32 (f : BF)
  /-- IABS: X96 absolute value of a signed integer (R147). -/
  | iabs (f : XF)
  /-- IABS_B32: B32 form of IABS (OP7 0x1C) (R56). -/
  | iabsB32 (f : BF)
  /-- IMUL: X96 integer multiply, low w bits of the product (R147). -/
  | imul (f : XF)
  /-- IMUL_B32: B32 register form of IMUL (OP7 0x05) (R56). -/
  | imulB32 (f : BF)
  /-- IMUL_B32_IMM: B32 immediate form of IMUL (OP7 0x06) (R56). -/
  | imulB32Imm (f : BF)
  /-- IMUL_IMM: X96 immediate twin of IMUL (OP10 0x047) (R54). -/
  | imulImm (f : XF)
  /-- IMULH: X96 high w bits of the integer product (R147). -/
  | imulh (f : XF)
  /-- IMULH_B32: B32 form of IMULH (OP7 0x24) (R56). -/
  | imulhB32 (f : BF)
  /-- IMAD: Integer multiply-add a·b + c, modulo 2^w (R147). -/
  | imad (f : XF)
  /-- ICSADD: Adds, subtracts or passes b according to the sign of the trit in vC (R149). -/
  | icsadd (f : XF)
  /-- IDIV: Truncating division writing quotient to vD and remainder to vE, never trapping on data (R150). -/
  | idiv (f : XF)
  /-- IMIN: X96 integer minimum (R147). -/
  | imin (f : XF)
  /-- IMIN_B32: B32 register form of IMIN (OP7 0x07) (R56). -/
  | iminB32 (f : BF)
  /-- IMIN_B32_IMM: B32 immediate form of IMIN (OP7 0x08) (R56). -/
  | iminB32Imm (f : BF)
  /-- IMIN_IMM: X96 immediate twin of IMIN (OP10 0x04C) (R54). -/
  | iminImm (f : XF)
  /-- IMAX: X96 integer maximum (R147). -/
  | imax (f : XF)
  /-- IMAX_B32: B32 register form of IMAX (OP7 0x09) (R56). -/
  | imaxB32 (f : BF)
  /-- IMAX_B32_IMM: B32 immediate form of IMAX (OP7 0x0A) (R56). -/
  | imaxB32Imm (f : BF)
  /-- IMAX_IMM: X96 immediate twin of IMAX (OP10 0x04D) (R54). -/
  | imaxImm (f : XF)
  /-- ICLAMP: Clamps vA between lower bound b and upper bound c (R147). -/
  | iclamp (f : XF)
  /-- ISAT: Saturates a 32-bit signed or unsigned value to a narrower target type (R151). -/
  | isat (f : XF)
  /-- AND: X96 bitwise AND (R152). -/
  | and (f : XF)
  /-- AND_B32: B32 register form of AND (OP7 0x0B) (R56). -/
  | andB32 (f : BF)
  /-- AND_B32_IMM: B32 immediate form of AND (OP7 0x0C) (R56). -/
  | andB32Imm (f : BF)
  /-- AND_IMM: X96 immediate twin of AND (OP10 0x050) (R54). -/
  | andImm (f : XF)
  /-- OR: X96 bitwise OR (R152). -/
  | or (f : XF)
  /-- OR_B32: B32 register form of OR (OP7 0x0D) (R56). -/
  | orB32 (f : BF)
  /-- OR_B32_IMM: B32 immediate form of OR (OP7 0x0E) (R56). -/
  | orB32Imm (f : BF)
  /-- OR_IMM: X96 immediate twin of OR (OP10 0x051) (R54). -/
  | orImm (f : XF)
  /-- XOR: X96 bitwise XOR (R152). -/
  | xor (f : XF)
  /-- XOR_B32: B32 register form of XOR (OP7 0x0F) (R56). -/
  | xorB32 (f : BF)
  /-- XOR_B32_IMM: B32 immediate form of XOR (OP7 0x10) (R56). -/
  | xorB32Imm (f : BF)
  /-- XOR_IMM: X96 immediate twin of XOR (OP10 0x052) (R54). -/
  | xorImm (f : XF)
  /-- ANDN: X96 AND of vA with the complement of B (R152). -/
  | andn (f : XF)
  /-- ANDN_B32: B32 register form of ANDN (OP7 0x11) (R56). -/
  | andnB32 (f : BF)
  /-- ANDN_B32_IMM: B32 immediate form of ANDN (OP7 0x12) (R56). -/
  | andnB32Imm (f : BF)
  /-- ANDN_IMM: X96 immediate twin of ANDN (OP10 0x053) (R54). -/
  | andnImm (f : XF)
  /-- NOT: X96 bitwise complement (R152). -/
  | not (f : XF)
  /-- NOT_B32: B32 form of NOT (OP7 0x1D) (R56). -/
  | notB32 (f : BF)
  /-- SHL: X96 logical shift left by B mod w (R152). -/
  | shl (f : XF)
  /-- SHL_B32: B32 register form of SHL (OP7 0x13) (R56). -/
  | shlB32 (f : BF)
  /-- SHL_B32_IMM: B32 immediate form of SHL (OP7 0x14) (R56). -/
  | shlB32Imm (f : BF)
  /-- SHL_IMM: X96 immediate twin of SHL (OP10 0x055) (R54). -/
  | shlImm (f : XF)
  /-- SHR: X96 logical shift right (R152). -/
  | shr (f : XF)
  /-- SHR_B32: B32 register form of SHR (OP7 0x15) (R56). -/
  | shrB32 (f : BF)
  /-- SHR_B32_IMM: B32 immediate form of SHR (OP7 0x16) (R56). -/
  | shrB32Imm (f : BF)
  /-- SHR_IMM: X96 immediate twin of SHR (OP10 0x056) (R54). -/
  | shrImm (f : XF)
  /-- SAR: X96 arithmetic shift right (R152). -/
  | sar (f : XF)
  /-- SAR_B32: B32 register form of SAR (OP7 0x17) (R56). -/
  | sarB32 (f : BF)
  /-- SAR_B32_IMM: B32 immediate form of SAR (OP7 0x18) (R56). -/
  | sarB32Imm (f : BF)
  /-- SAR_IMM: X96 immediate twin of SAR (OP10 0x057) (R54). -/
  | sarImm (f : XF)
  /-- ROT: X96 rotate left (R152). -/
  | rot (f : XF)
  /-- ROT_B32: B32 register form of ROT (OP7 0x19) (R56). -/
  | rotB32 (f : BF)
  /-- ROT_B32_IMM: B32 immediate form of ROT (OP7 0x1A) (R56). -/
  | rotB32Imm (f : BF)
  /-- ROT_IMM: X96 immediate twin of ROT (OP10 0x058) (R54). -/
  | rotImm (f : XF)
  /-- BFX: Extracts a bit field, sign- or zero-extended (R153). -/
  | bfx (f : XF)
  /-- BFI: Inserts the low bits of B into a bit field of vA (R153). -/
  | bfi (f : XF)
  /-- POPC: X96 population count (R154). -/
  | popc (f : XF)
  /-- POPC_B32: B32 form of POPC (OP7 0x1E) (R56). -/
  | popcB32 (f : BF)
  /-- CLZ: X96 count of leading zeros (R154). -/
  | clz (f : XF)
  /-- CLZ_B32: B32 form of CLZ (OP7 0x1F) (R56). -/
  | clzB32 (f : BF)
  /-- CTZ: X96 count of trailing zeros (R154). -/
  | ctz (f : XF)
  /-- CTZ_B32: B32 form of CTZ (OP7 0x20) (R56). -/
  | ctzB32 (f : BF)
  /-- BREV: X96 bit reversal (R154). -/
  | brev (f : XF)
  /-- BREV_B32: B32 form of BREV (OP7 0x21) (R56). -/
  | brevB32 (f : BF)
  /-- ICMP: Integer compare writing 1 or 0 under the condition in M (R155). -/
  | icmp (f : XF)
  /-- SEL: Selects vA or B by bit 0 of vC (R155). -/
  | sel (f : XF)
  /-- LEA: Forms base + (vB << M) + IMM18 without accessing memory (R156). -/
  | lea (f : XF)
  /-- MOV: X96 move of operand B, or of a literal, to vD (R157). -/
  | mov (f : XF)
  /-- MOV_B32: B32 form of MOV (OP7 0x22) reading its source from B (R56). -/
  | movB32 (f : BF)
  /-- MOVI: X96 move of sign-extended IMM18 to vD (R157). -/
  | movi (f : XF)
  /-- MOVI_B32: B32 form of MOVI (OP7 0x23) with a signed imm7 (R56). -/
  | moviB32 (f : BF)
  /-- BRA: X96 branch moving the whole fragment to PC + 4·IMM18 (R159). -/
  | bra (f : XF)
  /-- BRA_B32: B32 form of BRA (OP7 0x70) with a word offset in imm7 (R56). -/
  | braB32 (f : BF)
  /-- BRC: Conditional branch on bit 0 of vA that adds a join token and detaches the smaller side as a new fragment (R160). -/
  | brc (f : XF)
  /-- JOIN: X96 join that waits for the fragments holding token t and merges them (R161). -/
  | join (f : XF)
  /-- JOIN_B32: B32 form of JOIN (OP7 0x71) with the token in B (R56). -/
  | joinB32 (f : BF)
  /-- CALL: X96 call writing the return address to v46:v47 and branching (R162). -/
  | call (f : XF)
  /-- CALL_B32: B32 form of CALL (OP7 0x72) (R56). -/
  | callB32 (f : BF)
  /-- RET: X96 return, acting as JMPX v46 (R162). -/
  | ret (f : XF)
  /-- RET_B32: B32 form of RET (OP7 0x73) (R56). -/
  | retB32 (f : BF)
  /-- JMPX: X96 indirect jump grouping lanes by target and detaching a fragment per further target (R162). -/
  | jmpx (f : XF)
  /-- JMPX_B32: B32 form of JMPX (OP7 0x74) (R56). -/
  | jmpxB32 (f : BF)
  /-- REP: Repeats the following k instructions n times, or skips them when n is 0 (R163). -/
  | rep (f : XF)
  /-- EXIT: X96 exit removing the fragment's lanes from the live set (R165). -/
  | exit (f : XF)
  /-- EXIT_B32: B32 form of EXIT (OP7 0x7A) (R56). -/
  | exitB32 (f : BF)
  /-- NOP: X96 no operation apart from its P bit (R165). -/
  | nop (f : XF)
  /-- NOP_B32: B32 form of NOP (OP7 0x75) (R56). -/
  | nopB32 (f : BF)
  /-- SHFL: Copies values between the enabled lanes of a fragment by index, up, down or xor (R167). -/
  | shfl (f : XF)
  /-- VOTE: Computes any, all, ballot or equality over the enabled lanes (R168). -/
  | vote (f : XF)
  /-- REDX: Reduces vA over the enabled lanes, with float sums on the fixed tree (R169). -/
  | redx (f : XF)
  /-- SCANX: Inclusive scan of vA over the enabled lanes in ascending order (R169). -/
  | scanx (f : XF)
  /-- MATCH: Writes to each lane the mask of enabled lanes holding an equal value (R170). -/
  | matchLanes (f : XF)
  /-- GET: Writes a special register such as lane, item, group, core or clock to vD (R135). -/
  | get (f : XF)
  /-- SETMODE: Writes the wave's rounding and subnormal mode register (R138). -/
  | setmode (f : XF)
  /-- GETMODE: Writes the mode register to vD (R139). -/
  | getmode (f : XF)
  /-- XLOCK: Takes and zeroes the pair's extended register row, stalling while the partner holds it (R134). -/
  | xlock (f : XF)
  /-- XFREE: Releases the extended register row (R134). -/
  | xfree (f : XF)
  /-- FADD: X96 float add rounded once (R174). -/
  | fadd (f : XF)
  /-- FADD_B32: B32 form of FADD (OP7 0x40) (R56). -/
  | faddB32 (f : BF)
  /-- FSUB: X96 float subtract (R174). -/
  | fsub (f : XF)
  /-- FSUB_B32: B32 form of FSUB (OP7 0x41) (R56). -/
  | fsubB32 (f : BF)
  /-- FMUL: X96 float multiply (R174). -/
  | fmul (f : XF)
  /-- FMUL_B32: B32 form of FMUL (OP7 0x42) (R56). -/
  | fmulB32 (f : BF)
  /-- FFMA: Fused multiply-add rounded once (R174). -/
  | ffma (f : XF)
  /-- FMIN: X96 float minimum (R175). -/
  | fmin (f : XF)
  /-- FMIN_B32: B32 form of FMIN (OP7 0x43) (R56). -/
  | fminB32 (f : BF)
  /-- FMAX: X96 float maximum (R175). -/
  | fmax (f : XF)
  /-- FMAX_B32: B32 form of FMAX (OP7 0x44) (R56). -/
  | fmaxB32 (f : BF)
  /-- FCMP: Float compare writing 1 or 0 under the condition in M (R176). -/
  | fcmp (f : XF)
  /-- FCLASS: Writes a one-hot class mask of a float operand (R177). -/
  | fclass (f : XF)
  /-- FRCP: X96 reciprocal rounded toward zero (R178). -/
  | frcp (f : XF)
  /-- FRCP_B32: B32 form of FRCP (OP7 0x45) (R56). -/
  | frcpB32 (f : BF)
  /-- FRSQ: X96 reciprocal square root (R178). -/
  | frsq (f : XF)
  /-- FRSQ_B32: B32 form of FRSQ (OP7 0x46) (R56). -/
  | frsqB32 (f : BF)
  /-- FSQRT: X96 correctly rounded square root (R174). -/
  | fsqrt (f : XF)
  /-- FSQRT_B32: B32 form of FSQRT (OP7 0x47) (R56). -/
  | fsqrtB32 (f : BF)
  /-- FEXP2: X96 base-2 exponential (R178). -/
  | fexp2 (f : XF)
  /-- FEXP2_B32: B32 form of FEXP2 (OP7 0x48) (R56). -/
  | fexp2B32 (f : BF)
  /-- FLOG2: X96 base-2 logarithm (R178). -/
  | flog2 (f : XF)
  /-- FLOG2_B32: B32 form of FLOG2 (OP7 0x49) (R56). -/
  | flog2B32 (f : BF)
  /-- FSIN: X96 sine of an argument in half-turns (R178). -/
  | fsin (f : XF)
  /-- FSIN_B32: B32 form of FSIN (OP7 0x4A) (R56). -/
  | fsinB32 (f : BF)
  /-- FCOS: X96 cosine of an argument in half-turns (R178). -/
  | fcos (f : XF)
  /-- FCOS_B32: B32 form of FCOS (OP7 0x4B) (R56). -/
  | fcosB32 (f : BF)
  /-- FCVT: Converts between float formats with cvt_ff (R180). -/
  | fcvt (f : XF)
  /-- CVTIF: Converts an integer to a float format (R180). -/
  | cvtif (f : XF)
  /-- CVTFI: Converts a float to a saturated integer (R180). -/
  | cvtfi (f : XF)
  /-- PADD2: X96 packed add of two 16-bit float elements (R181). -/
  | padd2 (f : XF)
  /-- PADD2_B32: B32 form of PADD2 (OP7 0x4C) (R56). -/
  | padd2B32 (f : BF)
  /-- PMUL2: X96 packed multiply of two 16-bit float elements (R181). -/
  | pmul2 (f : XF)
  /-- PMUL2_B32: B32 form of PMUL2 (OP7 0x4D) (R56). -/
  | pmul2B32 (f : BF)
  /-- PFMA2: Packed fused multiply-add of two 16-bit float elements (R181). -/
  | pfma2 (f : XF)
  /-- IDOT4: Adds a four-way byte dot product to a 32-bit accumulator (R182). -/
  | idot4 (f : XF)
  /-- UNPK3: Decodes one packed-trit byte into five i32 registers (R183). -/
  | unpk3 (f : XF)
  /-- UNPKN: Reads one element of a lane's block held in a register group (R184). -/
  | unpkn (f : XF)
  /-- PACKN: Writes one clamped element into a block register group (R185). -/
  | packn (f : XF)
  /-- BFPQ: Quantises one block across the wave's lanes into codes and a bound scale (R186). -/
  | bfpq (f : XF)
  /-- SSI: Compares two four-key windows for common keys and merge advances (R187). -/
  | ssi (f : XF)
  /-- KINS: Inserts a key and payload into a sorted per-lane list (R188). -/
  | kins (f : XF)
  /-- ACT: Evaluates an activation table bank at vA (R190). -/
  | act (f : XF)
  /-- ACTLD: Loads a 2,064-byte bank image into an activation table bank (R191). -/
  | actld (f : XF)
  /-- SLD: Loads one E8 scale byte per lane into a k register and clears its binding (R200). -/
  | sld (f : XF)
  /-- SST: Stores one scale byte per lane, per lane or by row (R200). -/
  | sst (f : XF)
  /-- SST_STREAM: SST .x or .w pushing 32 tagged scales into the matrix engine's scale FIFO and marking the register stale
  (R200). -/
  | sstStream (f : XF)
  /-- SMOV: Copies scales between k registers and vector registers (R201). -/
  | smov (f : XF)
  /-- SBIND: Makes or clears a k register's binding to a register group, tile or stream position (R202). -/
  | sbind (f : XF)
  /-- SADD: Multiplies two scales per lane (R203). -/
  | sadd (f : XF)
  /-- SSUB: Divides two scales per lane (R203). -/
  | ssub (f : XF)
  /-- SMAX: Maximum of two scales per lane (R203). -/
  | smax (f : XF)
  /-- SMIN: Minimum of two scales per lane (R203). -/
  | smin (f : XF)
  /-- SCVT: Converts between E8 scales and FP32 (R203). -/
  | scvt (f : XF)
  /-- SACC: Scales i32 sums by two k registers and accumulates into FP32, trapping on a stale scale (R204). -/
  | sacc (f : XF)
  /-- SQRY: Writes a k register's binding descriptor to vD (R205). -/
  | sqry (f : XF)
  /-- TRAP: X96 raise of TRAP_INSN with a code (R214). -/
  | trap (f : XF)
  /-- TRAP_B32: B32 form of TRAP (OP7 0x77) (R56). -/
  | trapB32 (f : BF)
  /-- TRET: Ends a handler and recreates the trapped fragment from trap.pc (R217). -/
  | tret (f : XF)
  /-- BKPT: X96 breakpoint halting under Leyth or entering the handler (R215). -/
  | bkpt (f : XF)
  /-- BKPT_B32: B32 form of BKPT (OP7 0x76) (R56). -/
  | bkptB32 (f : BF)
  /-- SYSR: Reads a system register into vD (R216). -/
  | sysr (f : XF)
  /-- SYSW: Writes a system register, sending a host service request on host.req (R216). -/
  | sysw (f : XF)
  /-- ICINV: Discards the fragment's fetched instruction words (R218). -/
  | icinv (f : XF)
  /-- LD: X96 per-lane load from scratchpad or global memory (R104). -/
  | ld (f : XF)
  /-- LD_B32: B32 form of LD (OP7 0x60) with imm7 offset (R56). -/
  | ldB32 (f : BF)
  /-- ST: X96 per-lane store (R104). -/
  | st (f : XF)
  /-- ST_B32: B32 form of ST (OP7 0x61) (R56). -/
  | stB32 (f : BF)
  /-- LDU: X96 unit-stride load from the lowest enabled lane's address (R104). -/
  | ldu (f : XF)
  /-- LDU_B32: B32 form of LDU (OP7 0x62) (R56). -/
  | lduB32 (f : BF)
  /-- LDBF: Loads a block per lane into a register group and binds its scales to a k register (R105). -/
  | ldbf (f : XF)
  /-- PREF: X96 prefetch of each enabled lane's line, never trapping on the address (R106). -/
  | pref (f : XF)
  /-- PREF_B32: B32 form of PREF (OP7 0x63) (R56). -/
  | prefB32 (f : BF)
  /-- SPMAP: Binds a scratchpad page to a global range, lines unfilled (R107). -/
  | spmap (f : XF)
  /-- STASH: Binds a scratchpad page to a global range and requests fills of all its lines (R107). -/
  | stash (f : XF)
  /-- UNSTASH: Writes back a stash-mapped page and makes it plain (R108). -/
  | unstash (f : XF)
  /-- FLUSH: Writes back the line of each enabled lane's address (R109). -/
  | flush (f : XF)
  /-- INVAL: Writes back and drops, or discards, the line of each enabled lane's address (R109). -/
  | inval (f : XF)
  /-- ATOM: Atomic add, min, max, and, or, xor or exchange per lane (R114). -/
  | atom (f : XF)
  /-- ACAS: Atomic compare-and-swap per lane (R115). -/
  | acas (f : XF)
  /-- AINCB: Atomic bounded increment per lane (R116). -/
  | aincb (f : XF)
  /-- AFADD: Atomic FP32 add rounded to nearest even (R117). -/
  | afadd (f : XF)
  /-- FENCE: Release, acquire or both at a scope for the enabled lanes (R119). -/
  | fence (f : XF)
  /-- BARI: Initialises a barrier object and releases arrivals held on it (R123). -/
  | bari (f : XF)
  /-- BARA: Releases at .team and records the wave's arrival at a barrier object (R124). -/
  | bara (f : XF)
  /-- BARX: Raises a barrier object's pending byte count (R125). -/
  | barx (f : XF)
  /-- BARW: Waits for a barrier phase to complete, then acquires at .team (R126). -/
  | barw (f : XF)
  /-- WAITA: Sleeps until memory words satisfy a condition (R128). -/
  | waita (f : XF)
  /-- PUSH: Pushes one 64-byte command record per enabled lane to an engine queue (R236). -/
  | push (f : XF)
  /-- SEAL: Closes the wave's open copy batch (R238). -/
  | seal (f : XF)
  /-- WAITB: Waits until the wave's copies in batches up to n have ended (R239). -/
  | waitb (f : XF)
  /-- QSTAT: Writes a queue or batch status word (R240). -/
  | qstat (f : XF)
  /-- GEN: Opens a generator region, taking a Landing slot and copying the producer frame (R274). -/
  | gen (f : XF)
  /-- YLD: Appends entries to the Landing, possibly starting a consumer batch (R275). -/
  | yld (f : XF)
  /-- GEND: Retires producer lanes, possibly starting a drain batch or ending the region (R276). -/
  | gend (f : XF)
  /-- GFLIP: Forces a consumer batch (R277). -/
  | gflip (f : XF)
  /-- GNEXT: Ends a consumer batch and resumes producers, starts the next batch or ends the region (R279). -/
  | gnext (f : XF)
  /-- TAKE: Reads the lane's assigned Landing entry (R280). -/
  | take (f : XF)
  /-- GSTAT: Writes the generator state record's low word (R281). -/
  | gstat (f : XF)
  /-- LAUNCH: Starts one child launch per enabled lane after a .device release (R306). -/
  | launch (f : XF)
  /-- CUTQ: Writes a summary word of the launch's game record (R307). -/
  | cutq (f : XF)
  /-- TLPOP: Pops tile descriptors of a job and acquires at .device (R321). -/
  | tlpop (f : XF)
  /-- TLDONE: Releases at .device and retires one tile of a job (R322). -/
  | tldone (f : XF)
  /-- AL_LDW: Alcove load of 8 bytes from a present line, as a .device acquire (R338). -/
  | alLdw (cl ctx : Nat) (rd rs1 : BitVec 5) (imm : BitVec 12)
  /-- AL_FETCH: Alcove request of a line into its home slice (R339). -/
  | alFetch (cl ctx : Nat) (rd rs1 : BitVec 5) (imm : BitVec 12)
  /-- AL_DROP: Makes a present line the next eviction candidate (R339). -/
  | alDrop (cl ctx : Nat) (rd rs1 : BitVec 5) (imm : BitVec 12)
  /-- AL_ARG: Reads a trigger or message argument (R336). -/
  | alArg (cl ctx : Nat) (rd rs1 : BitVec 5) (imm : BitVec 12)
  /-- AL_END: Ends the invocation with the default, suppress or retry action (R340). -/
  | alEnd (cl ctx : Nat) (rd rs1 : BitVec 5) (imm : BitVec 12)
  /-- AL_STW: Alcove store of 8 bytes to a present line, as a .device release (R338). -/
  | alStw (cl ctx : Nat) (rs2 rs1 : BitVec 5) (imm : BitVec 12)
  /-- AL_SEND: Writes a word into the pushing team's scratchpad and wakes waiters (R340). -/
  | alSend (cl ctx : Nat) (rs2 rs1 : BitVec 5) (imm : BitVec 12)
  /-- HANDLER_INSTRUCTION: An Alcove context issues one base RV64IMAC, Zicsr, Zba or Zbb instruction of a handler, including
  data-memory accesses, CSR reads and exceptions (R328). -/
  | handlerInstruction (cl ctx len : Nat) (i : Rv)
  /-- ACTLD_COMMIT: Indivisible replacement of a bank's contents and owner tag after the last image word is read (R191). -/
  | actldCommit (core : Nat)
  /-- STASH_FILL: Completion of a background fill of a stash-mapped line (R103). -/
  | stashFill (team page line : Nat)
  /-- WAITA_WAKE: A waiting lane is woken by the write that makes its condition true (R128). -/
  | waitaWake (wave frag : Nat)
  /-- RESULT_RETURN: Return of an outstanding register result such as a load or atomic to the wave (R133). -/
  | resultReturn (wave : Nat)
  /-- PARK_COMPLETE: A parked wave's outstanding results have returned and it may issue again (R143). -/
  | parkComplete (wave : Nat)
  /-- STARVATION_ISSUE: A fragment ready for 64 issue cycles without issuing takes the next issue (R141). -/
  | starvationIssue (core quad : Nat)
  /-- WAIT_THRESHOLD: A wave whose fragments have all waited past the threshold becomes evictable (R129). -/
  | waitThreshold (wave : Nat)
  /-- EVICTED_WAVE_RESUME: An evicted wave is resumed when its wait condition holds (R129). -/
  | evictedWaveResume (wave : Nat)
  /-- CP_LIN: Copy command moving LEN bytes from SRC to DST (R242). -/
  | cpLin (core q idx n : Nat)
  /-- CP_TILE: Copy command moving a strided three-dimensional tile (R242). -/
  | cpTile (core q idx n : Nat)
  /-- CP_GATH: Copy command gathering rows by an index array in scratchpad (R242). -/
  | cpGath (core q idx n : Nat)
  /-- CP_STRM: Copy command streaming blocks and scales into the matrix engine's X or W FIFOs (R244). -/
  | cpStrm (core q idx n : Nat)
  /-- CP_PEER: Copy command storing bytes to a peer device over the Bamziong sub-links (R249). -/
  | cpPeer (core q idx n : Nat)
  /-- CP_FILL: Copy command filling DST with a 32-bit pattern (R242). -/
  | cpFill (core q idx n : Nat)
  /-- COPY_RESUME: A copy suspended on an unpinned page, or a stream stopped by a matrix spill, resumes at NEXT (R248). -/
  | copyResume (core q idx : Nat)
  /-- MX_ZERO: Matrix command clearing an accumulator buffer and flushing FIFOs (R259). -/
  | mxZero (core : Nat)
  /-- MX_MUL: Matrix command multiplying an X tile by a W tile into an accumulator buffer (R260). -/
  | mxMul (core : Nat)
  /-- MX_MUL_TILE_CHECK: Check of the MX.MUL tile once its entries are present, taking STREAM_DESYNC on mismatch (R261). -/
  | mxMulTileCheck (core : Nat)
  /-- MX_DRAIN: Matrix command writing accumulators to scratchpad (R262). -/
  | mxDrain (core : Nat)
  /-- MX_LOADC: Matrix command loading accumulators from scratchpad (R262). -/
  | mxLoadc (core : Nat)
  /-- MX_ARRIVE: Matrix command arriving once at a barrier object as a .team release (R263). -/
  | mxArrive (core : Nat)
  /-- ALCOVE_MESSAGE: Validation of a message record at the head of queue 3 and raise of its MSG handler (R335). -/
  | alcoveMessage (cl : Nat)
  /-- MISS: A registered line misses in its home slice and raises a MISS trigger (R333). -/
  | miss (line kind core : Nat)
  /-- FILL: A registered line becomes resident in its home slice and raises a FILL trigger (R333). -/
  | fill (line : Nat)
  /-- EVICT: A registered line is chosen as a victim and raises an EVICT trigger (R333). -/
  | evict (line : Nat)
  /-- HANDLER_START: A queued trigger takes a free Alcove context and its handler starts (R334). -/
  | handlerStart (cl cls : Nat)
  /-- BUDGET_OVERRUN: An invocation reaching its cycle budget without AL.END is aborted (R341). -/
  | budgetOverrun (cl ctx : Nat)
  /-- DOORBELL: Write of a host queue's write index, or setting of ERR on a bad value (R364). -/
  | doorbell (q : Nat) (v : BitVec 64)
  /-- QBASE: Write of a queue's ring address, which restarts a queue stopped on ERR (R364). -/
  | qbase (q : Nat) (v : BitVec 64)
  /-- LAUNCH_PACKET: Host packet starting a launch of a kernel over an iteration space (R366). -/
  | launchPacket (q : Nat)
  /-- BARRIER_PACKET: Host packet whose condition is its wait list of signals (R368). -/
  | barrierPacket (q : Nat)
  /-- BARRIER_EVALUATION: Periodic re-evaluation of a BARRIER packet's wait list (R368). -/
  | barrierEvaluation (q : Nat)
  /-- COPY_PACKET: Host packet copying memory with the I/O die's engines (R366). -/
  | copyPacket (q : Nat) (id : Option Nat)
  /-- TILES_PACKET: Host packet creating a tile job and decomposing its records into tiles (R314). -/
  | tilesPacket (q : Nat)
  /-- SIGNAL_PACKET: Host packet atomically adding a value to a target after its release (R366). -/
  | signalPacket (q : Nat)
  /-- MARKER_PACKET: Host packet that leaves stage 1 once every earlier packet has completed (R366). -/
  | markerPacket (q : Nat)
  /-- LAUNCH_ACCEPTANCE: Packet processor takes a queued launch or child at stage 2, validates it and performs its acquire
  (R12). -/
  | launchAcceptance (id : Nat)
  /-- TEAM_DISPATCH: An idle core pops the head group of its die's combining queue and dispatches it as a team (R302). -/
  | teamDispatch (id die core : Nat)
  /-- CORESIDENT_PLACEMENT: Placement of every group of a co-resident launch at once, or NO_FIT (R304). -/
  | coresidentPlacement (id : Nat) (cores : List Nat)
  /-- TEAM_RETIRE: A team retires once its waves have exited and its pushed commands have ended (R13). -/
  | teamRetire (team : Nat)
  /-- WINDOW_EVALUATION: Evaluation of a window of finished groups and possible re-cut of the remainder (R300). -/
  | windowEvaluation (id : Nat)
  /-- LAUNCH_COMPLETION: Completion of a launch, job or packet writing status, releasing and updating its signal (R367). -/
  | launchCompletion (id : Nat)
  /-- PEER_ACK: Acknowledgement of a peer store from the peer device (R249). -/
  | peerAck (id bytes : Nat)
  /-- FLIT_RESEND: Resend of a flit that failed its CRC or was not acknowledged, or its loss after 8 tries (R361). -/
  | flitResend (id bytes tries : Nat)
  /-- LINK_DOWN: A sub-link that loses training or every flit for 1 ms goes down (R361). -/
  | linkDown (port lane : Nat)
  /-- CONGESTION_MARK: A marked response halves a partition's permitted copy and host rate (R250). -/
  | congestionMark (part core : Nat)
  /-- RATE_RAISE: After 4,096 cycles without a mark the permitted rate rises by 1/16 of peak (R250). -/
  | rateRaise (part core : Nat)
  /-- FILL_SIGNAL_POLL: Dispatcher read of a not-yet-ready expert's fill signal, making it ready or failed (R318). -/
  | fillSignalPoll (id expert : Nat)
  /-- TEAM_RESUME: A parked team resumes and its spilt state is restored when its claimed resources are free (R223). -/
  | teamResume (team : Nat)
  /-- FAULT_ANSWER: Host write of a fault-queue answer delivering host.resp to the waiting fragment (R369). -/
  | faultAnswer (part : Nat) (tag : BitVec 64) (resp : BitVec 32)
  /-- CXL_MEM_ACCESS: Host access to a partition's device memory through CXL.mem (R363). -/
  | cxlMemAccess (part : Nat) (addr : BitVec 64) (n : Nat) (data : Option (List (BitVec 8)))
  /-- PARTITION_FAULT: Soft error, link loss or isolation violation stopping and discarding a partition's work (R370). -/
  | partitionFault (part : Nat) (line : Option Nat)
  /-- REPART: Mailbox command changing the layout of stops among partitions (R356). -/
  | repart (layout : List Nat) (timeout : Nat)
  /-- REPART_DRAIN_END: The drain of a REPART ends and quiesce, flush and the two commit phases run (R356). -/
  | repartDrainEnd
  /-- REPART_TIMEOUT: A REPART drain exceeding its TIMEOUT ends the command REFUSED (R356). -/
  | repartTimeout
  /-- WATCHDOG_RESET: Management-processor watchdog reset followed by journal roll-forward or roll-back (R358). -/
  | watchdogReset
  /-- PREEMPT: Mailbox command halting every wave of named launches and parking their teams (R220). -/
  | preempt (part : Nat) (ids : List (BitVec 32))
  /-- RESUME: Mailbox command resuming named launches (R371). -/
  | resume (part : Nat) (ids : List (BitVec 32))
  /-- SETPOOL: Mailbox command setting a partition's reservation and cap of a shared pool (R355). -/
  | setpool (pool part rsv cap : Nat)
  /-- SETQUEUE: Mailbox command assigning a host queue to a partition (R371). -/
  | setqueue (q part : Nat)
  /-- ALCOVE: Mailbox command writing an Alcove class register or registration (R331). -/
  | alcove (part : Nat) (cmd : AlcoveCmd)
  /-- SETLINK: Mailbox command setting peer table entries of a port (R360): each entry's partition, number and port mask. -/
  | setlink (port : Nat) (entries : List (Nat × Nat × BitVec 16))
  /-- FAULTQ: Mailbox command placing a partition's fault queue ring (R369). -/
  | faultq (part : Nat) (base : BitVec 64) (size : Nat)
  /-- SETWAIT: Mailbox command setting a partition's wait threshold (R129). -/
  | setwait (part cycles : Nat)
  /-- FEATURES: Mailbox command returning the 128 offered feature bits (R377). -/
  | features
  /-- ACCEPT: Mailbox command writing the accepted feature bits (R377). -/
  | accept (bits : BitVec 128)
  /-- ATTEST: Mailbox command returning a signed attestation report for a nonce (R376). -/
  | attest (nonce : List (BitVec 8))
  /-- TELEMETRY: Mailbox command returning per-core voltage and clock words and package power (R380). -/
  | telemetry
  /-- UPDATE: Mailbox command checking a firmware image at an address of host memory and writing it to boot flash (R375). -/
  | update (addr : Nat)
  /-- IDCERT: Mailbox command returning the identity certificate (R376). -/
  | idcert
  /-- DEVICE_RESET: Device reset starting boot, identity, memory, core and host bring-up in order (R373). -/
  | deviceReset
  /-- VOLTAGE_LOOP: Periodic setting of each core's supply voltage (R378). -/
  | voltageLoop (core : Nat)
  /-- FREQUENCY_LOOP: Periodic setting of each core's clock target (R378). -/
  | frequencyLoop (core : Nat)
  /-- POWER_LOOP: Periodic setting of per-core targets within the package power budget (R378). -/
  | powerLoop (core : Nat)
  /-- EQUALISATION: Tuning of a link lane's transmitter and receiver between flits (R378). -/
  | equalisation (port lane : Nat)
  /-- DEBUG_CONTINUE: Leyth resumes a debug-halted team, proceeding with a caught trap (R225). -/
  | debugContinue (team : Nat)
  /-- WAVE_STEP: Leyth steps one wave of a halted team by one instruction (R228). -/
  | waveStep (team w : Nat)
  /-- FRAGMENT_STEP: Leyth steps one fragment by one instruction (R228). -/
  | fragmentStep (team w frag : Nat)
  /-- LANE_STEP: Leyth detaches one lane as a fragment and steps it by one instruction (R228). -/
  | laneStep (team w lane : Nat)
  /-- LEYTH_REGISTER_WRITE: Write of a wave register through the Leyth port, setting STALE on bindings it touches (R196). -/
  | leythRegisterWrite (wave reg lane : Nat) (v : BitVec 32)
  /-- REGISTER_WRITE: Write of a register with no behaviour of its own, such as debug units, connection, link or class
  registers (R353). -/
  | registerWrite (r : RegTarget)
  /-- PEER_STORE_ARRIVAL: A peer device's CP.PEER flit arrives over an owned sub-link, is translated in the receiving
  partition and written, then acknowledged (R249). -/
  | peerStoreArrival (port lane : Nat) (addr : BitVec 64) (data : List (BitVec 8))
  /-- NARROW_LINE_PUBLICATION: The hardware publishes a narrow-held line to its home slice on its own, at any time (R88). -/
  | narrowLinePublication (cl line : Nat)
  /-- DEBUG_CONTEXT_TAKE: Leyth takes, or gives back, a launch's debug context through the host over the Leyth port, which
  changes what SYSR reads of it and how breakpoints and traps act (R225). -/
  | debugContextTake (id : Nat) (taken : Bool)
  /-- CXL_CACHE_SNOOP: The host recalls or invalidates a host-window line that the device holds under CXL.cache, keeping host
  memory coherent at .system scope (R363). -/
  | cxlCacheSnoop (line : Nat) (inval : Bool)
deriving DecidableEq, Repr

end Sys2Proof
end

