-- ==== Sys2Proof/WellFormed.lean ====
section
/-! DEFINITION. The well-formedness of instructions: the field rules of R30 to R40 and R57 and the rules each
opcode's description adds (step 3 of R41), as one table by OP10, with the encoding form of each constructor. -/

namespace Sys2Proof

/-- The form of an instruction's words: an X96 or X160 opcode with its fields, a B32 or B96 opcode with its
fields, or no words of the wave engine (R25, R53, R56). -/
inductive Form
  | x (op : Nat) (f : XF)
  | b (op : Nat) (f : BF)
  | event
deriving DecidableEq, Repr

/-- The opcode of each wave instruction, by R53, R54 and R56. -/
def Instr.form : Instr → Form
  | .iadd f => .x 0x001 f
  | .iaddB32 f => .b 0x01 f
  | .iaddB32Imm f => .b 0x02 f
  | .iaddImm f => .x 0x041 f
  | .isub f => .x 0x002 f
  | .isubB32 f => .b 0x03 f
  | .isubB32Imm f => .b 0x04 f
  | .isubImm f => .x 0x042 f
  | .iaddc f => .x 0x003 f
  | .iaddcB32 f => .b 0x25 f
  | .isubb f => .x 0x004 f
  | .isubbB32 f => .b 0x26 f
  | .ineg f => .x 0x005 f
  | .inegB32 f => .b 0x1B f
  | .iabs f => .x 0x006 f
  | .iabsB32 f => .b 0x1C f
  | .imul f => .x 0x007 f
  | .imulB32 f => .b 0x05 f
  | .imulB32Imm f => .b 0x06 f
  | .imulImm f => .x 0x047 f
  | .imulh f => .x 0x008 f
  | .imulhB32 f => .b 0x24 f
  | .imad f => .x 0x009 f
  | .icsadd f => .x 0x00A f
  | .idiv f => .x 0x00B f
  | .imin f => .x 0x00C f
  | .iminB32 f => .b 0x07 f
  | .iminB32Imm f => .b 0x08 f
  | .iminImm f => .x 0x04C f
  | .imax f => .x 0x00D f
  | .imaxB32 f => .b 0x09 f
  | .imaxB32Imm f => .b 0x0A f
  | .imaxImm f => .x 0x04D f
  | .iclamp f => .x 0x00E f
  | .isat f => .x 0x00F f
  | .and f => .x 0x010 f
  | .andB32 f => .b 0x0B f
  | .andB32Imm f => .b 0x0C f
  | .andImm f => .x 0x050 f
  | .or f => .x 0x011 f
  | .orB32 f => .b 0x0D f
  | .orB32Imm f => .b 0x0E f
  | .orImm f => .x 0x051 f
  | .xor f => .x 0x012 f
  | .xorB32 f => .b 0x0F f
  | .xorB32Imm f => .b 0x10 f
  | .xorImm f => .x 0x052 f
  | .andn f => .x 0x013 f
  | .andnB32 f => .b 0x11 f
  | .andnB32Imm f => .b 0x12 f
  | .andnImm f => .x 0x053 f
  | .not f => .x 0x014 f
  | .notB32 f => .b 0x1D f
  | .shl f => .x 0x015 f
  | .shlB32 f => .b 0x13 f
  | .shlB32Imm f => .b 0x14 f
  | .shlImm f => .x 0x055 f
  | .shr f => .x 0x016 f
  | .shrB32 f => .b 0x15 f
  | .shrB32Imm f => .b 0x16 f
  | .shrImm f => .x 0x056 f
  | .sar f => .x 0x017 f
  | .sarB32 f => .b 0x17 f
  | .sarB32Imm f => .b 0x18 f
  | .sarImm f => .x 0x057 f
  | .rot f => .x 0x018 f
  | .rotB32 f => .b 0x19 f
  | .rotB32Imm f => .b 0x1A f
  | .rotImm f => .x 0x058 f
  | .bfx f => .x 0x019 f
  | .bfi f => .x 0x01A f
  | .popc f => .x 0x01B f
  | .popcB32 f => .b 0x1E f
  | .clz f => .x 0x01C f
  | .clzB32 f => .b 0x1F f
  | .ctz f => .x 0x01D f
  | .ctzB32 f => .b 0x20 f
  | .brev f => .x 0x01E f
  | .brevB32 f => .b 0x21 f
  | .icmp f => .x 0x020 f
  | .sel f => .x 0x021 f
  | .lea f => .x 0x022 f
  | .mov f => .x 0x023 f
  | .movB32 f => .b 0x22 f
  | .movi f => .x 0x024 f
  | .moviB32 f => .b 0x23 f
  | .bra f => .x 0x0C0 f
  | .braB32 f => .b 0x70 f
  | .brc f => .x 0x0C1 f
  | .join f => .x 0x0C2 f
  | .joinB32 f => .b 0x71 f
  | .call f => .x 0x0C3 f
  | .callB32 f => .b 0x72 f
  | .ret f => .x 0x0C4 f
  | .retB32 f => .b 0x73 f
  | .jmpx f => .x 0x0C5 f
  | .jmpxB32 f => .b 0x74 f
  | .rep f => .x 0x0C6 f
  | .exit f => .x 0x0C7 f
  | .exitB32 f => .b 0x7A f
  | .nop f => .x 0x0C8 f
  | .nopB32 f => .b 0x75 f
  | .shfl f => .x 0x0D0 f
  | .vote f => .x 0x0D1 f
  | .redx f => .x 0x0D2 f
  | .scanx f => .x 0x0D3 f
  | .matchLanes f => .x 0x0D4 f
  | .get f => .x 0x0E0 f
  | .setmode f => .x 0x0E1 f
  | .getmode f => .x 0x0E2 f
  | .xlock f => .x 0x0F0 f
  | .xfree f => .x 0x0F1 f
  | .fadd f => .x 0x100 f
  | .faddB32 f => .b 0x40 f
  | .fsub f => .x 0x101 f
  | .fsubB32 f => .b 0x41 f
  | .fmul f => .x 0x102 f
  | .fmulB32 f => .b 0x42 f
  | .ffma f => .x 0x103 f
  | .fmin f => .x 0x104 f
  | .fminB32 f => .b 0x43 f
  | .fmax f => .x 0x105 f
  | .fmaxB32 f => .b 0x44 f
  | .fcmp f => .x 0x106 f
  | .fclass f => .x 0x107 f
  | .frcp f => .x 0x108 f
  | .frcpB32 f => .b 0x45 f
  | .frsq f => .x 0x109 f
  | .frsqB32 f => .b 0x46 f
  | .fsqrt f => .x 0x10A f
  | .fsqrtB32 f => .b 0x47 f
  | .fexp2 f => .x 0x10B f
  | .fexp2B32 f => .b 0x48 f
  | .flog2 f => .x 0x10C f
  | .flog2B32 f => .b 0x49 f
  | .fsin f => .x 0x10D f
  | .fsinB32 f => .b 0x4A f
  | .fcos f => .x 0x10E f
  | .fcosB32 f => .b 0x4B f
  | .fcvt f => .x 0x120 f
  | .cvtif f => .x 0x121 f
  | .cvtfi f => .x 0x122 f
  | .padd2 f => .x 0x140 f
  | .padd2B32 f => .b 0x4C f
  | .pmul2 f => .x 0x141 f
  | .pmul2B32 f => .b 0x4D f
  | .pfma2 f => .x 0x142 f
  | .idot4 f => .x 0x180 f
  | .unpk3 f => .x 0x181 f
  | .unpkn f => .x 0x182 f
  | .packn f => .x 0x183 f
  | .bfpq f => .x 0x184 f
  | .ssi f => .x 0x190 f
  | .kins f => .x 0x191 f
  | .act f => .x 0x1A0 f
  | .actld f => .x 0x1A1 f
  | .sld f => .x 0x1C0 f
  | .sst f => .x 0x1C1 f
  | .sstStream f => .x 0x1C1 f
  | .smov f => .x 0x1C2 f
  | .sbind f => .x 0x1C3 f
  | .sadd f => .x 0x1C4 f
  | .ssub f => .x 0x1C5 f
  | .smax f => .x 0x1C6 f
  | .smin f => .x 0x1C7 f
  | .scvt f => .x 0x1C8 f
  | .sacc f => .x 0x1C9 f
  | .sqry f => .x 0x1CA f
  | .trap f => .x 0x1E0 f
  | .trapB32 f => .b 0x77 f
  | .tret f => .x 0x1E1 f
  | .bkpt f => .x 0x1E2 f
  | .bkptB32 f => .b 0x76 f
  | .sysr f => .x 0x1E3 f
  | .sysw f => .x 0x1E4 f
  | .icinv f => .x 0x1E5 f
  | .ld f => .x 0x200 f
  | .ldB32 f => .b 0x60 f
  | .st f => .x 0x201 f
  | .stB32 f => .b 0x61 f
  | .ldu f => .x 0x202 f
  | .lduB32 f => .b 0x62 f
  | .ldbf f => .x 0x203 f
  | .pref f => .x 0x204 f
  | .prefB32 f => .b 0x63 f
  | .spmap f => .x 0x210 f
  | .stash f => .x 0x211 f
  | .unstash f => .x 0x212 f
  | .flush f => .x 0x213 f
  | .inval f => .x 0x214 f
  | .atom f => .x 0x260 f
  | .acas f => .x 0x261 f
  | .aincb f => .x 0x262 f
  | .afadd f => .x 0x263 f
  | .fence f => .x 0x270 f
  | .bari f => .x 0x280 f
  | .bara f => .x 0x281 f
  | .barx f => .x 0x282 f
  | .barw f => .x 0x283 f
  | .waita f => .x 0x290 f
  | .push f => .x 0x2A0 f
  | .seal f => .x 0x2A1 f
  | .waitb f => .x 0x2A2 f
  | .qstat f => .x 0x2A3 f
  | .gen f => .x 0x2C0 f
  | .yld f => .x 0x2C1 f
  | .gend f => .x 0x2C3 f
  | .gflip f => .x 0x2C5 f
  | .gnext f => .x 0x2C4 f
  | .take f => .x 0x2C2 f
  | .gstat f => .x 0x2C6 f
  | .launch f => .x 0x2E0 f
  | .cutq f => .x 0x2E1 f
  | .tlpop f => .x 0x2F0 f
  | .tldone f => .x 0x2F1 f
  | .alLdw _ _ _ _ _ => .event
  | .alFetch _ _ _ _ _ => .event
  | .alDrop _ _ _ _ _ => .event
  | .alArg _ _ _ _ _ => .event
  | .alEnd _ _ _ _ _ => .event
  | .alStw _ _ _ _ _ => .event
  | .alSend _ _ _ _ _ => .event
  | .handlerInstruction _ _ _ _ => .event
  | .actldCommit _ => .event
  | .stashFill _ _ _ => .event
  | .waitaWake _ _ => .event
  | .resultReturn _ => .event
  | .parkComplete _ => .event
  | .starvationIssue _ _ => .event
  | .waitThreshold _ => .event
  | .evictedWaveResume _ => .event
  | .cpLin _ _ _ _ => .event
  | .cpTile _ _ _ _ => .event
  | .cpGath _ _ _ _ => .event
  | .cpStrm _ _ _ _ => .event
  | .cpPeer _ _ _ _ => .event
  | .cpFill _ _ _ _ => .event
  | .copyResume _ _ _ => .event
  | .mxZero _ => .event
  | .mxMul _ => .event
  | .mxMulTileCheck _ => .event
  | .mxDrain _ => .event
  | .mxLoadc _ => .event
  | .mxArrive _ => .event
  | .alcoveMessage _ => .event
  | .miss _ _ _ => .event
  | .fill _ => .event
  | .evict _ => .event
  | .handlerStart _ _ => .event
  | .budgetOverrun _ _ => .event
  | .doorbell _ _ => .event
  | .qbase _ _ => .event
  | .launchPacket _ => .event
  | .barrierPacket _ => .event
  | .barrierEvaluation _ => .event
  | .copyPacket _ _ => .event
  | .tilesPacket _ => .event
  | .signalPacket _ => .event
  | .markerPacket _ => .event
  | .launchAcceptance _ => .event
  | .teamDispatch _ _ _ => .event
  | .coresidentPlacement _ _ => .event
  | .teamRetire _ => .event
  | .windowEvaluation _ => .event
  | .launchCompletion _ => .event
  | .peerAck _ _ => .event
  | .flitResend _ _ _ => .event
  | .linkDown _ _ => .event
  | .congestionMark _ _ => .event
  | .rateRaise _ _ => .event
  | .fillSignalPoll _ _ => .event
  | .teamResume _ => .event
  | .faultAnswer _ _ _ => .event
  | .cxlMemAccess _ _ _ _ => .event
  | .partitionFault _ _ => .event
  | .repart _ _ => .event
  | .repartDrainEnd => .event
  | .repartTimeout => .event
  | .watchdogReset => .event
  | .preempt _ _ => .event
  | .resume _ _ => .event
  | .setpool _ _ _ _ => .event
  | .setqueue _ _ => .event
  | .alcove _ _ => .event
  | .setlink _ _ => .event
  | .faultq _ _ _ => .event
  | .setwait _ _ => .event
  | .features => .event
  | .accept _ => .event
  | .attest _ => .event
  | .telemetry => .event
  | .update _ => .event
  | .idcert => .event
  | .deviceReset => .event
  | .voltageLoop _ => .event
  | .frequencyLoop _ => .event
  | .powerLoop _ => .event
  | .equalisation _ _ => .event
  | .debugContinue _ => .event
  | .waveStep _ _ => .event
  | .fragmentStep _ _ _ => .event
  | .laneStep _ _ _ => .event
  | .leythRegisterWrite _ _ _ _ => .event
  | .registerWrite _ => .event
  | .peerStoreArrival _ _ _ _ => .event
  | .narrowLinePublication _ _ => .event
  | .debugContextTake _ _ => .event
  | .cxlCacheSnoop _ _ => .event

/-- The instruction of an OP10 value (R53); none where the value is unassigned. -/
def Instr.ofX (op : Nat) (f : XF) : Option Instr :=
  match op with
  | 0x001 => some (.iadd f)
  | 0x002 => some (.isub f)
  | 0x003 => some (.iaddc f)
  | 0x004 => some (.isubb f)
  | 0x005 => some (.ineg f)
  | 0x006 => some (.iabs f)
  | 0x007 => some (.imul f)
  | 0x008 => some (.imulh f)
  | 0x009 => some (.imad f)
  | 0x00A => some (.icsadd f)
  | 0x00B => some (.idiv f)
  | 0x00C => some (.imin f)
  | 0x00D => some (.imax f)
  | 0x00E => some (.iclamp f)
  | 0x00F => some (.isat f)
  | 0x010 => some (.and f)
  | 0x011 => some (.or f)
  | 0x012 => some (.xor f)
  | 0x013 => some (.andn f)
  | 0x014 => some (.not f)
  | 0x015 => some (.shl f)
  | 0x016 => some (.shr f)
  | 0x017 => some (.sar f)
  | 0x018 => some (.rot f)
  | 0x019 => some (.bfx f)
  | 0x01A => some (.bfi f)
  | 0x01B => some (.popc f)
  | 0x01C => some (.clz f)
  | 0x01D => some (.ctz f)
  | 0x01E => some (.brev f)
  | 0x020 => some (.icmp f)
  | 0x021 => some (.sel f)
  | 0x022 => some (.lea f)
  | 0x023 => some (.mov f)
  | 0x024 => some (.movi f)
  | 0x041 => some (.iaddImm f)
  | 0x042 => some (.isubImm f)
  | 0x047 => some (.imulImm f)
  | 0x04C => some (.iminImm f)
  | 0x04D => some (.imaxImm f)
  | 0x050 => some (.andImm f)
  | 0x051 => some (.orImm f)
  | 0x052 => some (.xorImm f)
  | 0x053 => some (.andnImm f)
  | 0x055 => some (.shlImm f)
  | 0x056 => some (.shrImm f)
  | 0x057 => some (.sarImm f)
  | 0x058 => some (.rotImm f)
  | 0x0C0 => some (.bra f)
  | 0x0C1 => some (.brc f)
  | 0x0C2 => some (.join f)
  | 0x0C3 => some (.call f)
  | 0x0C4 => some (.ret f)
  | 0x0C5 => some (.jmpx f)
  | 0x0C6 => some (.rep f)
  | 0x0C7 => some (.exit f)
  | 0x0C8 => some (.nop f)
  | 0x0D0 => some (.shfl f)
  | 0x0D1 => some (.vote f)
  | 0x0D2 => some (.redx f)
  | 0x0D3 => some (.scanx f)
  | 0x0D4 => some (.matchLanes f)
  | 0x0E0 => some (.get f)
  | 0x0E1 => some (.setmode f)
  | 0x0E2 => some (.getmode f)
  | 0x0F0 => some (.xlock f)
  | 0x0F1 => some (.xfree f)
  | 0x100 => some (.fadd f)
  | 0x101 => some (.fsub f)
  | 0x102 => some (.fmul f)
  | 0x103 => some (.ffma f)
  | 0x104 => some (.fmin f)
  | 0x105 => some (.fmax f)
  | 0x106 => some (.fcmp f)
  | 0x107 => some (.fclass f)
  | 0x108 => some (.frcp f)
  | 0x109 => some (.frsq f)
  | 0x10A => some (.fsqrt f)
  | 0x10B => some (.fexp2 f)
  | 0x10C => some (.flog2 f)
  | 0x10D => some (.fsin f)
  | 0x10E => some (.fcos f)
  | 0x120 => some (.fcvt f)
  | 0x121 => some (.cvtif f)
  | 0x122 => some (.cvtfi f)
  | 0x140 => some (.padd2 f)
  | 0x141 => some (.pmul2 f)
  | 0x142 => some (.pfma2 f)
  | 0x180 => some (.idot4 f)
  | 0x181 => some (.unpk3 f)
  | 0x182 => some (.unpkn f)
  | 0x183 => some (.packn f)
  | 0x184 => some (.bfpq f)
  | 0x190 => some (.ssi f)
  | 0x191 => some (.kins f)
  | 0x1A0 => some (.act f)
  | 0x1A1 => some (.actld f)
  | 0x1C0 => some (.sld f)
  | 0x1C1 => if f.m.toNat ≤ 1 then some (.sst f) else some (.sstStream f)
  | 0x1C2 => some (.smov f)
  | 0x1C3 => some (.sbind f)
  | 0x1C4 => some (.sadd f)
  | 0x1C5 => some (.ssub f)
  | 0x1C6 => some (.smax f)
  | 0x1C7 => some (.smin f)
  | 0x1C8 => some (.scvt f)
  | 0x1C9 => some (.sacc f)
  | 0x1CA => some (.sqry f)
  | 0x1E0 => some (.trap f)
  | 0x1E1 => some (.tret f)
  | 0x1E2 => some (.bkpt f)
  | 0x1E3 => some (.sysr f)
  | 0x1E4 => some (.sysw f)
  | 0x1E5 => some (.icinv f)
  | 0x200 => some (.ld f)
  | 0x201 => some (.st f)
  | 0x202 => some (.ldu f)
  | 0x203 => some (.ldbf f)
  | 0x204 => some (.pref f)
  | 0x210 => some (.spmap f)
  | 0x211 => some (.stash f)
  | 0x212 => some (.unstash f)
  | 0x213 => some (.flush f)
  | 0x214 => some (.inval f)
  | 0x260 => some (.atom f)
  | 0x261 => some (.acas f)
  | 0x262 => some (.aincb f)
  | 0x263 => some (.afadd f)
  | 0x270 => some (.fence f)
  | 0x280 => some (.bari f)
  | 0x281 => some (.bara f)
  | 0x282 => some (.barx f)
  | 0x283 => some (.barw f)
  | 0x290 => some (.waita f)
  | 0x2A0 => some (.push f)
  | 0x2A1 => some (.seal f)
  | 0x2A2 => some (.waitb f)
  | 0x2A3 => some (.qstat f)
  | 0x2C0 => some (.gen f)
  | 0x2C1 => some (.yld f)
  | 0x2C2 => some (.take f)
  | 0x2C3 => some (.gend f)
  | 0x2C4 => some (.gnext f)
  | 0x2C5 => some (.gflip f)
  | 0x2C6 => some (.gstat f)
  | 0x2E0 => some (.launch f)
  | 0x2E1 => some (.cutq f)
  | 0x2F0 => some (.tlpop f)
  | 0x2F1 => some (.tldone f)
  | _ => none

/-- The instruction of an OP7 value (R56); none where the value is unassigned. -/
def Instr.ofB (op : Nat) (f : BF) : Option Instr :=
  match op with
  | 0x01 => some (.iaddB32 f)
  | 0x02 => some (.iaddB32Imm f)
  | 0x03 => some (.isubB32 f)
  | 0x04 => some (.isubB32Imm f)
  | 0x05 => some (.imulB32 f)
  | 0x06 => some (.imulB32Imm f)
  | 0x07 => some (.iminB32 f)
  | 0x08 => some (.iminB32Imm f)
  | 0x09 => some (.imaxB32 f)
  | 0x0A => some (.imaxB32Imm f)
  | 0x0B => some (.andB32 f)
  | 0x0C => some (.andB32Imm f)
  | 0x0D => some (.orB32 f)
  | 0x0E => some (.orB32Imm f)
  | 0x0F => some (.xorB32 f)
  | 0x10 => some (.xorB32Imm f)
  | 0x11 => some (.andnB32 f)
  | 0x12 => some (.andnB32Imm f)
  | 0x13 => some (.shlB32 f)
  | 0x14 => some (.shlB32Imm f)
  | 0x15 => some (.shrB32 f)
  | 0x16 => some (.shrB32Imm f)
  | 0x17 => some (.sarB32 f)
  | 0x18 => some (.sarB32Imm f)
  | 0x19 => some (.rotB32 f)
  | 0x1A => some (.rotB32Imm f)
  | 0x1B => some (.inegB32 f)
  | 0x1C => some (.iabsB32 f)
  | 0x1D => some (.notB32 f)
  | 0x1E => some (.popcB32 f)
  | 0x1F => some (.clzB32 f)
  | 0x20 => some (.ctzB32 f)
  | 0x21 => some (.brevB32 f)
  | 0x22 => some (.movB32 f)
  | 0x23 => some (.moviB32 f)
  | 0x24 => some (.imulhB32 f)
  | 0x25 => some (.iaddcB32 f)
  | 0x26 => some (.isubbB32 f)
  | 0x40 => some (.faddB32 f)
  | 0x41 => some (.fsubB32 f)
  | 0x42 => some (.fmulB32 f)
  | 0x43 => some (.fminB32 f)
  | 0x44 => some (.fmaxB32 f)
  | 0x45 => some (.frcpB32 f)
  | 0x46 => some (.frsqB32 f)
  | 0x47 => some (.fsqrtB32 f)
  | 0x48 => some (.fexp2B32 f)
  | 0x49 => some (.flog2B32 f)
  | 0x4A => some (.fsinB32 f)
  | 0x4B => some (.fcosB32 f)
  | 0x4C => some (.padd2B32 f)
  | 0x4D => some (.pmul2B32 f)
  | 0x60 => some (.ldB32 f)
  | 0x61 => some (.stB32 f)
  | 0x62 => some (.lduB32 f)
  | 0x63 => some (.prefB32 f)
  | 0x70 => some (.braB32 f)
  | 0x71 => some (.joinB32 f)
  | 0x72 => some (.callB32 f)
  | 0x73 => some (.retB32 f)
  | 0x74 => some (.jmpxB32 f)
  | 0x75 => some (.nopB32 f)
  | 0x76 => some (.bkptB32 f)
  | 0x77 => some (.trapB32 f)
  | 0x7A => some (.exitB32 f)
  | _ => none

/-- The X96 equivalent of a B32 opcode: its OP10, whether B is a signed immediate, and its default type
(R29, R53, R56). -/
structure BRow where
  op10 : Nat
  imm : Bool
  ty : BitVec 3
deriving DecidableEq, Repr

/-- The rows of R56. -/
def bRow (op : Nat) : Option BRow :=
  match op with
  | 0x01 => some ⟨0x001, false, 2⟩
  | 0x02 => some ⟨0x041, true, 2⟩
  | 0x03 => some ⟨0x002, false, 2⟩
  | 0x04 => some ⟨0x042, true, 2⟩
  | 0x05 => some ⟨0x007, false, 2⟩
  | 0x06 => some ⟨0x047, true, 2⟩
  | 0x07 => some ⟨0x00C, false, 2⟩
  | 0x08 => some ⟨0x04C, true, 2⟩
  | 0x09 => some ⟨0x00D, false, 2⟩
  | 0x0A => some ⟨0x04D, true, 2⟩
  | 0x0B => some ⟨0x010, false, 6⟩
  | 0x0C => some ⟨0x050, true, 6⟩
  | 0x0D => some ⟨0x011, false, 6⟩
  | 0x0E => some ⟨0x051, true, 6⟩
  | 0x0F => some ⟨0x012, false, 6⟩
  | 0x10 => some ⟨0x052, true, 6⟩
  | 0x11 => some ⟨0x013, false, 6⟩
  | 0x12 => some ⟨0x053, true, 6⟩
  | 0x13 => some ⟨0x015, false, 6⟩
  | 0x14 => some ⟨0x055, true, 6⟩
  | 0x15 => some ⟨0x016, false, 6⟩
  | 0x16 => some ⟨0x056, true, 6⟩
  | 0x17 => some ⟨0x017, false, 6⟩
  | 0x18 => some ⟨0x057, true, 6⟩
  | 0x19 => some ⟨0x018, false, 6⟩
  | 0x1A => some ⟨0x058, true, 6⟩
  | 0x1B => some ⟨0x005, false, 2⟩
  | 0x1C => some ⟨0x006, false, 2⟩
  | 0x1D => some ⟨0x014, false, 6⟩
  | 0x1E => some ⟨0x01B, false, 6⟩
  | 0x1F => some ⟨0x01C, false, 6⟩
  | 0x20 => some ⟨0x01D, false, 6⟩
  | 0x21 => some ⟨0x01E, false, 6⟩
  | 0x22 => some ⟨0x023, false, 6⟩
  | 0x23 => some ⟨0x024, true, 2⟩
  | 0x24 => some ⟨0x008, false, 2⟩
  | 0x25 => some ⟨0x003, false, 2⟩
  | 0x26 => some ⟨0x004, false, 2⟩
  | 0x40 => some ⟨0x100, false, 0⟩
  | 0x41 => some ⟨0x101, false, 0⟩
  | 0x42 => some ⟨0x102, false, 0⟩
  | 0x43 => some ⟨0x104, false, 0⟩
  | 0x44 => some ⟨0x105, false, 0⟩
  | 0x45 => some ⟨0x108, false, 0⟩
  | 0x46 => some ⟨0x109, false, 0⟩
  | 0x47 => some ⟨0x10A, false, 0⟩
  | 0x48 => some ⟨0x10B, false, 0⟩
  | 0x49 => some ⟨0x10C, false, 0⟩
  | 0x4A => some ⟨0x10D, false, 0⟩
  | 0x4B => some ⟨0x10E, false, 0⟩
  | 0x4C => some ⟨0x140, false, 1⟩
  | 0x4D => some ⟨0x141, false, 1⟩
  | 0x60 => some ⟨0x200, true, 6⟩
  | 0x61 => some ⟨0x201, true, 6⟩
  | 0x62 => some ⟨0x202, true, 6⟩
  | 0x63 => some ⟨0x204, true, 0⟩
  | 0x70 => some ⟨0x0C0, true, 0⟩
  | 0x71 => some ⟨0x0C2, true, 0⟩
  | 0x72 => some ⟨0x0C3, true, 0⟩
  | 0x73 => some ⟨0x0C4, false, 0⟩
  | 0x74 => some ⟨0x0C5, false, 0⟩
  | 0x75 => some ⟨0x0C8, false, 0⟩
  | 0x76 => some ⟨0x1E2, true, 0⟩
  | 0x77 => some ⟨0x1E0, true, 0⟩
  | 0x7A => some ⟨0x0C7, false, 0⟩
  | _ => none

/-- The X96 fields that a B32 instruction means (R29). -/
def BF.expand (f : BF) (r : BRow) : XF :=
  { lit := f.lit, p := f.p, u := f.u, h := 0, d := f.d, a := f.a,
    b := if r.imm then 0 else f.b, c := 0, e := 0, m := 0, t := r.ty, g := Guard.none,
    imm := if r.imm then f.b.signExtend 18 else 0 }

/-- How an opcode uses a register field: not at all; for a value of n words (2 for an even and odd pair,
R63); for a group of n registers; for a scale register (R31); or for a code below n. -/
inductive Use
  | unused
  | val (n : Nat)
  | group (n : Nat)
  | scale
  | code (n : Nat)
deriving DecidableEq, Repr

/-- Whether a field may hold the number r under its use (R31, R63). -/
def Use.ok : Use → BitVec 7 → Bool
  | .unused, r => r == 0
  | .val n, r => n != 2 || r.toNat % 2 == 0
  | .group n, r => decide (r.toNat + n ≤ 128)
  | .scale, r => decide (r.toNat < 32)
  | .code n, r => decide (r.toNat < n)

/-- The vector registers that a field names under its use, lowest first number and count (R31, R32). -/
def Use.regs : Use → BitVec 7 → Option (Nat × Nat)
  | .val n, r => some (r.toNat, n)
  | .group n, r => some (r.toNat, n)
  | _, _ => none

/-- The field rules of one opcode at given M and T fields: literal accepted and the width of operand B
(R30), U allowed (R35), hint allowed (R55), guards allowed, accepted T and M values (R38, R39), IMM18 used
(R40), the use of each register field, and what else the description asks. -/
structure Rule where
  lit : Option Nat := none
  uni : Bool := false
  hint : Bool := false
  guards : Bool := true
  tys : List Nat := [0]
  ms : List Nat := [0]
  imm : Bool := false
  d : Use := .unused
  a : Use := .unused
  b : Use := .unused
  c : Use := .unused
  e : Use := .unused
  more : Bool := true
deriving DecidableEq, Repr

/-- Words of an operand of integer type T (R62): 2 for .i64 and .n64, otherwise 1. -/
def tyWords (t : BitVec 3) : Nat := if t = 3 ∨ t = 7 then 2 else 1

/-- The types of the integer instructions (R145). -/
def intTys : List Nat := [2, 3, 6, 7]

/-- Width of a float literal of type T (R30, R64). -/
def floatBits (t : BitVec 3) : Nat := if t = 0 then 32 else 16

/-- Mantissa width m of block type T, 2 to 8 (R39, R67). -/
def blockM (t : BitVec 3) : Nat := t.toNat + 2

/-- The field rules of every assigned OP10 but the immediate twins (R53 and the descriptions R61 names). -/
def baseRule (op : Nat) (f : XF) : Option Rule :=
  let w := tyWords f.t
  let m := f.m.toNat
  let i := f.imm.toNat
  match op with
  | 0x001 | 0x002 | 0x007 | 0x008 | 0x00C | 0x00D | 0x010 | 0x011 | 0x012 | 0x013 =>
    some { lit := some (32 * w), uni := true, tys := intTys, d := .val w, a := .val w, b := .val w }
  | 0x003 | 0x004 =>
    some { lit := some (32 * w), uni := true, tys := intTys, d := .val w, a := .val w, b := .val w, c := .val 1, e := .val 1 }
  | 0x005 | 0x014 | 0x01E =>
    some { uni := true, tys := intTys, d := .val w, a := .val w }
  | 0x006 =>
    some { uni := true, tys := [2, 3], d := .val w, a := .val w }
  | 0x009 | 0x00E =>
    some { lit := some (32 * w), uni := true, tys := intTys, d := .val w, a := .val w, b := .val w, c := .val w }
  | 0x00A | 0x021 =>
    some { lit := some (32 * w), uni := true, tys := intTys, d := .val w, a := .val w, b := .val w, c := .val 1 }
  | 0x00B =>
    some { lit := some (32 * w), uni := true, tys := intTys, d := .val w, a := .val w, b := .val w, e := .val w, more := f.d != f.e }
  | 0x00F =>
    some { uni := true, tys := [0, 1, 2, 4, 5, 6], ms := [0, 1], d := .val 1, a := .val 1 }
  | 0x015 | 0x016 | 0x017 | 0x018 =>
    some { lit := some 32, uni := true, tys := intTys, d := .val w, a := .val w, b := .val 1 }
  | 0x019 =>
    some { uni := true, tys := intTys, imm := true, d := .val w, a := .val w, more := decide (i < 8192 ∧ i % 64 + i / 64 ≤ 32 * w) }
  | 0x01A =>
    some { uni := true, tys := intTys, imm := true, d := .val w, a := .val w, b := .val w, more := decide (i < 8192 ∧ i % 64 + i / 64 ≤ 32 * w) }
  | 0x01B | 0x01C | 0x01D =>
    some { uni := true, tys := intTys, d := .val 1, a := .val w }
  | 0x020 =>
    some { lit := some (32 * w), uni := true, tys := intTys, ms := [0, 1, 2, 3, 4, 5], d := .val 1, a := .val w, b := .val w }
  | 0x022 =>
    some { uni := true, tys := [6, 7], ms := [0, 1, 2, 3, 4, 5, 6, 7], imm := true, d := .val w, a := .val w, b := .val 1 }
  | 0x023 =>
    some { lit := some (32 * w), uni := true, tys := intTys, d := .val w, b := .val w }
  | 0x024 =>
    some { uni := true, tys := intTys, imm := true, d := .val w }
  | 0x0C0 | 0x0C3 =>
    some { guards := false, imm := true }
  | 0x0C1 =>
    some { guards := false, ms := [0, 1], imm := true, a := .val 1, c := .code 16 }
  | 0x0C2 =>
    some { guards := false, imm := true, more := decide (i < 16) }
  | 0x0C4 | 0x0C7 | 0x0C8 | 0x1E1 | 0x2C4 | 0x2C5 =>
    some { guards := false }
  | 0x0C5 =>
    some { guards := false, a := .val 2 }
  | 0x0C6 =>
    some { guards := false, ms := [0, 1], imm := true, a := if m = 1 then .val 1 else .unused, more := decide (i / 16 % 2 = 0 ∧ (m = 1 → i < 32)) }
  | 0x0D0 =>
    some { tys := [6, 7], ms := [0, 1, 2, 3], imm := true, d := .val w, a := .val w, b := if m = 0 then .val 1 else .unused, more := decide (i < 32 ∧ (m = 0 → i = 0)) }
  | 0x0D1 =>
    some { ms := [0, 1, 2, 3], d := .val 1, a := .val 1 }
  | 0x0D2 | 0x0D3 =>
    some { tys := if m < 4 then intTys else [0], ms := [0, 1, 2, 3, 4, 5, 6], d := .val w, a := .val w }
  | 0x0D4 =>
    some { tys := intTys, d := .val 1, a := .val w }
  | 0x0E0 =>
    some { uni := true, imm := true, d := if i = 22 then .val 2 else .val 1, more := decide (i ≤ 25) }
  | 0x0E1 =>
    some { ms := [0, 1], imm := true, a := if m = 1 then .val 1 else .unused, more := decide (if m = 1 then i = 0 else i < 64 ∧ i / 8 % 2 = 0 ∧ i % 8 ≤ 4) }
  | 0x0E2 | 0x2C6 =>
    some { uni := true, d := .val 1 }
  | 0x0F0 | 0x0F1 | 0x1E5 | 0x2C3 =>
    some {  }
  | 0x100 | 0x101 | 0x102 =>
    some { lit := some (floatBits f.t), uni := true, tys := [0, 1, 2], ms := [0, 1, 2, 3, 4, 5], d := .val 1, a := .val 1, b := .val 1 }
  | 0x103 =>
    some { lit := some (floatBits f.t), uni := true, tys := [0, 1, 2], ms := [0, 1, 2, 3, 4, 5], d := .val 1, a := .val 1, b := .val 1, c := .val 1 }
  | 0x104 | 0x105 =>
    some { lit := some (floatBits f.t), uni := true, tys := [0, 1, 2], d := .val 1, a := .val 1, b := .val 1 }
  | 0x106 =>
    some { lit := some (floatBits f.t), uni := true, tys := [0, 1, 2], ms := [0, 1, 2, 3, 4, 5, 6], d := .val 1, a := .val 1, b := .val 1 }
  | 0x107 =>
    some { uni := true, tys := [0, 1, 2, 3, 4, 5], d := .val 1, a := .val 1 }
  | 0x108 | 0x109 | 0x10B | 0x10C | 0x10D | 0x10E =>
    some { uni := true, d := .val 1, a := .val 1 }
  | 0x10A =>
    some { uni := true, tys := [0, 1, 2], ms := [0, 1, 2, 3, 4, 5], d := .val 1, a := .val 1 }
  | 0x120 =>
    some { uni := true, tys := [0, 1, 2, 3, 4, 5], ms := [0, 1, 2, 3, 4, 5], d := .val 1, a := .val 1, c := .code 6 }
  | 0x121 =>
    some { uni := true, tys := [0, 1, 2, 3, 4, 5, 6, 7], ms := [0, 1, 2, 3, 4, 5], d := .val 1, a := .val w, c := .code 6 }
  | 0x122 =>
    some { uni := true, tys := [0, 1, 2, 3, 4, 5], ms := [0, 1, 2, 3, 4, 5], d := .val (if f.c = 3 ∨ f.c = 7 then 2 else 1), a := .val 1, c := .code 8 }
  | 0x140 | 0x141 =>
    some { lit := some 32, uni := true, tys := [1, 2], ms := [0, 1, 2, 3, 4, 5], d := .val 1, a := .val 1, b := .val 1 }
  | 0x142 =>
    some { lit := some 32, uni := true, tys := [1, 2], ms := [0, 1, 2, 3, 4, 5], d := .val 1, a := .val 1, b := .val 1, c := .val 1 }
  | 0x180 =>
    some { lit := some 32, uni := true, tys := [0, 4], ms := [0, 1], d := .val 1, a := .val 1, b := .val 1, c := .val 1 }
  | 0x181 =>
    some { uni := true, ms := [0, 1, 2, 3], d := .group 5, a := .val 1 }
  | 0x182 =>
    some { uni := true, tys := [0, 1, 2, 3, 4, 5, 6], ms := [0, 1], d := .val 1, a := .group (blockM f.t), b := .val 1 }
  | 0x183 =>
    some { uni := true, tys := [0, 1, 2, 3, 4, 5, 6], d := .group (blockM f.t), a := .val 1, b := .val 1 }
  | 0x184 =>
    some { tys := [0, 1, 2, 3, 4, 5, 6], d := .val 1, a := .val 1, c := .scale }
  | 0x190 =>
    some { uni := true, tys := [2, 6], d := .val 1, a := .group 4, b := .group 4 }
  | 0x191 =>
    some { uni := true, tys := [2, 6], imm := true, d := .group (i % 8 + 1), a := .val 1, b := .val 1, c := .group (i % 8 + 1), more := decide (i < 16 ∧ (f.d.toNat + i % 8 < f.c.toNat ∨ f.c.toNat + i % 8 < f.d.toNat)) }
  | 0x1A0 =>
    some { uni := true, tys := [0, 1, 2], imm := true, d := .val 1, a := .val 1, more := decide (i ≤ 1) }
  | 0x1A1 =>
    some { imm := true, a := .val 2, more := decide (i ≤ 1) }
  | 0x1C0 =>
    some { ms := [0, 1], imm := true, d := .scale, a := .val 2 }
  | 0x1C1 =>
    some { ms := [0, 1, 2, 3], imm := true, d := .scale, a := if m ≤ 1 then .val 2 else .unused, more := decide (m ≤ 1 ∨ i = 0) }
  | 0x1C2 =>
    some { ms := [0, 1, 2], d := if m = 2 then .val 1 else .scale, a := if m = 1 then .val 1 else .scale }
  | 0x1C3 =>
    some { ms := [0, 1, 2, 3, 4], imm := true, d := .scale, a := if m = 0 then .group (i % 8 + 1) else if m = 4 then .unused else .val 1, more := decide (if m = 0 then i < 8 else if m = 1 then i % 16 = 0 ∧ 16 ≤ i ∧ i ≤ 8192 else i = 0) }
  | 0x1C4 | 0x1C5 | 0x1C6 | 0x1C7 =>
    some { d := .scale, a := .scale, b := .scale }
  | 0x1C8 =>
    some { ms := [0, 1], d := if m = 0 then .val 1 else .scale, a := if m = 0 then .scale else .val 1 }
  | 0x1C9 =>
    some { tys := [2], ms := [0, 1, 2, 3, 4, 5, 6, 7], d := .val 1, a := .val 1, b := .scale, c := .scale }
  | 0x1CA =>
    some { d := .val 1, a := .scale }
  | 0x1E0 | 0x1E2 =>
    some { imm := true, more := decide (i < 4096) }
  | 0x1E3 =>
    some { uni := true, imm := true, d := if i = 0 ∨ i = 3 ∨ i = 4 then .val 2 else .val 1, more := decide (i ≤ 15 ∧ i ≠ 8) }
  | 0x1E4 =>
    some { imm := true, a := if i = 4 then .val 2 else .val 1, more := [4, 8, 10, 11, 12, 13].contains i }
  | 0x200 | 0x201 | 0x202 =>
    some { uni := true, hint := true, tys := [0, 1, 2, 3, 4, 5, 6, 7], imm := true, d := .val w, a := .val 2 }
  | 0x203 =>
    some { hint := true, tys := [0, 1, 2, 3, 4, 5, 6], ms := [0, 1], imm := true, d := .group (blockM f.t), a := .val 2, b := if m = 1 then .val 2 else .unused, c := .scale }
  | 0x204 =>
    some { uni := true, hint := true, imm := true, a := .val 2 }
  | 0x210 | 0x211 =>
    some { uni := true, imm := true, a := .val 2, b := .val 2 }
  | 0x212 | 0x213 | 0x214 =>
    some { uni := true, imm := true, a := .val 2 }
  | 0x260 =>
    some { uni := true, hint := true, tys := intTys, ms := [0, 1, 2, 3, 4, 5, 6], imm := true, d := .val w, a := .val 2, b := .val w }
  | 0x261 =>
    some { uni := true, hint := true, tys := intTys, imm := true, d := .val w, a := .val 2, b := .val w, c := .val w }
  | 0x262 =>
    some { uni := true, hint := true, tys := intTys, imm := true, d := .val w, a := .val 2, b := .val w }
  | 0x263 =>
    some { uni := true, hint := true, imm := true, d := .val 1, a := .val 2, b := .val 1 }
  | 0x270 =>
    some { ms := [1, 2, 3], c := .code 6 }
  | 0x280 | 0x282 =>
    some { uni := true, imm := true, a := .val 1, b := .val 1 }
  | 0x281 =>
    some { imm := true, a := .val 1 }
  | 0x283 =>
    some { imm := true, d := .val 1, a := .val 1, b := .val 1 }
  | 0x290 =>
    some { uni := true, hint := true, tys := intTys, ms := [0, 1, 2, 3], imm := true, d := .val w, a := .val 2, b := .val w }
  | 0x2A0 =>
    some { uni := true, imm := true, d := .val 1, a := .group 16, more := decide (i ≤ 3) }
  | 0x2A1 =>
    some { d := .val 1 }
  | 0x2A2 =>
    some { a := .val 1 }
  | 0x2A3 =>
    some { uni := true, imm := true, d := .val 1, more := decide (i ≤ 4) }
  | 0x2C0 =>
    some { guards := false, ms := [0, 1, 2], imm := true, c := .code 128, e := .code 128, more := f.c != 0 || f.e != 0 }
  | 0x2C1 =>
    some { imm := true, a := .group i, more := decide (1 ≤ i ∧ i ≤ 4) }
  | 0x2C2 =>
    some { imm := true, d := .group i, more := decide (1 ≤ i ∧ i ≤ 4) }
  | 0x2E0 =>
    some { uni := true, d := .val 1, a := .group 8 }
  | 0x2E1 =>
    some { uni := true, imm := true, d := .val 1, more := decide (i ≤ 5) }
  | 0x2F0 =>
    some { uni := true, d := .group 8, a := .val 1 }
  | 0x2F1 =>
    some { uni := true, d := .val 1, a := .val 1, b := .val 1 }
  | _ => none

/-- The base opcodes of the immediate twins (R54). -/
def twinBases : List Nat :=
  [0x001, 0x002, 0x007, 0x00C, 0x00D, 0x010, 0x011, 0x012, 0x013, 0x015, 0x016, 0x017, 0x018]

/-- Whether an OP10 is an immediate twin (R54). -/
def isTwin (op : Nat) : Bool := decide (0x040 ≤ op) && twinBases.contains (op - 0x040)

/-- The field rules of an OP10 value; none where it is unassigned (R53, R54). -/
def xRule (op : Nat) (f : XF) : Option Rule :=
  if isTwin op then
    (baseRule (op - 0x040) f).map fun r => { r with lit := none, imm := true, b := .unused }
  else baseRule op f

/-- The guard forms of R34. -/
def Guard.ok (g : Guard) : Bool :=
  if g.ge0 then g.ge1 || (!g.gn1 && g.g1 == 0 && !g.gop)
  else g == Guard.none

/-- Whether a literal is a pure extension of its low n bits (R30). -/
def literalOk (n : Nat) (v : Dword) : Bool :=
  decide (64 ≤ n) || v == (v.setWidth n).setWidth 64 || v == (v.setWidth n).signExtend 64

/-- The rule of R30: a literal only where the opcode takes one, with B zero, a pure extension. -/
def XF.litOk (f : XF) (r : Rule) : Bool :=
  match f.lit with
  | none => true
  | some v =>
    match r.lit with
    | none => false
    | some n => f.b == 0 && literalOk n v

/-- Every field and literal rule of an X96 instruction under its opcode's rule (R41 step 3). -/
def XF.ok (f : XF) (r : Rule) : Bool :=
  f.litOk r && (r.uni || !f.u) &&
  (if r.hint then f.h.toNat % 4 == 0 else f.h == 0) &&
  (if r.guards then f.g.ok else f.g == Guard.none) &&
  r.tys.contains f.t.toNat && r.ms.contains f.m.toNat &&
  (r.imm || f.imm == 0) &&
  r.d.ok f.d && r.a.ok f.a && r.b.ok f.b && r.c.ok f.c && r.e.ok f.e && r.more

/-- Well-formedness of X96 fields under an OP10. -/
def xOk (op : Nat) (f : XF) : Bool :=
  match xRule op f with
  | none => false
  | some r => f.ok r

/-- Well-formedness of B32 fields under an OP7 (R29, R56, R57): those of the X96 instruction they mean; where B
is an immediate it takes no literal. -/
def bOk (op : Nat) (f : BF) : Bool :=
  match bRow op with
  | none => false
  | some r => xOk r.op10 (f.expand r)

/-- The vector registers an X96 instruction names in its used fields and enabled guards (R32): first
numbers and counts. -/
def namedRegs (op : Nat) (f : XF) : List (Nat × Nat) :=
  match xRule op f with
  | none => []
  | some r =>
    (if f.g.ge0 then [(f.g.g0.toNat, 1)] else []) ++ (if f.g.ge1 then [(f.g.g1.toNat, 1)] else []) ++
    ([r.d.regs f.d, r.a.regs f.a, (if f.lit.isSome then none else r.b.regs f.b), r.c.regs f.c,
      r.e.regs f.e].filterMap id)

/-- The lowest register from v64 up that the instruction names (R32, R213); none where it names none. -/
def lowestExt (op : Nat) (f : XF) : Option Nat :=
  ((namedRegs op f).filterMap fun rc =>
    if rc.1 + rc.2 ≤ 64 then none else some (max rc.1 64)).min?

/-- Whether an instruction is well formed: a wave instruction by R41 step 3 (SST and its stream form are told
apart by M, R199), an instruction of the Alcove extension by its fixed fields (R336 to R340); an event always. -/
def Instr.wellFormed : Instr → Bool
  | .sst f => xOk 0x1C1 f && decide (f.m.toNat ≤ 1)
  | .sstStream f => xOk 0x1C1 f && decide (2 ≤ f.m.toNat)
  | .alFetch _ _ rd _ _ => rd == 0
  | .alDrop _ _ rd _ _ => rd == 0
  | .alArg _ _ _ rs1 imm => rs1 == 0 && decide (imm.toNat < 16)
  | .alEnd _ _ rd rs1 imm => rd == 0 && rs1 == 0 && decide (imm.toNat < 3)
  | i =>
    match i.form with
    | .x op f => xOk op f
    | .b op f => bOk op f
    | .event => true

end Sys2Proof
end

