-- ==== Sys2Proof/Decode.lean ====
section
/-! DEFINITION. Decoding and encoding of instruction words: the four forms of R25 to R30, the Alcove extension
of R59 and R337, and the base RISC-V instructions of a handler (R328, the RISC-V standard, log entry 6). -/

namespace Sys2Proof

/-- What the decoder reads from an instruction's words (R41 steps 2 and 3): an instruction, an unassigned
opcode, a broken field or literal rule, or too few words. -/
inductive Decoded
  | ok (i : Instr)
  | illegalOpcode
  | illegalEncoding
  | short
deriving DecidableEq, Repr

/-- Bits [lo+n-1:lo] of a word. -/
def bits {w : Nat} (v : BitVec w) (lo n : Nat) : BitVec n := v.extractLsb' lo n

/-- One bit of a word. -/
def bitAt {w : Nat} (v : BitVec w) (i : Nat) : Bool := v.getLsbD i

/-- The number of words an instruction has, from the L field of its first word (R25). -/
def instrWords (w : Word) : Nat :=
  if bits w 0 2 = 0 then 1 else if bits w 0 2 = 2 then 5 else 3

/-- The bytes from an instruction to the next one in sequence (R26). -/
def instrBytes (w : Word) : Nat := 4 * instrWords w

/-- The literal of two words, low word first (R30). -/
def litOf (lo hi : Word) : Dword := hi ++ lo

/-- The fields of a B32 word (R27). -/
def unpackB (w : Word) (lit : Option Dword) : BF :=
  { lit := lit, p := bitAt w 2, u := bitAt w 3, d := bits w 11 7, a := bits w 18 7, b := bits w 25 7 }

/-- The OP7 of a B32 word (R27). -/
def op7Of (w : Word) : Nat := (bits w 4 7).toNat

/-- The guard fields of words 1 and 2 of an X96 instruction (R28). -/
def unpackGuard (w1 w2 : Word) : Guard :=
  { ge0 := bitAt w1 27, gn0 := bitAt w1 28, ge1 := bitAt w1 29, gn1 := bitAt w1 30, gop := bitAt w1 31,
    g0 := bits w2 0 7, g1 := bits w2 7 7 }

/-- The fields of the three X96 words (R28). -/
def unpackX (w0 w1 w2 : Word) (lit : Option Dword) : XF :=
  { lit := lit, p := bitAt w0 2, u := bitAt w0 3, h := bits w0 28 4, d := bits w0 14 7, a := bits w0 21 7,
    b := bits w1 0 7, c := bits w1 7 7, e := bits w1 14 7, m := bits w1 21 3, t := bits w1 24 3,
    g := unpackGuard w1 w2, imm := bits w2 14 18 }

/-- The OP10 of an X96 word 0 (R28). -/
def op10Of (w : Word) : Nat := (bits w 4 10).toNat

/-- Steps 2 and 3 of R41 for an X96 or X160 instruction. -/
def decodeX (w0 w1 w2 : Word) (lit : Option Dword) : Decoded :=
  let f := unpackX w0 w1 w2 lit
  match Instr.ofX (op10Of w0) f with
  | none => .illegalOpcode
  | some i => if xOk (op10Of w0) f then .ok i else .illegalEncoding

/-- Steps 2 and 3 of R41 for a B32 or B96 instruction. -/
def decodeB (w : Word) (lit : Option Dword) : Decoded :=
  let f := unpackB w lit
  match Instr.ofB (op7Of w) f with
  | none => .illegalOpcode
  | some i => if bOk (op7Of w) f then .ok i else .illegalEncoding

/-- Decoding of an instruction's words, the first one at the lowest address (R25). Words past the instruction
are not read. -/
def decode (ws : List Word) : Decoded :=
  match ws with
  | [] => .short
  | w0 :: rest =>
    if bits w0 0 2 = 0 then decodeB w0 none
    else if bits w0 0 2 = 1 then
      match rest with
      | w1 :: w2 :: _ => decodeX w0 w1 w2 none
      | _ => .short
    else if bits w0 0 2 = 2 then
      match rest with
      | w1 :: w2 :: lo :: hi :: _ => decodeX w0 w1 w2 (some (litOf lo hi))
      | _ => .short
    else
      match rest with
      | lo :: hi :: _ => decodeB w0 (some (litOf lo hi))
      | _ => .short

/-- The 32-bit word of four little-endian bytes (R25). -/
def wordOfBytes (b0 b1 b2 b3 : Byte) : Word := b3 ++ b2 ++ b1 ++ b0

/-- The little-endian words of a list of bytes; bytes past the last whole word are dropped. -/
def wordsOfBytes : List Byte → List Word
  | b0 :: b1 :: b2 :: b3 :: rest => wordOfBytes b0 b1 b2 b3 :: wordsOfBytes rest
  | _ => []

/-- The four little-endian bytes of a word. -/
def bytesOfWord (w : Word) : List Byte := [bits w 0 8, bits w 8 8, bits w 16 8, bits w 24 8]

/-- The bytes of a list of words, in memory order. -/
def bytesOfWords (ws : List Word) : List Byte := ws.flatMap bytesOfWord

/-- Decoding of the bytes that stand at an instruction's address. -/
def decodeBytes (bs : List Byte) : Decoded := decode (wordsOfBytes bs)

/-! ### Encoding -/

/-- The words of a literal, low word first (R30). -/
def litWords : Option Dword → List Word
  | none => []
  | some v => [bits v 0 32, bits v 32 32]

/-- The words of a B32 or B96 instruction (R27, R30). -/
def encodeB (op : Nat) (f : BF) : List Word :=
  (f.b ++ f.a ++ f.d ++ BitVec.ofNat 7 op ++ BitVec.ofBool f.u ++ BitVec.ofBool f.p ++
    (if f.lit.isSome then 3#2 else 0#2) : BitVec (7 + 7 + 7 + 7 + 1 + 1 + 2)) :: litWords f.lit

/-- Word 0 of an X96 instruction (R28). -/
def packX0 (op : Nat) (f : XF) : Word :=
  (f.h ++ f.a ++ f.d ++ BitVec.ofNat 10 op ++ BitVec.ofBool f.u ++ BitVec.ofBool f.p ++
    (if f.lit.isSome then 2#2 else 1#2) : BitVec (4 + 7 + 7 + 10 + 1 + 1 + 2))

/-- Word 1 of an X96 instruction (R28). -/
def packX1 (f : XF) : Word :=
  (BitVec.ofBool f.g.gop ++ BitVec.ofBool f.g.gn1 ++ BitVec.ofBool f.g.ge1 ++ BitVec.ofBool f.g.gn0 ++
    BitVec.ofBool f.g.ge0 ++ f.t ++ f.m ++ f.e ++ f.c ++ f.b : BitVec (1 + 1 + 1 + 1 + 1 + 3 + 3 + 7 + 7 + 7))

/-- Word 2 of an X96 instruction (R28). -/
def packX2 (f : XF) : Word := (f.imm ++ f.g.g1 ++ f.g.g0 : BitVec (18 + 7 + 7))

/-- The words of an X96 or X160 instruction (R28, R30). -/
def encodeX (op : Nat) (f : XF) : List Word := packX0 op f :: packX1 f :: packX2 f :: litWords f.lit

/-- A word of the I-type layout of R337. -/
def packI (imm : BitVec 12) (rs1 : BitVec 5) (f3 : BitVec 3) (rd : BitVec 5) (opc : BitVec 7) : Word :=
  (imm ++ rs1 ++ f3 ++ rd ++ opc : BitVec (12 + 5 + 3 + 5 + 7))

/-- A word of the S-type layout of R337. -/
def packS (imm : BitVec 12) (rs2 rs1 : BitVec 5) (f3 : BitVec 3) (opc : BitVec 7) : Word :=
  (bits imm 5 7 ++ rs2 ++ rs1 ++ f3 ++ bits imm 0 5 ++ opc : BitVec (7 + 5 + 5 + 3 + 5 + 7))

/-- The words of an instruction: those of its form (R25), of the Alcove extension (R337), and none for an
event. -/
def encode : Instr → List Word
  | .alLdw _ _ rd rs1 imm => [packI imm rs1 0 rd 0x0B]
  | .alFetch _ _ rd rs1 imm => [packI imm rs1 1 rd 0x0B]
  | .alDrop _ _ rd rs1 imm => [packI imm rs1 2 rd 0x0B]
  | .alArg _ _ rd rs1 imm => [packI imm rs1 3 rd 0x0B]
  | .alEnd _ _ rd rs1 imm => [packI imm rs1 4 rd 0x0B]
  | .alStw _ _ rs2 rs1 imm => [packS imm rs2 rs1 0 0x2B]
  | .alSend _ _ rs2 rs1 imm => [packS imm rs2 rs1 1 0x2B]
  | i =>
    match i.form with
    | .x op f => encodeX op f
    | .b op f => encodeB op f
    | .event => []

/-! ### The Alcove extension and RISC-V -/

/-- What a handler's word decodes to (R328, R337): an instruction of the Alcove extension in a context of a
cluster, a base RISC-V instruction, or an illegal instruction. -/
inductive HandlerDecoded
  | ext (i : Instr)
  | base (len : Nat) (i : Rv)
  | illegal
deriving DecidableEq, Repr

/-- The Alcove extension (R59, R337); none where the word raises an illegal-instruction exception. -/
def decodeExt (cl ctx : Nat) (w : Word) : Option Instr :=
  let rd := bits w 7 5
  let rs1 := bits w 15 5
  let f3 := (bits w 12 3).toNat
  let i := bits w 20 12
  let s : BitVec 12 := (bits w 25 7 ++ bits w 7 5 : BitVec (7 + 5))
  let r : Option Instr :=
    if bits w 0 7 = 0x0B then
      match f3 with
      | 0 => some (.alLdw cl ctx rd rs1 i)
      | 1 => some (.alFetch cl ctx rd rs1 i)
      | 2 => some (.alDrop cl ctx rd rs1 i)
      | 3 => some (.alArg cl ctx rd rs1 i)
      | 4 => some (.alEnd cl ctx rd rs1 i)
      | _ => none
    else if bits w 0 7 = 0x2B then
      match f3 with
      | 0 => some (.alStw cl ctx (bits w 20 5) rs1 s)
      | 1 => some (.alSend cl ctx (bits w 20 5) rs1 s)
      | _ => none
    else none
  r.filter fun j => j.wellFormed

/-- The register-register operations of major opcode OP: by funct7 and funct3 (RISC-V standard). -/
def rvOp (f7 f3 : Nat) : Option RvAlu :=
  match f7, f3 with
  | 0x00, 0 => some .add | 0x00, 1 => some .sll | 0x00, 2 => some .slt | 0x00, 3 => some .sltu
  | 0x00, 4 => some .xor | 0x00, 5 => some .srl | 0x00, 6 => some .or | 0x00, 7 => some .and
  | 0x20, 0 => some .sub | 0x20, 5 => some .sra | 0x20, 7 => some .andn | 0x20, 6 => some .orn
  | 0x20, 4 => some .xnor
  | 0x01, 0 => some .mul | 0x01, 1 => some .mulh | 0x01, 2 => some .mulhsu | 0x01, 3 => some .mulhu
  | 0x01, 4 => some .div | 0x01, 5 => some .divu | 0x01, 6 => some .rem | 0x01, 7 => some .remu
  | 0x10, 2 => some .sh1add | 0x10, 4 => some .sh2add | 0x10, 6 => some .sh3add
  | 0x05, 4 => some .min | 0x05, 5 => some .minu | 0x05, 6 => some .max | 0x05, 7 => some .maxu
  | 0x30, 1 => some .rol | 0x30, 5 => some .ror
  | _, _ => none

/-- The register-register operations of major opcode OP-32. -/
def rvOp32 (f7 f3 : Nat) : Option RvAlu :=
  match f7, f3 with
  | 0x00, 0 => some .addw | 0x00, 1 => some .sllw | 0x00, 5 => some .srlw
  | 0x20, 0 => some .subw | 0x20, 5 => some .sraw
  | 0x01, 0 => some .mulw | 0x01, 4 => some .divw | 0x01, 5 => some .divuw | 0x01, 6 => some .remw
  | 0x01, 7 => some .remuw
  | 0x04, 0 => some .adduw
  | 0x10, 2 => some .sh1adduw | 0x10, 4 => some .sh2adduw | 0x10, 6 => some .sh3adduw
  | 0x30, 1 => some .rolw | 0x30, 5 => some .rorw
  | _, _ => none

/-- The instructions of major opcode OP-IMM, from funct3 and the 12-bit immediate. -/
def rvOpImm (f3 : Nat) (rd rs1 : BitVec 5) (imm : BitVec 12) : Option Rv :=
  let hi := (bits imm 6 6).toNat
  match f3 with
  | 0 => some (.opImm .add rd rs1 imm)
  | 1 =>
    if hi = 0 then some (.opImm .sll rd rs1 imm)
    else
      match imm.toNat with
      | 0x600 => some (.un .clz rd rs1)
      | 0x601 => some (.un .ctz rd rs1)
      | 0x602 => some (.un .cpop rd rs1)
      | 0x604 => some (.un .sextb rd rs1)
      | 0x605 => some (.un .sexth rd rs1)
      | _ => none
  | 2 => some (.opImm .slt rd rs1 imm)
  | 3 => some (.opImm .sltu rd rs1 imm)
  | 4 => some (.opImm .xor rd rs1 imm)
  | 5 =>
    if hi = 0 then some (.opImm .srl rd rs1 imm)
    else if hi = 0x10 then some (.opImm .sra rd rs1 (imm &&& 63))
    else if hi = 0x18 then some (.opImm .ror rd rs1 (imm &&& 63))
    else if imm = 0x287 then some (.un .orcb rd rs1)
    else if imm = 0x6B8 then some (.un .rev8 rd rs1)
    else none
  | 6 => some (.opImm .or rd rs1 imm)
  | 7 => some (.opImm .and rd rs1 imm)
  | _ => none

/-- The instructions of major opcode OP-IMM-32. -/
def rvOpImm32 (f3 : Nat) (rd rs1 : BitVec 5) (imm : BitVec 12) : Option Rv :=
  let hi := (bits imm 5 7).toNat
  match f3 with
  | 0 => some (.opImm .addw rd rs1 imm)
  | 1 =>
    if hi = 0 then some (.opImm .sllw rd rs1 imm)
    else if hi / 2 = 2 then some (.opImm .slliuw rd rs1 (imm &&& 63))
    else
      match imm.toNat with
      | 0x600 => some (.un .clzw rd rs1)
      | 0x601 => some (.un .ctzw rd rs1)
      | 0x602 => some (.un .cpopw rd rs1)
      | _ => none
  | 5 =>
    if hi = 0 then some (.opImm .srlw rd rs1 imm)
    else if hi = 0x20 then some (.opImm .sraw rd rs1 (imm &&& 31))
    else if hi = 0x30 then some (.opImm .rorw rd rs1 (imm &&& 31))
    else none
  | _ => none

/-- The atomic operations of RV64A by funct5. -/
def rvAmo (f5 : Nat) : Option RvAmo :=
  match f5 with
  | 0x01 => some .swap | 0x00 => some .add | 0x04 => some .xor | 0x0C => some .and | 0x08 => some .or
  | 0x10 => some .min | 0x14 => some .max | 0x18 => some .minu | 0x1C => some .maxu
  | _ => none

/-- The conditions of the branches by funct3. -/
def rvCond (f3 : Nat) : Option RvCond :=
  match f3 with
  | 0 => some .eq | 1 => some .ne | 4 => some .lt | 5 => some .ge | 6 => some .ltu | 7 => some .geu
  | _ => none

/-- The sizes of the loads by funct3. -/
def rvLoad (f3 : Nat) : Option RvSize :=
  match f3 with
  | 0 => some .b | 1 => some .h | 2 => some .w | 3 => some .d | 4 => some .bu | 5 => some .hu | 6 => some .wu
  | _ => none

/-- The sizes of the stores by funct3. -/
def rvStore (f3 : Nat) : Option RvSize :=
  match f3 with
  | 0 => some .b | 1 => some .h | 2 => some .w | 3 => some .d
  | _ => none

/-- A 32-bit RISC-V instruction of RV64IMA, Zicsr, Zba and Zbb. -/
def decodeRv32 (w : Word) : Option Rv :=
  let rd := bits w 7 5
  let rs1 := bits w 15 5
  let rs2 := bits w 20 5
  let f3 := (bits w 12 3).toNat
  let f7 := (bits w 25 7).toNat
  let i := bits w 20 12
  match (bits w 0 7).toNat with
  | 0x37 => some (.lui rd (bits w 12 20))
  | 0x17 => some (.auipc rd (bits w 12 20))
  | 0x6F => some (.jal rd (bits w 31 1 ++ bits w 12 8 ++ bits w 20 1 ++ bits w 21 10 ++ 0#1 :
      BitVec (1 + 8 + 1 + 10 + 1)))
  | 0x67 => if f3 = 0 then some (.jalr rd rs1 i) else none
  | 0x63 => (rvCond f3).map fun c => .branch c rs1 rs2
      (bits w 31 1 ++ bits w 7 1 ++ bits w 25 6 ++ bits w 8 4 ++ 0#1 : BitVec (1 + 1 + 6 + 4 + 1))
  | 0x03 => (rvLoad f3).map fun z => .load z rd rs1 i
  | 0x23 => (rvStore f3).map fun z => .store z rs2 rs1 (bits w 25 7 ++ bits w 7 5 : BitVec (7 + 5))
  | 0x13 => rvOpImm f3 rd rs1 i
  | 0x1B => rvOpImm32 f3 rd rs1 i
  | 0x33 => (rvOp f7 f3).map fun o => .op o rd rs1 rs2
  | 0x3B =>
    if f7 = 4 ∧ f3 = 4 ∧ rs2 = 0 then some (.un .zexth rd rs1)
    else (rvOp32 f7 f3).map fun o => .op o rd rs1 rs2
  | 0x0F => if f3 = 0 then some .fence else none
  | 0x2F =>
    if f3 = 2 ∨ f3 = 3 then
      let f5 := f7 / 4
      if f5 = 2 then (if rs2 = 0 then some (.lr (f3 == 3) rd rs1) else none)
      else if f5 = 3 then some (.sc (f3 == 3) rd rs1 rs2)
      else (rvAmo f5).map fun o => .amo o (f3 == 3) rd rs1 rs2
    else none
  | 0x73 =>
    match f3 with
    | 0 => if w = 0x73 then some .ecall else if w = 0x00100073 then some .ebreak else none
    | 1 => some (.csrReg .rw rd rs1 i)
    | 2 => some (.csrReg .rs rd rs1 i)
    | 3 => some (.csrReg .rc rd rs1 i)
    | 5 => some (.csrImm .rw rd rs1 i)
    | 6 => some (.csrImm .rs rd rs1 i)
    | 7 => some (.csrImm .rc rd rs1 i)
    | _ => none
  | _ => none

/-- The register x8 to x15 of a 3-bit field of a compressed instruction. -/
def rvc (v : BitVec 3) : BitVec 5 := (1#2 ++ v : BitVec (2 + 3))

/-- Quadrant 0 of the compressed instructions. -/
def decodeC0 (h : BitVec 16) : Option Rv :=
  let rd := rvc (bits h 2 3)
  let rs := rvc (bits h 7 3)
  let immW : BitVec 12 := (0#5 ++ bits h 5 1 ++ bits h 10 3 ++ bits h 6 1 ++ 0#2 : BitVec (5 + 1 + 3 + 1 + 2))
  let immD : BitVec 12 := (0#4 ++ bits h 5 2 ++ bits h 10 3 ++ 0#3 : BitVec (4 + 2 + 3 + 3))
  match (bits h 13 3).toNat with
  | 0 =>
    let imm : BitVec 12 :=
      (0#2 ++ bits h 7 4 ++ bits h 11 2 ++ bits h 5 1 ++ bits h 6 1 ++ 0#2 : BitVec (2 + 4 + 2 + 1 + 1 + 2))
    if imm = 0 then none else some (.opImm .add rd 2 imm)
  | 2 => some (.load .w rd rs immW)
  | 3 => some (.load .d rd rs immD)
  | 6 => some (.store .w rd rs immW)
  | 7 => some (.store .d rd rs immD)
  | _ => none

/-- Quadrant 1 of the compressed instructions. -/
def decodeC1 (h : BitVec 16) : Option Rv :=
  let rd := bits h 7 5
  let rs := rvc (bits h 7 3)
  let r2 := rvc (bits h 2 3)
  let imm6 : BitVec 6 := (bits h 12 1 ++ bits h 2 5 : BitVec (1 + 5))
  let imm := imm6.signExtend 12
  let boff : BitVec 13 :=
    ((bits h 12 1 ++ bits h 5 2 ++ bits h 2 1 ++ bits h 10 2 ++ bits h 3 2 ++ 0#1 :
      BitVec (1 + 2 + 1 + 2 + 2 + 1)) : BitVec 9).signExtend 13
  match (bits h 13 3).toNat with
  | 0 => some (.opImm .add rd rd imm)
  | 1 => if rd = 0 then none else some (.opImm .addw rd rd imm)
  | 2 => some (.opImm .add rd 0 imm)
  | 3 =>
    if rd = 2 then
      let off : BitVec 10 := (bits h 12 1 ++ bits h 3 2 ++ bits h 5 1 ++ bits h 2 1 ++ bits h 6 1 ++ 0#4 :
        BitVec (1 + 2 + 1 + 1 + 1 + 4))
      if off = 0 then none else some (.opImm .add 2 2 (off.signExtend 12))
    else if imm6 = 0 then none else some (.lui rd (imm6.signExtend 20))
  | 4 =>
    match (bits h 10 2).toNat with
    | 0 => some (.opImm .srl rs rs (imm6.setWidth 12))
    | 1 => some (.opImm .sra rs rs (imm6.setWidth 12))
    | 2 => some (.opImm .and rs rs imm)
    | _ =>
      match bitAt h 12, (bits h 5 2).toNat with
      | false, 0 => some (.op .sub rs rs r2)
      | false, 1 => some (.op .xor rs rs r2)
      | false, 2 => some (.op .or rs rs r2)
      | false, _ => some (.op .and rs rs r2)
      | true, 0 => some (.op .subw rs rs r2)
      | true, 1 => some (.op .addw rs rs r2)
      | true, _ => none
  | 5 =>
    let off : BitVec 12 := (bits h 12 1 ++ bits h 8 1 ++ bits h 9 2 ++ bits h 6 1 ++ bits h 7 1 ++
      bits h 2 1 ++ bits h 11 1 ++ bits h 3 3 ++ 0#1 : BitVec (1 + 1 + 2 + 1 + 1 + 1 + 1 + 3 + 1))
    some (.jal 0 (off.signExtend 21))
  | 6 => some (.branch .eq rs 0 boff)
  | _ => some (.branch .ne rs 0 boff)

/-- Quadrant 2 of the compressed instructions. -/
def decodeC2 (h : BitVec 16) : Option Rv :=
  let rd := bits h 7 5
  let r2 := bits h 2 5
  match (bits h 13 3).toNat with
  | 0 =>
    let sh : BitVec 6 := (bits h 12 1 ++ bits h 2 5 : BitVec (1 + 5))
    some (.opImm .sll rd rd (sh.setWidth 12))
  | 2 =>
    if rd = 0 then none
    else some (.load .w rd 2 (0#4 ++ bits h 2 2 ++ bits h 12 1 ++ bits h 4 3 ++ 0#2 : BitVec (4 + 2 + 1 + 3 + 2)))
  | 3 =>
    if rd = 0 then none
    else some (.load .d rd 2 (0#3 ++ bits h 2 3 ++ bits h 12 1 ++ bits h 5 2 ++ 0#3 : BitVec (3 + 3 + 1 + 2 + 3)))
  | 4 =>
    if bitAt h 12 then
      if r2 = 0 then (if rd = 0 then some .ebreak else some (.jalr 1 rd 0)) else some (.op .add rd rd r2)
    else if r2 = 0 then (if rd = 0 then none else some (.jalr 0 rd 0))
    else some (.op .add rd 0 r2)
  | 6 => some (.store .w r2 2 (0#4 ++ bits h 7 2 ++ bits h 9 4 ++ 0#2 : BitVec (4 + 2 + 4 + 2)))
  | 7 => some (.store .d r2 2 (0#3 ++ bits h 7 3 ++ bits h 10 3 ++ 0#3 : BitVec (3 + 3 + 3 + 3)))
  | _ => none

/-- A compressed instruction of RV64C, as the instruction it abbreviates. -/
def decodeC (h : BitVec 16) : Option Rv :=
  match (bits h 0 2).toNat with
  | 0 => decodeC0 h
  | 1 => decodeC1 h
  | 2 => decodeC2 h
  | _ => none

/-- Decoding of the 32 bits at a handler's PC (R328, R337). -/
def decodeHandler (cl ctx : Nat) (w : Word) : HandlerDecoded :=
  if bits w 0 2 = 3 then
    if bits w 0 7 = 0x0B ∨ bits w 0 7 = 0x2B then
      match decodeExt cl ctx w with
      | some i => .ext i
      | none => .illegal
    else
      match decodeRv32 w with
      | some i => .base 4 i
      | none => .illegal
  else
    match decodeC (bits w 0 16) with
    | some i => .base 2 i
    | none => .illegal

/-! ### Words numbered as the opcode table numbers them -/

/-- The n words of a number, the least significant first. -/
def wordsOfNat : Nat → Nat → List Word
  | 0, _ => []
  | n + 1, w => BitVec.ofNat 32 w :: wordsOfNat n (w / 4294967296)

/-- Whether a table word is one of the Alcove extension (R59): 32 bits in custom-0 or custom-1. A B96
instruction, which shares L = 0b11 with it, has 96 bits. -/
def isExtWord (nbits w : Nat) : Bool :=
  decide (nbits ≤ 32) && (w % 128 == 0x0B || w % 128 == 0x2B)

/-- The instruction the decoder reads from a table word of nbits bits, the bits above them zero: five words
of the wave engine, or one word of the Alcove extension in context 0 of cluster 0. -/
def decodeTableWord (nbits w : Nat) : Option Instr :=
  let v := w % 2 ^ nbits
  if isExtWord nbits v then decodeExt 0 0 (BitVec.ofNat 32 v)
  else
    match decode (wordsOfNat 5 v) with
    | .ok i => some i
    | _ => none

end Sys2Proof
end

