-- ==== Sys2Proof/Config.lean ====
section
/-! DEFINITION. What an implementation fixes and what the spec leaves open: TD9 counts, and the free values,
each an opaque constant that no proof can evaluate. -/

namespace Sys2Proof.Config

/-- Cores of a cluster (R7). -/
def coresPerCluster : Nat := 4

/-- Wave slots of a core, twelve to a quadrant (R7, R135). -/
def slotsPerCore : Nat := 48

/-- Wave slots of a quadrant (R135). -/
def slotsPerQuad : Nat := 12

/-- Clusters of the device, sixteen to a die (R7). -/
def clusters : Nat := 64

/-- Clusters of a die (R7). -/
def clustersPerDie : Nat := 16

/-- Landing slots of a quadrant (R271). -/
def landingSlots : Nat := 4

/-- Largest window of scratchpad on a core, in 4 KiB pages: 1 MiB (R48, R101). -/
def scratchPages : Nat := 256

/-- The default wait threshold (R129). -/
def waitThreshold : Nat := 4096

/-- The choice among the enabled turns when no turn is given from outside (R133, R140, R383): a free value of the
choice counter. Log entry 1. -/
opaque freeChoice : Nat → Nat

/-- Cycles beyond the first that an issue takes (R136, R144, R171): a free value. Log entry 1. -/
opaque freeCycles : Nat → Nat

/-- A number the spec leaves to the device (a launch identifier, a power reading): a free value of the free-value
counter. Log entry 1. -/
opaque freeWord : Nat → BitVec 64

/-- The number from which launch.id values are counted (R135): a free value. Log entry 1. -/
opaque launchBase : BitVec 32

/-- The home slice of a physical line among n slices (R24): not architectural. Log entry 5. -/
opaque homeHash : Nat → Nat → Nat

/-- The firmware image in boot flash as the device comes (R374). Log entry 4. -/
opaque factoryImage : List (BitVec 8)

/-- The fused digest of the firmware key, 64 bytes (R374). Log entry 4. -/
opaque fusedDigest : List (BitVec 8)

/-- The fused minimum security version (R374). Log entry 4. -/
opaque minSvn : Nat

/-- The identity certificate (R376). Log entry 4. -/
opaque identityCert : List (BitVec 8)

/-- The private half of the fused identity key (R376). Log entry 4. -/
opaque identityKey : Nat

/-- The secret number of a signature over a digest (R376). Log entry 4. -/
opaque signNonce : List (BitVec 8) → Nat

/-- The set of a slice that a physical line belongs to (R2): not architectural. Log entry 57. -/
opaque sliceSet : Nat → Nat

/-- The peer device that a lane of a port reaches (R360): how the device is wired. Log entry 60. -/
opaque peerDevice : Nat → Nat → Nat

/-- The power of the package in watts for the clock target and the supply of each core (R378): a free value. Log entry 78. -/
opaque packagePower : List (Nat × Nat) → Nat → Nat

/-- Ways of an L2 slice (R2). -/
def sliceWays : Nat := 16

/-- Sets of an L2 slice: 6 MiB of 16 ways of 128-byte lines (R2). -/
def sliceSets : Nat := 3072

/-- Lines of an L1: 128 KiB (R2). -/
def l1Lines : Nat := 1024

/-- Bytes behind an HBM4E stack: a sixteenth of 768 GB (R2). Log entry 7. -/
def stackBytes : Nat := 48 * 10 ^ 9

/-- Bytes behind an LPDDR controller: 192 GB (R352). Log entry 7. -/
def lpddrBytes : Nat := 192 * 10 ^ 9

/-- The power of the package, in watts (R2, R378). -/
def powerLimit : Nat := 2200

end Sys2Proof.Config
end

