-- ==== Sys2Proof/Machine/Tab.lean ====
section
/-! DEFINITION. Sparse tables: lists of (key, value) pairs with keys strictly rising. The operations that the
memories, the register files and the tables of waves, teams and launches share. -/

namespace Sys2Proof.Machine

/-- A table from numbers to values, keys strictly rising. -/
abbrev Tab (α : Type) := List (Nat × α)

/-- The value listed at a key. -/
def Tab.find {α : Type} (k : Nat) : Tab α → Option α
  | [] => none
  | (j, v) :: t => if j = k then some v else Tab.find k t

/-- The table with the value at a key set. -/
def Tab.put {α : Type} (k : Nat) (v : α) : Tab α → Tab α
  | [] => [(k, v)]
  | (j, u) :: t => if k < j then (k, v) :: (j, u) :: t else if j = k then (k, v) :: t else (j, u) :: Tab.put k v t

/-- The table with a key removed. -/
def Tab.del {α : Type} (k : Nat) : Tab α → Tab α
  | [] => []
  | (j, u) :: t => if j = k then Tab.del k t else (j, u) :: Tab.del k t

/-- The value at a key, or the value an unlisted key reads as. -/
def Tab.getD {α : Type} (d : α) (k : Nat) (t : Tab α) : α := (Tab.find k t).getD d

/-- Setting a value; setting the value an unlisted key reads as removes the entry. -/
def Tab.setD {α : Type} [DecidableEq α] (d : α) (k : Nat) (v : α) (t : Tab α) : Tab α :=
  if v = d then Tab.del k t else Tab.put k v t

/-- The entry at a key changed, where there is one. -/
def Tab.upd {α : Type} (k : Nat) (g : α → α) (t : Tab α) : Tab α :=
  t.map fun e => if e.1 = k then (e.1, g e.2) else e

/-- Keys strictly rising. -/
def Tab.sorted {α : Type} : Tab α → Bool
  | [] => true
  | [_] => true
  | (j, _) :: (k, v) :: t => decide (j < k) && Tab.sorted ((k, v) :: t)

/-- The canonical form of a table with a default: keys strictly rising and no entry equal to the default. -/
def Tab.wf {α : Type} [DecidableEq α] (d : α) (t : Tab α) : Bool :=
  Tab.sorted t && t.all fun e => decide (e.2 ≠ d)

end Sys2Proof.Machine
end

