-- ==== Sys2Proof/Machine/State.lean ====
section
/-! DEFINITION. The state of the device as plain data, the reasons a step can stop, and the state after reset
(R131, R373 and the rules each field names). -/

namespace Sys2Proof.Machine

/-- Why a step stops with a fault. -/
inductive Fault
  /-- Raised by a wave instruction executed with no current fragment: `cur` names no fragment of a live wave. Safe:
  the spec gives an instruction no meaning outside a fragment (R132), and `step` never executes one so. -/
  | noFragment
deriving DecidableEq, Repr

/-- Why a step is refused. -/
inductive Refusal
  /-- Raised by an arm of `exec` whose instruction has no meaning yet. Safe: the model stops. -/
  | notModelled (mnemonic : String)
deriving DecidableEq, Repr

/-- One pending asynchronous engine fault (R15, R143, R246): its code, subcode, queue and batch number. -/
structure AsyncFault where
  code : Nat
  sub : Nat
  queue : Nat
  info : Word
deriving DecidableEq, Repr

/-- Why a fragment stands still (R129, R140, R219): the instruction re-executes from its start when it is issued
again, but for a JOIN, a TRET and a GNEXT, which wait for other fragments with their tokens or marks here. -/
inductive Wait
  | none
  /-- WAITA, WAITB, PUSH, LAUNCH, TLPOP, a held BARA, or a BARW that has been woken: a wait under R129. -/
  | retry
  /-- BARW on the object at this team address for a phase, until a barrier update wakes it: a wait under R129 (R126, R127). -/
  | barw (obj : Nat) (phase : Word)
  /-- GEN, until a Landing slot is free: a wait under R129 (R274). -/
  | gen
  /-- A BARW that a fault has ended as it waited: it takes the trap when it issues next (R246). -/
  | stopped (fault : AsyncFault)
  /-- Its arrival is held on a barrier object (R122): a wait under R129. -/
  | held
  /-- XLOCK, a fence or a stream store: no wait under R129 (R134, R200). -/
  | stall
  /-- JOIN t, with the address after it (R161). -/
  | join (t : Nat) (next : Dword)
  /-- TRET executed; the lanes wait for the other handler fragments (R217). -/
  | tret
  /-- GNEXT executed; the lanes wait for the other consumer fragments (R279). -/
  | gnext
  /-- A host service request was sent with this tag and is not yet answered: a wait under R129 (R216, R369). -/
  | host (tag : Nat)
deriving DecidableEq, Repr

/-- The repeat state of a fragment (R163, R164): first body address, instructions in the body, the count n it
started with, iterations left, and the number of body instructions already issued in this iteration. -/
structure Rep where
  start : Dword
  k : Nat
  n : Word
  left : Word
  idx : Nat
deriving DecidableEq, Repr

/-- A read that the core has performed ahead for a fragment (R86, R110, R382): its bytes and value, the location that it read (as
`State.locOf` numbers it), the binding of the page that it read, and whether a later read of the fragment has been performed. -/
structure Early where
  n : Nat
  v : Nat
  loc : Nat
  bound : Option (Nat × Nat)
  aged : Bool
deriving DecidableEq, Repr

/-- One fragment of a wave (R131, R132). -/
structure Frag where
  pc : Dword
  /-- The lanes of the fragment, its active lanes (R132). -/
  mask : Word
  /-- The pending-token set (R131). -/
  tokens : BitVec 16
  rep : Option Rep
  /-- Priority level, 0 to 4 (R142). -/
  prio : Nat
  wait : Wait
  /-- The core's cycle at which the present wait under R129 began. -/
  waitSince : Nat
  /-- Created or continued inside a handler (R209, R224). -/
  handler : Bool
  /-- Member of the consumer set of a generator region (R273). -/
  cons : Bool
  /-- LAUNCH progress: the lowest lane not yet launched of a halted LAUNCH (R131, R306). -/
  launchLane : Option Nat
  /-- The place of a waiting LAUNCH among those of its partition that have waited, in issue order (R306). -/
  ticket : Nat
  /-- The lanes of a waiting WAITA already satisfied, with the values that satisfied them (R128). -/
  got : List (Nat × Nat)
  /-- The addresses of the spin branches that the fragment has taken and no register value of its lanes has changed since
  (R142). -/
  spins : List Dword
  /-- It executed a JOIN with the park bit, whose park has ended while it waits: the fault that was then the wave's oldest is
  delivered to it when it goes on after the JOIN (R143). Log entry 80. -/
  due : Option AsyncFault
  /-- The cycle of its last issue (R140). -/
  lastIssue : Nat
  /-- Issue cycles for which it has been ready without issuing (R141). -/
  readyFor : Nat
  /-- The breakpoints that have fired at the instruction to come and do not fire for it again (R226). -/
  bpSkip : List Nat
  /-- The instruction words that the core holds fetched or prefetched for the fragment, by address (R218). -/
  held : Tab Word
  /-- The reads performed ahead for the fragment, by address (the model's own: what R86 leaves unordered). Log entry 19. -/
  early : Tab Early
deriving DecidableEq, Repr

/-- The binding of a k register as SQRY reads it (R193). -/
abbrev Binding := Word

/-- The trap registers of R213 and the repeat state saved with them. -/
structure TrapRegs where
  cause : Word
  info : Word
  addr : Dword
  pc : Dword
  mask : Word
  tok : BitVec 16
  rep : Option Rep
  /-- The handler has written trap.pc (R217). -/
  moved : Bool
  /-- The trapping fragment was one of the consumer set (R273, R283). -/
  cons : Bool
deriving DecidableEq, Repr

/-- Trap registers outside a handler: all zero (R213). -/
def TrapRegs.zero : TrapRegs := ⟨0, 0, 0, 0, 0, 0, none, false, false⟩

/-- The generator state record of R271, outside a region all zero, with the Landing's entries oldest first. -/
structure Landing where
  consPc : Dword
  exitPc : Dword
  regMask : Word
  prodMask : Word
  genTok : BitVec 16
  /-- BSZ: 0 is 8, 1 is 16, 2 is 32. -/
  bsz : BitVec 2
  inReg : Bool
  drain : Bool
  /-- MODE: true in consumer mode. -/
  mode : Bool
  batch : Nat
  entries : List (Word × Word × Word × Word)
deriving DecidableEq, Repr

/-- The record outside a region (R271). -/
def Landing.zero : Landing := ⟨0, 0, 0, 0, 0, 0, false, false, false, 0, []⟩

/-- An arrival record (R124, R131): a barrier object and the lanes whose fragment has executed BARA on it since the
wave's last counted arrival. -/
structure ArrRec where
  obj : Nat
  lanes : Word
deriving DecidableEq, Repr

/-- What a lane has done, of what makes and ends fragments (R160 to R162): a BRC with its token, and whether it was taken; a
JMPX or RET, with its target; a JOIN passed, with its token and its address. -/
inductive Fork
  | brc (t : Nat) (yes : Bool)
  | jump (dest : Dword)
  | join (t : Nat) (pc : Dword)
deriving DecidableEq, Repr

/-- A fragment as it would be without the lane-steps that the wave has taken (R228, R312): its lanes, its token set, and what each
lane has done that the fragment as a whole has not, oldest first. -/
structure Kin where
  lanes : Word
  tokens : BitVec 16
  taken : Tab (List Fork)
deriving DecidableEq, Repr

/-- A wave (R131), with its place (R9, R10, R135). -/
structure Wave where
  team : Nat
  /-- The wave's number in the team (R10). -/
  num : Nat
  frags : List Frag
  /-- The lanes that started active and have not exited (R132). -/
  live : Word
  /-- Vector registers: 32·r + l for lane l of v r; 4096 + 32·(r − 48) + l for lane l of the consumer frame of
  v48 to v63 inside a generator region (R131, R272). Unlisted is 0. -/
  regs : Tab Word
  /-- The extended-row hold (R134). -/
  ext : Bool
  /-- Scales: 32·k + l for lane l of k register k; unlisted is 0x7F (R193). -/
  scales : Tab Byte
  /-- The bindings of k0 to k31; unlisted is 0 (R193). -/
  binds : Tab Binding
  /-- The mode register (R137). -/
  mode : Word
  arrivals : List ArrRec
  /-- The fragments as they would be without the lane-steps taken; empty where those are the fragments there are (R312). -/
  kin : List Kin
  /-- The lanes that would have been detached without those steps (R297, R312), for the map of the group. -/
  late : Word
  /-- The sealed count S (R237). -/
  sealed : Word
  /-- Copy entries pushed so far: the next ENTRY number (R247). -/
  entries : Word
  /-- Register results outstanding (R21, R143). -/
  outstanding : Nat
  /-- Parked by the park bit after this fragment issued, and at this PC (R143). -/
  parked : Option Nat
  /-- The handler flag (R209). -/
  handlerFlag : Bool
  trap : TrapRegs
  /-- The lanes whose handler fragments have executed TRET (R217). -/
  tretLanes : Word
  hostResp : Word
  scratch : Word × Word × Word × Word
  /-- Pending asynchronous engine faults, oldest first (R211). -/
  faults : List AsyncFault
  landing : Landing
  /-- Evictable under R129. -/
  evictable : Bool
  /-- Its context has been spilt (R221). -/
  spilt : Bool
deriving DecidableEq, Repr

/-- One line of a stash-mapped page (R103): filled; its 128 bytes once it is dirty and owned; fill requested; invalidated by
another party's write and not refilled since (R196); filled since the page was bound, though another party's write or the
unpinning of the page has taken the copy away (R102, R109). -/
structure StashLine where
  filled : Bool
  dirty : Option (List Byte)
  requested : Bool
  invalidated : Bool
  away : Bool
deriving DecidableEq, Repr

/-- An unfilled line (R107). -/
def StashLine.empty : StashLine := ⟨false, none, false, false, false⟩

/-- A page of a team's window (R101 to R103): the global range it is bound to (virtual and physical base), its
lines, and whether it is pinned. A plain page keeps its bytes in the team's window, pinned or not. -/
structure Page where
  bound : Option (Nat × Nat)
  lines : Tab StashLine
  pinned : Bool
deriving DecidableEq, Repr

/-- A plain, pinned page (R101). -/
def Page.plain : Page := ⟨none, [], true⟩

/-- Who holds an arrival (R122): fragments of a wave through its arrival record, or the core's matrix engine. -/
inductive Holder
  | wave (k : Nat)
  | matrix
deriving DecidableEq, Repr

/-- An arrival that is held (R122, R123): its object, who holds it, and whether it is held for EXPECT = 0. -/
structure Hold where
  obj : Nat
  who : Holder
  uninit : Bool
deriving DecidableEq, Repr

/-- A trap about to be raised (R208, R213). -/
structure TrapInfo where
  code : Nat
  sub : Nat := 0
  queue : Nat := 0
  kreg : Nat := 0
  isAsync : Bool := false
  write : Bool := false
  redo : Bool := true
  lane : Nat := 0
  info : Word := 0
  addr : Dword := 0
  pc : Dword := 0
deriving DecidableEq, Repr

/-- A debug halt (R225 to R228): the stop's code and unit index, the wave and fragment it stopped at, and the trap
that is pending behind it (R209). -/
structure Halt where
  code : Nat
  index : Nat
  wave : Nat
  frag : Nat
  pending : Option TrapInfo
deriving DecidableEq, Repr

/-- One command in a copy queue (R234, R241, R247). -/
structure CopyCmd where
  record : BitVec 512
  /-- The pushing wave, by key, and its team. -/
  wave : Nat
  team : Nat
  batch : Word
  entry : Word
  /-- Canonical index of the next byte to write. -/
  next : Nat
  /-- The checks of R246 have been made. -/
  checked : Bool
  /-- Suspended on this unpinned page (R248). -/
  susp : Option Nat
  /-- The canonical indexes at or above NEXT whose words have been moved and counted already (R92, R245). -/
  ahead : List Nat
  /-- It has faulted, with this subcode (R246, R247). -/
  fault : Option Nat
deriving DecidableEq, Repr

/-- A team (R7 to R13, R101). -/
structure Team where
  /-- The key of its launch. -/
  launch : Nat
  /-- Its group's index in cut order across all cuts, of which team.id is the low 32 bits (R135, R295). -/
  num : Nat
  /-- Physical core number, 0 to 255. -/
  core : Nat
  /-- The core, cluster and die numbers that its waves read, fixed while it is resident (R22, R135). -/
  place : Nat × Nat × Nat
  origin : Nat × Nat × Nat
  shape : Nat × Nat × Nat
  /-- The keys of the waves dispatched to it, in team order; a wave that has exited keeps its place. -/
  waves : List Nat
  /-- Size of the scratchpad window in bytes, whole pages (R101). -/
  window : Nat
  /-- The window's bytes; unlisted is 0 (R101). -/
  scratch : Tab Byte
  /-- What a page held, plain, when it was last bound to a global range, by team address: what an access that is resolved under
  that old binding reads and writes (the model's own: what R110 leaves unordered). Log entry 72. -/
  gone : Tab Byte
  pages : Tab Page
  /-- Arrivals held on barrier objects, in hold order (R122). -/
  holds : List Hold
  halt : Option Halt
  /-- Parked by pre-emption (R220). -/
  parked : Bool
  /-- Stopped by a fatal trap (R212). -/
  dead : Bool
  /-- The copy commands of its waves that have faulted, with their queues: their progress records (R247). -/
  faulted : List (Nat × CopyCmd)
  /-- A debugger step that has been ordered (R228): the wave's number in the team, and the fragment if named. -/
  step : Option (Nat × Option Nat)
  /-- The game record's data of this group so far (R297): items with their minority bit set, the global lines its
  wave instructions accessed, and the cycle of its dispatch. -/
  minority : List Nat
  foot : List Nat
  /-- Bytes that its core's L1 has requested from L2 slices for its waves (R297). -/
  l2 : Nat
  startedAt : Nat
deriving DecidableEq, Repr

/-- An activation table bank (R189): owner's launch.id, base, width exponent, slopes and intercepts (unlisted is
+0). -/
structure Bank where
  owner : Option Word
  x0 : Word
  e : Byte
  slope : Tab Word
  icept : Tab Word
deriving DecidableEq, Repr

/-- An ACTLD image read and not yet committed (R191): bank, loading wave (none once it has exited), the bank to come. -/
structure PendingBank where
  bank : Nat
  wave : Option Nat
  image : Bank
deriving DecidableEq, Repr
/-- One record in the matrix or the Alcove queue (R234), with its pusher. -/
structure Cmd where
  record : BitVec 512
  wave : Nat
  team : Nat
deriving DecidableEq, Repr

/-- A data entry of a matrix FIFO (R256): width, sequence number and the block's 32·m mantissa bits. -/
structure DataEntry where
  m : Nat
  seq : Nat
  bits : Nat
deriving DecidableEq, Repr

/-- A scale entry of a matrix FIFO (R256). -/
structure ScaleEntry where
  scale : Byte
  tag : Nat
deriving DecidableEq, Repr

/-- The tile of an MX.MUL in progress (R257, R265): the data entries and the scales that it has popped. -/
structure MxTile where
  xData : List DataEntry
  wData : List DataEntry
  xScale : List ScaleEntry
  wScale : List ScaleEntry
deriving DecidableEq, Repr

/-- The matrix engine (R252 to R256): its holder and what the holder owns. -/
structure Mx where
  holder : Option Nat
  buf0 : Tab Word
  buf1 : Tab Word
  xData : List DataEntry
  wData : List DataEntry
  xScale : List ScaleEntry
  wScale : List ScaleEntry
  /-- The stream counters, 24 bits (R256). -/
  xCount : Nat
  wCount : Nat
  fifo : List Cmd
  /-- What the head MX.MUL has popped (it is in progress, R265); whether the head MX.ARRIVE is held (R122). -/
  tile : Option MxTile
  headHeld : Bool
  /-- The words that the head MX.LOADC has read already, by their place among its words (R262, R383). -/
  ahead : Tab Word
deriving DecidableEq, Repr

/-- The engine as a new holder finds it (R253). -/
def Mx.fresh (h : Option Nat) : Mx := ⟨h, [], [], [], [], [], [], 0, 0, [], none, false, []⟩

/-- A cache hint (R37, R111). -/
inductive Hint | normal | stream | retain | bypass
deriving DecidableEq, Repr

/-- A permitted rate as a part of the peak (R250): n / 2 ^ e for the pair (n, e). -/
abbrev Rate := Nat × Nat

/-- The whole peak. -/
def Rate.peak : Rate := (1, 0)

/-- A line that a core's L1 holds, and whether it was allocated .stream or .retain (R111). -/
structure L1Line where
  line : Nat
  hint : Hint
deriving DecidableEq, Repr

/-- A core (R136, R189, R234, R252). -/
structure Core where
  /-- The cycle counter (R136). -/
  clock : Dword
  bank0 : Bank
  bank1 : Bank
  pending : List PendingBank
  copy0 : List CopyCmd
  copy1 : List CopyCmd
  mx : Mx
  /-- The matrix state of parked teams whose engine was claimed, by team (R265). -/
  mxSpilt : Tab Mx
  /-- The activation banks of parked launches whose banks were claimed, by 2 × launch + bank (R221). -/
  banksSpilt : Tab Bank
  /-- The lines of the L1 data cache, the one to go first at the head (R2, R111). -/
  l1 : List L1Line
  /-- Permitted copy rate (R250). -/
  rate : Rate
  /-- Clock target and supply (R378, R380). -/
  fstep : Nat
  vmv : Nat
deriving DecidableEq, Repr

/-- An unowned bank: base, slopes and intercepts +0 (R189). -/
def Bank.empty : Bank := ⟨none, 0, 0, [], []⟩

/-- A core as it leaves reset. -/
def Core.fresh : Core :=
  ⟨0, Bank.empty, Bank.empty, [], [], [], Mx.fresh none, [], [], [], Rate.peak, 64, 350⟩

/-- The trigger classes of an Alcove (R331). -/
inductive TrigClass | miss | fill | evict | msg
deriving DecidableEq, Repr

/-- A trigger (R333 to R336): its class, the ENTRY of its registration at the event, the line, retries so far, and what AL.ARG
reads. -/
structure Trigger where
  cls : TrigClass
  entry : Nat
  line : Nat
  retry : Nat
  /-- The values of AL.ARG 1 and 2. -/
  arg1 : Dword
  arg2 : Dword
  record : Option Cmd
deriving DecidableEq, Repr

/-- What waits in queue 3 (R234, R334, R340): a record as pushed, or a message's trigger that its handler has put back. -/
inductive Waiting where
  | fresh (x : Cmd)
  | again (t : Trigger)
deriving DecidableEq, Repr

/-- The record behind a waiting entry of queue 3. -/
def Waiting.cmd (x : Waiting) : Option Cmd :=
  match x with
  | .fresh c => some c
  | .again t => t.record

/-- A handler context running an invocation (R328, R329, R341). -/
structure HCtx where
  regs : Tab Dword
  pc : Dword
  trig : Trigger
  alcyc : Nat
  instret : Nat
  /-- alres[0] (R329). -/
  alres : Bool
  /-- The address and width of an LR reservation in data memory. -/
  resv : Option (Nat × Nat)
deriving DecidableEq, Repr

/-- A class's counter block (R343). -/
structure Counters where
  runs : Word
  overruns : Word
  faults : Word
  drops : Word
  lastCyc : Word
  maxCyc : Word
deriving DecidableEq, Repr

/-- Counters at zero (R343). -/
def Counters.zero : Counters := ⟨0, 0, 0, 0, 0, 0⟩

/-- A line of an L2 slice (R24, R111, R333). -/
structure SliceLine where
  /-- Triggers that hold it. -/
  holds : Nat
  /-- The next eviction candidate of its set. -/
  next : Bool
  /-- Its next choice as a victim raises no EVICT. -/
  noEvict : Bool
  /-- Its memory read is in flight. -/
  requested : Bool
  /-- Arrived and kept in the miss buffer. -/
  inBuffer : Bool
  /-- Its MISS has ended suppressed while the read is in flight: it is not allocated when it arrives. -/
  passing : Bool
  /-- The hint of the request that brought it (R111). -/
  hint : Hint
  /-- What AL.ARG 2 reads of that request's requester (R336). -/
  who : Dword
  /-- What memory holds below a line that the slice holds dirty. -/
  under : Option (List Byte)
deriving DecidableEq, Repr

/-- A dirty line of a cluster not yet at its home slice (R88): the bytes written, and the narrow release that
left it there (0 where no narrow release covers it). `after` counts the narrow releases of the cluster before its
last write; `read` tells that a party of the cluster has read of the line (R85). -/
structure DirtyLine where
  bytes : Tab Byte
  narrow : Nat
  after : Nat
  read : Bool
deriving DecidableEq, Repr

/-- A cluster (R23, R24, R88, R328 to R343). -/
structure Cluster where
  /-- Queue 3 (R234). -/
  queue : List Waiting
  ctxs : Tab HCtx
  /-- Alcove data memory; unlisted is 0. -/
  dmem : Tab Byte
  /-- Handler instruction memory by offset; unlisted is 0. -/
  imem : Tab Byte
  /-- Class control registers by class (0 MISS, 1 FILL, 2 EVICT, 3 MSG); unlisted is 0 (R331). -/
  control : Tab Word
  /-- Registrations by 16 × class + index, with the ranges they cover as virtual base, physical base and bytes (R332). -/
  regs : Tab (BitVec 256 × List (Nat × Nat × Nat))
  /-- The Alcove's cycle counter (R329). -/
  cycle : Dword
  classQ : List Trigger
  counters : Tab Counters
  slice : Tab SliceLine
  dirty : Tab DirtyLine
  /-- Lines that the cluster has written at their home, or in a stash-mapped page, after a narrow release, with the narrow
  releases performed before that write (R88, R91). -/
  wrote : Tab Nat
  /-- Narrow releases performed so far. -/
  releases : Nat
  /-- The Alcove context that issued last (R328). -/
  issued : Nat
deriving DecidableEq, Repr

/-- A cluster as it leaves reset. -/
def Cluster.fresh : Cluster := ⟨[], [], [], [], [], [], 0, [], [], [], [], [], 0, 7⟩

/-- A page-table entry (R98, R354): virtual base, size, physical base and permissions. A physical address has its
stop in bits [51:40]: 0 to 15 an HBM4E stack, 16 to 23 an LPDDR controller, 24 the host window. Log entry 7. -/
structure Pte where
  vbase : Nat
  size : Nat
  pbase : Nat
  r : Bool
  w : Bool
  x : Bool
deriving DecidableEq, Repr

/-- A record of a partition's fault queue that the host has not answered (R369). -/
structure FaultReq where
  tag : Nat
  wave : Nat
deriving DecidableEq, Repr

/-- A partition (R98, R129, R360, R369, R370). -/
structure Partition where
  ptes : List Pte
  /-- Wait threshold (R129). -/
  wait : Nat
  /-- Fault queue: ring address and size in records, next TAG, unanswered records (R369). -/
  ring : Option (Nat × Nat)
  tag : Nat
  reqs : List FaultReq
  /-- LAUNCH instructions that have had to wait for the device-launch pool (R306). -/
  tickets : Nat
  /-- The peer table; unlisted is 0 (R360). -/
  peers : Tab (BitVec 16)
  /-- The fault interrupt of the virtual function has been raised (R370). -/
  fault : Bool
  /-- A partition fault has been found and is still to be answered (R370); nothing of the partition runs. -/
  faulting : Bool
  /-- Permitted rate of the host link (R250). -/
  hostRate : Rate
deriving DecidableEq, Repr

/-- A partition's tables before the host has set anything. -/
def Partition.fresh : Partition := ⟨[], Config.waitThreshold, none, 0, [], 0, [], false, false, Rate.peak⟩

/-- A debug context (R225 to R229). -/
structure Debug where
  taken : Bool
  bpAddr : Tab Dword
  bpCtl : Tab Word
  wpAddr : Tab Dword
  /-- Unlisted is SIZE 2 (R227). -/
  wpCtl : Tab Word
  catches : List Nat
deriving DecidableEq, Repr

/-- A debug context with every register at its reset value. -/
def Debug.fresh : Debug := ⟨false, [], [], [], [], []⟩

/-- A region of a cut (R295): origin and extent. -/
structure Region where
  ox : Nat
  oy : Nat
  oz : Nat
  qx : Nat
  qy : Nat
  qz : Nat
deriving DecidableEq, Repr

/-- What a finished group adds to the game record (R297). -/
structure GroupRec where
  num : Nat
  origin : Nat × Nat × Nat
  shape : Nat × Nat × Nat
  minority : List Nat
  foot : Nat
  /-- Bytes that the L1 requested for the whole group: the measurement of R297 is these per item. -/
  l2 : Nat
  cycles : Nat
deriving DecidableEq, Repr

/-- A launch's cut (R295 to R300): regions, shape, order (0 row, 1 col, 2 z), the first team.id of this cut, each
die's undispatched run of positions in cut order as first and past-last, one past the highest position dispatched, groups
finished and not yet evaluated. -/
structure Cut where
  regions : List Region
  shape : Nat × Nat × Nat
  order : Nat
  base : Nat
  runs : Tab (Nat × Nat)
  sent : Nat
  finished : List GroupRec
  /-- Positions of this cut already evaluated (R298). -/
  windowAt : Nat
  /-- An empty or exhausted re-cut has ended re-cutting (R299). -/
  closed : Bool
deriving DecidableEq, Repr

/-- The descriptor of R290, decoded. -/
structure Desc where
  entry : Dword
  trapVec : Dword
  fixed : Nat
  perItem : Nat
  dcut : Bool
  cores : Bool
  mxuse : Bool
  quotas : Option (List Nat)
  order : Nat
  window : Nat
  xs : List Nat
  ys : List Nat
  zs : List Nat
  lo : Nat
  hi : Nat
  pin : Bool
deriving DecidableEq, Repr

/-- A descriptor with every field zero. -/
def Desc.zero : Desc := ⟨0, 0, 0, 0, false, false, false, none, 0, 0, [], [], [], 0, 0, false⟩

/-- What the work of a packet or a child launch is (R306, R366). -/
inductive Work
  | launch (desc ex ey ez : Nat)
  | barrier (waits : List Nat)
  | copy (src dst len : Nat)
  | tiles (j dies nexp nrec recAddr expAddr : Nat)
  | signal (target : Nat) (value : BitVec 64)
  | marker (tag : Nat)
  | bad
deriving DecidableEq, Repr

/-- A launch, a job or another packet in flight (R12, R367, R385). The stage is that of R12; `order` is its number
among the packets of its queue, or among the children, and `queue` is none for a child of LAUNCH. -/
structure Launch where
  part : Nat
  /-- launch.id (R135). -/
  id : Word
  queue : Option Nat
  index : Nat
  /-- The packet's BARRIER bit (R365). -/
  barrier : Bool
  work : Work
  acq : Nat
  rel : Nat
  sig : Nat
  staddr : Nat
  stage : Nat
  desc : Desc
  space : Nat × Nat × Nat
  cut : Option Cut
  /-- Counters of R307: new cuts, groups dispatched, groups finished, Fw of the last window, last case. -/
  recuts : Nat
  dispatched : Nat
  retired : Nat
  fw : Nat
  lastCase : Nat
  /-- The game record of every finished group (R297, R311). -/
  games : List GroupRec
  /-- The first error fixed: status and cause word (R385). -/
  error : Option (Nat × Word)
  /-- The addresses SIG and STADDR passed the checks of R366. -/
  sigOk : Bool
  staOk : Bool
  /-- No further group is dispatched (R212). -/
  stopped : Bool
  parked : Bool
  /-- Peer bytes sent and not yet acknowledged, and whether a store has been lost (R249). -/
  peerOut : Nat
  peerLost : Bool
  dbg : Debug
deriving DecidableEq, Repr

/-- A tile (R317, R320) and what has become of it: undelivered, delivered to a team, retired. -/
structure Tile where
  recIx : Nat
  expert : Nat
  off : Nat
  mh : Nat
  valid : Nat
  team : Option Nat
  retired : Bool
deriving DecidableEq, Repr

/-- An expert of a job (R315, R318): weight address, fill signal, ready, failed. -/
structure Expert where
  waddr : Dword
  fillsig : Nat
  ready : Bool
  failed : Bool
deriving DecidableEq, Repr

/-- A tile job in a slot of a partition (R314). -/
structure Job where
  launch : Nat
  dies : Nat
  tiles : List Tile
  experts : Tab Expert
deriving DecidableEq, Repr

/-- A host queue (R364). -/
structure HostQueue where
  owner : Option Nat
  doorbell : Dword
  rdidx : Dword
  qbase : Dword
  qsize : Nat
  err : Bool
deriving DecidableEq, Repr

/-- A host queue's registers at reset (R364). -/
def HostQueue.fresh : HostQueue := ⟨none, 0, 0, 0, 0, false⟩

/-- A record slot of the journal (R357): SEQ, OLD, NEW, QLIST, and the 64 bytes of DIGEST. -/
structure JRecord where
  seq : Nat
  old : List Nat
  new : List Nat
  qlist : List Word
  digest : List Byte
deriving DecidableEq, Repr

/-- A record of a SEQ, two layouts and a list of launches, with the digest that completes it (R357). -/
def JRecord.sealed (seq : Nat) (old new : List Nat) (qlist : List Word) : JRecord :=
  ⟨seq, old, new, qlist, sha512 (journalBytes seq old new qlist)⟩

/-- The record that the device comes with (R373). -/
def JRecord.first : JRecord := .sealed 0 (List.replicate 216 255) (List.replicate 216 255) []

/-- A record slot with every byte 0 (R357). -/
def JRecord.blank : JRecord := ⟨0, List.replicate 216 0, List.replicate 216 0, [], List.replicate 64 0⟩

/-- A REPART that has been accepted and has not ended (R356): the new layout, what it has done (1 accepted, 2 quiesced, 3
flushed, 4 the record but for its digest, 5 the record, 6 the stops of phase two), the launches it has pre-empted, by key, and
the partitions whose faults found meanwhile are applied once it has ended (R370). -/
structure Repart where
  new : List Nat
  step : Nat
  quiet : List Nat
  faults : List Nat
  /-- The activation banks it has spilt, by core and by 2 × launch + bank. -/
  banks : List (Nat × Nat)
deriving DecidableEq, Repr

/-- What the mailbox last answered (R371, R375 to R380). -/
inductive Answer
  | none
  | done
  | refused
  | committed
  | rolledBack
  | words (ws : List Word)
  | bytes (bs : List Byte)
deriving DecidableEq, Repr

/-- A command of the management mailbox with its arguments (R371, R375 to R380). -/
inductive MailCmd
  | repart (layout : List Nat) (timeout : Nat)
  | preempt (part : Nat) (ids : List Word)
  | resume (part : Nat) (ids : List Word)
  | setpool (pool part rsv cap : Nat)
  | setqueue (q part : Nat)
  | alcove (part : Nat) (cmd : AlcoveCmd)
  | setlink (port : Nat) (entries : List (Nat × Nat × BitVec 16))
  | faultq (part : Nat) (base : BitVec 64) (size : Nat)
  | setwait (part cycles : Nat)
  | features
  | accept (bits : BitVec 128)
  | attest (nonce : List Byte)
  | telemetry
  | update (addr : Nat)
  | idcert
deriving DecidableEq, Repr

/-- A firmware image in boot flash, by the part an UPDATE changes: the constant image the device came with, or an
image an UPDATE wrote (R375). -/
inductive Flash
  | factory
  | image (bs : List Byte)
deriving DecidableEq, Repr

/-- Whose turn it is (R79, R140, R383). -/
inductive Turn
  /-- A fragment of a wave issues. -/
  | issue (wave frag : Nat)
  /-- A quadrant of a core issues from the fragment that R140 and R141 choose. -/
  | quad (core q : Nat)
  /-- The head command of copy queue entry `idx` moves up to n words. -/
  | copy (core q idx n : Nat)
  /-- The matrix engine takes its next step. -/
  | matrix (core : Nat)
  /-- A context of an Alcove issues one instruction. -/
  | alcove (cl ctx : Nat)
  /-- The core reads the word at an address ahead for a fragment (R218). -/
  | prefetch (wave frag : Nat) (a : Dword)
  /-- The core gives up the word that it holds of an address for a fragment (R218). -/
  | giveUp (wave frag : Nat) (a : Dword)
  /-- The core performs a read of n bytes at an address ahead for a fragment (R86, R382). -/
  | readAhead (wave frag : Nat) (ea : Dword) (n : Nat)
  /-- The head command of copy queue entry `idx` moves the word at a canonical index ahead of those before it (R92, R245). -/
  | copyAhead (core q idx i : Nat)
  /-- The matrix engine's MX.LOADC at the head reads its i-th word ahead of its run (R262, R383). -/
  | loadAhead (core i : Nat)
  /-- Cycles of a core pass (R136). -/
  | cycles (core n : Nat)
  /-- A peer answers bytes of a launch's peer stores with a refusal of their translation (R249). -/
  | peerRefusal (id bytes : Nat)
  /-- A core's L1 gives up a line (R2). -/
  | l1Drop (core line : Nat)
  /-- The mailbox takes the first of the commands that wait (R371). -/
  | mailbox
  /-- A SETQUEUE that waits for the host-queue pool is served (R355). -/
  | ask
  /-- An event of the opcode table happens. -/
  | event (i : Instr)
deriving DecidableEq, Repr

/-- A write that no release of its writer has followed (R86): its location as `State.locOf` numbers it, the bytes that stood there
before, and who has written there since: lanes of a wave by its key, or the matrix engine of a core. -/
structure Loose where
  loc : Nat
  old : List Byte
  writers : List (Nat × Word)
deriving DecidableEq, Repr

/-- The state of the device. -/
structure State where
  /-- Waves by 12,288 × n + 48 × core + slot, with physical core numbers 0 to 255; n is 0 but for a wave whose slot a
  spilt wave has had to leave (R221). -/
  waves : Tab Wave
  teams : Tab Team
  cores : Tab Core
  clusters : Tab Cluster
  /-- Memory by physical address: what stands at the home slices; unlisted reads as 0. -/
  mem : List Host.Cell
  /-- Poisoned lines (R370). -/
  poison : List Nat
  /-- The writes over reads performed ahead that no release of their writers has followed (the model's own: what R86 leaves
  unordered). Log entry 19. -/
  loose : List Loose
  parts : Tab Partition
  launches : Tab Launch
  /-- The launches, jobs and packets that have completed, with their game records (R311, R313). -/
  past : Tab Launch
  /-- Tile jobs by 16 × partition + slot. -/
  jobs : Tab Job
  queues : Tab HostQueue
  /-- SETPOOL values by 16 × pool + partition: RSV and CAP (R355). -/
  pools : Tab (Nat × Nat)
  /-- The layout in force, 216 owner bytes (R356). -/
  layout : List Nat
  /-- The connection registers' EPOCH and PART by stop, the stops numbered as the layout's bytes (R353). -/
  conns : Tab (Nat × Nat)
  /-- Link registers of the 16 ports; unlisted is SPLIT 0x01 (R359). -/
  links : Tab (BitVec 64)
  /-- Sub-links that are down, by 8 × port + lane (R361). -/
  linkDown : List Nat
  slot0 : JRecord
  slot1 : JRecord
  /-- The commit word: SLOT and SEQ (R357). -/
  commit : Nat × Nat
  repart : Option Repart
  /-- The mailbox commands given while a REPART runs, in order of arrival (R371, R376). -/
  box : List MailCmd
  /-- The SETQUEUE requests that wait for the host-queue pool, in order of arrival: queue and partition (R355). -/
  asks : List (Nat × Nat)
  /-- The bring-up stage of R373. -/
  stage : Nat
  accepted : Option (BitVec 128)
  answer : Answer
  flash : Flash
  /-- The image the firmware runs from (R375, R376). -/
  running : Flash
  /-- The next key of a team, and of a launch. -/
  nextTeam : Nat
  nextLaunch : Nat
  /-- The wave and fragment whose instruction is being executed. -/
  cur : Option (Nat × Nat)
  /-- The turns to come (the model's own: what the outside and the schedulers decide). Log entry 1. -/
  agenda : List Turn
  /-- The last answer to a store that arrived from a peer (R249): the sub-link as 8 × port + lane, and whether it was
  acknowledged. -/
  peerAnswer : Option (Nat × Bool)
  /-- The bytes that the host's last read through CXL.mem returned (R363). -/
  hostRead : List Byte
  /-- Counters the free values are taken at (the model's own). Log entry 1. -/
  choices : Nat
  frees : Nat
deriving DecidableEq, Repr

/-- The device after stage 5 of R373: the mailbox answers, ACCEPT is still to come, the journal holds committed SEQ
0 with every owner byte 0xFF, no partition, no queue and no launch exists. -/
def State.reset : State :=
  { waves := [], teams := [], cores := [], clusters := [], mem := [], poison := [], loose := [], parts := [],
    launches := [], past := [], jobs := [], queues := [], pools := [], layout := List.replicate 216 255, conns := [],
    links := [], linkDown := [], slot0 := JRecord.first,
    slot1 := JRecord.blank, commit := (0, 0), repart := none, box := [], asks := [], stage := 6, accepted := none,
    answer := .none, flash := .factory, running := .factory, nextTeam := 0, nextLaunch := 0, cur := none,
    peerAnswer := none, hostRead := [], agenda := [], choices := 0, frees := 0 }

end Sys2Proof.Machine
end

