-- ==== Sys2Proof/Machine/Ops.lean ====
section
/-! DEFINITION. The named operations every wave instruction shares: lanes and guards, vector and scale registers,
the fragment that issues, taking a trap and returning from one, and the frame in which an instruction runs. -/

namespace Sys2Proof.Machine

open Sys2Proof

/-- What a step or a meaning answers. -/
abbrev Out := Host.Outcome State Fault Refusal

/-! ### Lanes -/

/-- The lanes of a mask, ascending. -/
def lanesOf (m : Word) : List Nat := (List.range 32).filter fun l => m.getLsbD l

/-- The mask of a list of lanes. -/
def maskOf (ls : List Nat) : Word := ls.foldl (fun m l => m ||| (1#32 <<< l)) 0

/-- The lowest lane of a mask; 0 of an empty one. -/
def lowLane (m : Word) : Nat := (lanesOf m).headD 0

/-! ### Places -/

/-- The slot of a wave's key, over all cores: 48 × core + slot (R135). -/
def slotOf (k : Nat) : Nat := k % 12288

/-- The core of a wave's key (R135). -/
def coreOf (k : Nat) : Nat := slotOf k / Config.slotsPerCore

/-- The cluster of a core (R7). -/
def clusterOf (core : Nat) : Nat := core / Config.coresPerCluster

/-- A core; one not listed is as it left reset. -/
def State.core (s : State) (c : Nat) : Core := Tab.getD Core.fresh c s.cores

/-- A cluster; one not listed is as it left reset. -/
def State.cluster (s : State) (c : Nat) : Cluster := Tab.getD Cluster.fresh c s.clusters

/-- A partition's tables. -/
def State.part (s : State) (p : Nat) : Partition := Tab.getD Partition.fresh p s.parts

/-- A core changed. -/
def State.setCore (c : Nat) (g : Core → Core) (s : State) : State :=
  { s with cores := Tab.put c (g (s.core c)) s.cores }

/-- A cluster changed. -/
def State.setCluster (c : Nat) (g : Cluster → Cluster) (s : State) : State :=
  { s with clusters := Tab.put c (g (s.cluster c)) s.clusters }

/-- A partition's tables changed. -/
def State.setPart (p : Nat) (g : Partition → Partition) (s : State) : State :=
  { s with parts := Tab.put p (g (s.part p)) s.parts }

/-- A wave changed, where it is there. -/
def State.setWave (k : Nat) (g : Wave → Wave) (s : State) : State :=
  { s with waves := Tab.upd k g s.waves }

/-- A team changed, where it is there. -/
def State.setTeam (t : Nat) (g : Team → Team) (s : State) : State :=
  { s with teams := Tab.upd t g s.teams }

/-- A launch changed, where it is there. -/
def State.setLaunch (l : Nat) (g : Launch → Launch) (s : State) : State :=
  { s with launches := Tab.upd l g s.launches }

/-- A fragment of a wave changed. -/
def Wave.setFrag (i : Nat) (g : Frag → Frag) (w : Wave) : Wave := { w with frags := w.frags.modify i g }

/-- A fragment changed. -/
def State.setFrag (k i : Nat) (g : Frag → Frag) (s : State) : State := s.setWave k (·.setFrag i g)

/-- The team of a wave. -/
def State.teamOf (s : State) (w : Wave) : Option Team := Tab.find w.team s.teams

/-- The launch of a wave. -/
def State.launchOf (s : State) (w : Wave) : Option Launch :=
  (s.teamOf w).bind fun t => Tab.find t.launch s.launches

/-- The key of the launch of a wave. -/
def State.launchAt (s : State) (w : Wave) : Option Nat := (s.teamOf w).map (·.launch)

/-- The partition of a wave. -/
def State.partOf (s : State) (w : Wave) : Nat := ((s.launchOf w).map (·.part)).getD 0

/-- The partition of a team. -/
def State.teamPart (s : State) (tm : Team) : Nat := ((Tab.find tm.launch s.launches).map (·.part)).getD 0

/-! ### Free values -/

/-- A free word, and the state with the counter advanced. Log entry 1. -/
def State.free (s : State) : BitVec 64 × State := (Config.freeWord s.frees, { s with frees := s.frees + 1 })

/-! ### Vector registers -/

/-- The key of lane l of v r in a wave's register table (R131, R272): v48 to v63 name the frame of the current mode. -/
def Wave.regKey (w : Wave) (r l : Nat) : Nat :=
  if w.landing.mode ∧ 48 ≤ r ∧ r < 64 then 4096 + 32 * (r - 48) + l else 32 * r + l

/-- Lane l of v r. -/
def Wave.reg (w : Wave) (r l : Nat) : Word := Tab.getD 0 (w.regKey r l) w.regs

/-- The pair v r, v r+1 of a lane, low word in v r (R63). -/
def Wave.pair (w : Wave) (r l : Nat) : Dword := w.reg (r + 1) l ++ w.reg r l

/-- A register value of n words (R63), as a number. -/
def Wave.val (w : Wave) (n r l : Nat) : Nat := if n = 2 then (w.pair r l).toNat else (w.reg r l).toNat

/-- One register write: register, lane, value. -/
abbrev RegW := Nat × Nat × Word

/-- The writes of a value of n words to a register or pair (R63), modulo its width. -/
def wrVal (n r l v : Nat) : List RegW :=
  if n = 2 then [(r, l, BitVec.ofNat 32 v), (r + 1, l, BitVec.ofNat 32 (v / 2 ^ 32))] else [(r, l, BitVec.ofNat 32 v)]

/-- One write to the register table. -/
def Wave.put (w : Wave) (x : RegW) : Wave := { w with regs := Tab.setD 0 (w.regKey x.1 x.2.1) x.2.2 w.regs }

/-! ### Scale registers and bindings -/

/-- Lane l of k j (R193). -/
def Wave.scale (w : Wave) (j l : Nat) : Byte := Tab.getD 0x7F (32 * j + l) w.scales

/-- A scale code as it is written: 0xFF gives 0xFE (R66, R70). -/
def substE8 (b : Byte) : Byte := if b = 0xFF then 0xFE else b

/-- Lane l of k j written (R193). -/
def Wave.putScale (w : Wave) (j l : Nat) (v : Byte) : Wave :=
  { w with scales := Tab.setD 0x7F (32 * j + l) (substE8 v) w.scales }

/-- The binding of k j (R193). -/
def Wave.bind (w : Wave) (j : Nat) : Binding := Tab.getD 0 j w.binds

/-- The binding of k j written. -/
def Wave.putBind (w : Wave) (j : Nat) (b : Binding) : Wave := { w with binds := Tab.setD 0 j b w.binds }

/-- STALE of a binding (R193). -/
def bindStale (b : Binding) : Bool := b.getLsbD 31

/-- KIND of a binding (R193). -/
def bindKind (b : Binding) : Nat := (bits b 28 3).toNat

/-- INFO of a binding (R193). -/
def bindInfo (b : Binding) : Nat := (bits b 0 25).toNat

/-- The binding with STALE set (R196). -/
def setStale (b : Binding) : Binding := b ||| 0x80000000#32

/-- A fresh binding of a kind and INFO (R193, R194). -/
def mkBind (kind info : Nat) : Binding := BitVec.ofNat 32 (kind * 2 ^ 28 + info % 2 ^ 25)

/-- A lost binding: KIND 0 with STALE 1 (R195). -/
def lostBind : Binding := 0x80000000#32

/-- INFO of a register group: first register, count, and FRAME when the group's registers from v48 to v63 are those of
the consumer frame (R193). -/
def groupInfo (base count : Nat) (frame : Bool) : Nat :=
  base + (count - 1) * 128 + (if frame ∧ base < 64 ∧ 48 < base + count then 1024 else 0)

/-- Whether a register-group binding includes v r of the frame named (R195, R272). -/
def bindHasReg (b : Binding) (r : Nat) (frame : Bool) : Bool :=
  let i := bindInfo b
  bindKind b == 1 && decide (i % 128 ≤ r ∧ r ≤ i % 128 + i / 128 % 8) &&
    (decide (r < 48 ∨ 64 ≤ r) || (decide (i / 1024 % 2 = 1) == frame))

/-- The wave with every register-group binding that includes v r made stale (R196). -/
def Wave.staleReg (w : Wave) (r : Nat) : Wave :=
  { w with binds := w.binds.map fun e => if bindHasReg e.2 r w.landing.mode then (e.1, setStale e.2) else e }

/-- The registers of a register-group binding. -/
def bindRegs (b : Binding) : List Nat :=
  (List.range (bindInfo b / 128 % 8 + 1)).map fun j => bindInfo b % 128 + j

/-- Whether a binding shares a register, a byte or a position with a new one of its KIND (R195). -/
def bindOverlaps (b new : Binding) : Bool :=
  let i := bindInfo b
  let j := bindInfo new
  bindKind b == bindKind new &&
    match bindKind new with
    | 1 => (bindRegs new).any fun r => bindHasReg b r (decide (j / 1024 % 2 = 1))
    | 2 => decide (i % 65536 ≤ j % 65536 + j / 65536 ∧ j % 65536 ≤ i % 65536 + i / 65536)
    | 3 | 4 => decide ((i + 2 ^ 24 - j) % 2 ^ 24 < 32 ∨ (j + 2 ^ 24 - i) % 2 ^ 24 < 32)
    | _ => false

/-- The maker of a binding (R195): every other k register that shares with it loses its binding, and k j takes it. -/
def Wave.makeBind (w : Wave) (j : Nat) (new : Binding) : Wave :=
  let lose := fun (e : Nat × Binding) => if e.1 ≠ j ∧ bindOverlaps e.2 new = true then (e.1, lostBind) else e
  Wave.putBind { w with binds := w.binds.map lose } j new

/-- The registers of a list of writes, each once. -/
def writtenRegs (ws : List RegW) : List Nat := (ws.map (·.1)).dedup

/-- The register writes of one instruction, in order, and the STALE bits they set (R196). -/
def Wave.writeRegs (w : Wave) (ws : List RegW) : Wave :=
  (writtenRegs ws).foldl Wave.staleReg (ws.foldl Wave.put w)

/-- Whether the writes change a register value of a lane in the mask (R142). -/
def Wave.changes (w : Wave) (m : Word) (ws : List RegW) : Bool :=
  ws.any fun x => m.getLsbD x.2.1 && w.reg x.1 x.2.1 != x.2.2

/-! ### The instruction that runs -/

/-- An instruction as it runs: its OP10, its X96 fields (R29), its length in bytes (R26) and its first word. -/
structure Ins where
  op : Nat
  f : XF
  len : Nat
  word : Word
deriving DecidableEq, Repr

/-- An X96 or X160 instruction. -/
def Ins.ofX (op : Nat) (f : XF) : Ins := ⟨op, f, if f.lit.isSome then 20 else 12, packX0 op f⟩

/-- A B32 or B96 instruction, as the X96 instruction it means (R29). -/
def Ins.ofB (op7 : Nat) (f : BF) : Ins :=
  match bRow op7 with
  | none => ⟨0, f.expand ⟨0, false, 0⟩, 4, 0⟩
  | some r => ⟨r.op10, f.expand r, if f.lit.isSome then 12 else 4, (encodeB op7 f).headD 0⟩

/-- A fragment of a mask at an address that has not issued yet, at priority 0 (R132, R278, R279); it counts as having last
issued at cycle 0. Log entry 79. -/
def freshFrag (m : Word) (pc : Dword) (tok : BitVec 16) (cons : Bool) : Frag :=
  { pc := pc, mask := m, tokens := tok, rep := none, prio := 0, wait := .none, waitSince := 0, handler := false,
    cons := cons, launchLane := none, ticket := 0, got := [], spins := [], due := none, lastIssue := 0, readyFor := 0, bpSkip := [],
    held := [], early := [] }

/-- The fragment that issues: its wave's key and value, its index and value, and the instruction. -/
structure Ctx where
  k : Nat
  w : Wave
  i : Nat
  fr : Frag
  ins : Ins
deriving DecidableEq, Repr

/-- The fragment that `cur` names, if it is there. -/
def State.ctx (s : State) (ins : Ins) : Option Ctx :=
  match s.cur with
  | none => none
  | some (k, i) =>
    match Tab.find k s.waves with
    | none => none
    | some w =>
      match w.frags[i]? with
      | none => none
      | some fr => some ⟨k, w, i, fr, ins⟩

/-- The fields of the instruction that runs. -/
abbrev Ctx.f (c : Ctx) : XF := c.ins.f

/-- The signed immediate (R40). -/
def Ctx.simm (c : Ctx) : Int := c.ins.f.imm.toInt

/-- The unsigned immediate (R40). -/
def Ctx.uimm (c : Ctx) : Nat := c.ins.f.imm.toNat

/-- Whether a lane's guard is true (R33). -/
def guardLane (g : Guard) (w : Wave) (l : Nat) : Bool :=
  let t0 := (w.reg g.g0.toNat l).getLsbD 0 != g.gn0
  let t1 := (w.reg g.g1.toNat l).getLsbD 0 != g.gn1
  if !g.ge0 then true else if !g.ge1 then t0 else if g.gop then t0 || t1 else t0 && t1

/-- The enabled lanes, ascending (R33, R35). -/
def Ctx.lanes (c : Ctx) : List Nat := (lanesOf c.fr.mask).filter (guardLane c.f.g c.w)

/-- The lowest enabled lane. -/
def Ctx.low (c : Ctx) : Nat := c.lanes.headD 0

/-- The lane whose sources lane l reads: itself, or the lowest enabled lane with U = 1 (R35). -/
def Ctx.src (c : Ctx) (l : Nat) : Nat := if c.f.u then c.low else l

/-- The lanes that perform an access or a push: the enabled lanes, or the lowest one once with U = 1 (R35). -/
def Ctx.actors (c : Ctx) : List Nat := if c.f.u then c.lanes.take 1 else c.lanes

/-- A trap of a code raised by the instruction, class before, at the fragment's lowest lane (R208, R213). -/
def Ctx.trap (c : Ctx) (code : Nat) : TrapInfo := { code := code, lane := lowLane c.fr.mask }

/-- What an instruction's body answers. -/
inductive Act
  /-- Completed; the fragment goes on at the next instruction. -/
  | next (s : State)
  /-- Completed; the fragment goes on at this address. -/
  | goto (pc : Dword) (s : State)
  /-- The fragment waits and re-executes the instruction from its start (R219). -/
  | wait (w : Wait) (s : State)
  /-- Completed; the body has placed the fragments itself, the one that goes on at the index given, if any. -/
  | moved (i : Option Nat) (s : State)
  /-- Trap, class before: no effect (R208). -/
  | trap (t : TrapInfo)
  /-- Trap, class after: the instruction has completed (R208). -/
  | after (t : TrapInfo) (s : State)

/-! ### Taking a trap and returning from it -/

/-- The cause word of R213. -/
def causeWord (t : TrapInfo) : Word :=
  BitVec.ofNat 8 t.sub ++ BitVec.ofNat 3 t.queue ++ BitVec.ofNat 5 t.kreg ++ BitVec.ofBool t.isAsync ++
    BitVec.ofBool t.write ++ BitVec.ofBool t.redo ++ BitVec.ofNat 5 t.lane ++
    (BitVec.ofNat 8 t.code : BitVec 8)

/-- An error fixed for a launch, unless one is fixed already (R385). -/
def Launch.fixError (status : Nat) (cause : Word) (l : Launch) : Launch :=
  if l.error.isSome then l else { l with error := some (status, cause) }

/-- A fatal trap (R212): the launch takes its status and cause, its cutter dispatches nothing more, and every wave of
every team of the launch stops for good. -/
def State.fatal (w : Wave) (status : Nat) (t : TrapInfo) (s : State) : State :=
  match s.teamOf w with
  | none => s
  | some tm =>
    let s := s.setLaunch tm.launch fun l => { l.fixError status (causeWord t) with stopped := true }
    { s with teams := s.teams.map fun e => if e.2.launch = tm.launch then (e.1, { e.2 with dead := true }) else e }

/-- The codes Leyth always catches (R229). -/
def alwaysCaught (code : Nat) : Bool := decide (0x10 ≤ code ∧ code ≤ 0x12)

/-- Whether Leyth holds the launch's debug context and catches a code (R209, R229). -/
def State.catches (s : State) (w : Wave) (code : Nat) : Bool :=
  match s.launchOf w with
  | none => false
  | some l => l.dbg.taken && (alwaysCaught code || l.dbg.catches.contains code)

/-- The trap vector of a wave's launch (R209). -/
def State.trapVec (s : State) (w : Wave) : Dword := ((s.launchOf w).map (·.desc.trapVec)).getD 0

/-- The address that a handler is entered at: the trap vector, whose bits [1:0] the PC does not take (R26). Log entry 110. -/
def handlerPc (vec : Dword) : Dword := vec &&& ~~~3#64

/-- Entry into the handler: the trap registers take the fragment's PC, mask, tokens and repeat state and the cause; its
tokens become empty, its repeat state none, its PC the vector, and the handler flag is set (R209 step 3). The wave waits no more
without a break (R129). -/
def Wave.enterHandler (i : Nat) (vec : Dword) (t : TrapInfo) (w : Wave) : Wave :=
  match w.frags[i]? with
  | none => w
  | some f =>
    let w := { w with
      trap := { cause := causeWord t, info := t.info, addr := t.addr, pc := f.pc, mask := f.mask, tok := f.tokens,
                rep := f.rep, moved := false, cons := f.cons }
      handlerFlag := true, tretLanes := 0, evictable := false }
    w.setFrag i fun f =>
      { f with tokens := 0, rep := none, pc := handlerPc vec, handler := true, wait := .none, launchLane := none, got := [], due := none,
               bpSkip := [] }

/-- Steps 2 and 3 of R209: fatal without a vector, otherwise the handler. -/
def State.proceedTrap (k i : Nat) (t : TrapInfo) (s : State) : State :=
  match Tab.find k s.waves with
  | none => s
  | some w =>
    if s.trapVec w = 0 then s.fatal w t.code t
    else s.setWave k (·.enterHandler i (s.trapVec w) t)

/-- Taking a trap in fragment i of wave k (R209, R212): DOUBLE_TRAP in a handler; a debug halt where Leyth catches the
code; otherwise the handler, or the launch's end. -/
def State.takeTrap (k i : Nat) (t : TrapInfo) (s : State) : State :=
  match Tab.find k s.waves with
  | none => s
  | some w =>
    if w.handlerFlag then s.fatal w 0x20 t
    else if s.catches w t.code then
      s.setTeam w.team fun tm => { tm with halt := some ⟨t.code, t.info.toNat, k, i, some t⟩, step := none }
    else s.proceedTrap k i t

/-- The trap of an asynchronous fault in a fragment of a mask (R208, R213). -/
def faultTrap (f : AsyncFault) (m : Word) : TrapInfo :=
  { code := f.code, sub := f.sub, queue := f.queue, isAsync := true, redo := false, lane := lowLane m, info := f.info }

/-- Delivery of the oldest pending asynchronous fault to fragment i, at its PC (R15, R143, R211): none while the handler
flag is set. -/
def State.deliverFault (k i : Nat) (s : State) : State :=
  match Tab.find k s.waves with
  | none => s
  | some w =>
    match w.handlerFlag, w.faults, w.frags[i]? with
    | false, f :: rest, some fr =>
      (s.setWave k fun w => { w with faults := rest }).takeTrap k i (faultTrap f fr.mask)
    | _, _, _ => s

/-- The priority of the fragment that TRET creates (R142, R210): that of the one fragment that executed TRET; a fragment
made of several starts at 0. -/
def Wave.tretPrio (w : Wave) : Nat :=
  match w.frags.filter fun f => f.handler && f.wait == .tret with
  | [f] => f.prio
  | _ => 0

/-- The instruction words held for the fragment that TRET creates: those of the first fragment that executed it. Log entry 21. -/
def Wave.tretHeld (w : Wave) : Tab Word :=
  ((w.frags.find? fun f => f.handler && f.wait == .tret).map (·.held)).getD []

/-- Return from a handler once no live handler fragment is left running (R217): one fragment of the lanes that executed
TRET, at trap.pc with the saved tokens and repeat state (none if the handler moved trap.pc); the parked fragments become
ready. With no such lane only the flag is cleared. -/
def Wave.leaveHandler (w : Wave) : Wave :=
  let keep := w.frags.filter fun f => !f.handler
  let w' := { w with handlerFlag := false, trap := TrapRegs.zero, tretLanes := 0, frags := keep }
  if w.tretLanes = 0 then w'
  else
    { w' with frags := keep ++ [{ freshFrag w.tretLanes w.trap.pc w.trap.tok w.trap.cons with
        rep := if w.trap.moved then none else w.trap.rep, prio := w.tretPrio, held := w.tretHeld }] }

/-! ### The frame of an instruction -/

/-- The core's cycle counter after an issue: one cycle and a free number more (R136). -/
def State.tick (core : Nat) (s : State) : State :=
  let n := Config.freeCycles s.frees
  { s.setCore core fun c => { c with clock := c.clock + BitVec.ofNat 64 (1 + n) } with frees := s.frees + 1 }

/-- The opcodes a REP body must not contain (R163): 0x0C0 to 0x0C7, TRAP, TRET, the Landing instructions, LAUNCH. -/
def repForbidden (op : Nat) : Bool :=
  decide (0x0C0 ≤ op ∧ op ≤ 0x0C7) || op == 0x1E0 || op == 0x1E1 || decide (0x2C0 ≤ op ∧ op ≤ 0x2C6) || op == 0x2E0

/-- The place after an instruction that goes on in sequence: the next address, or the start of the body again after the
last instruction of an iteration that is not the last (R163). -/
def advance (f : Frag) (next : Dword) : Dword × Option Rep :=
  match f.rep with
  | none => (next, none)
  | some r =>
    if r.idx + 1 < r.k then (next, some { r with idx := r.idx + 1 })
    else if 1 < r.left.toNat then (r.start, some { r with idx := 0, left := r.left - 1 })
    else (next, none)

/-- The end of a park that fragment i of a wave brought about (R143): the oldest pending fault is delivered to it at its PC;
while it waits at a JOIN, once it goes on after it; while it waits otherwise, or where it ended with the instruction, none is.
Log entry 80. -/
def State.endPark (k i : Nat) (s : State) : State :=
  match (Tab.find k s.waves).bind fun w => w.frags[i]? with
  | none => s
  | some f =>
    match f.wait with
    | .none => s.deliverFault k i
    | .join _ _ => s.setFrag k i fun f => { f with due := ((Tab.find k s.waves).bind fun w => w.faults.head?) }
    | _ => s

/-- The park bit (R21, R143): the wave parks until its outstanding results return; with none outstanding the park
completes at once. A fragment that the instruction ended takes no fault: log entry 80. -/
def State.park (k : Nat) (i : Option Nat) (p : Bool) (s : State) : State :=
  if p then
    match Tab.find k s.waves with
    | none => s
    | some w =>
      if w.outstanding = 0 then (match i with | some j => s.endPark k j | none => s)
      else s.setWave k fun w => { w with parked := some (i.getD 64) }
  else s

/-- A debugger step that this wave's issue completes halts the team again with STEP (R228). -/
def State.endStep (k i : Nat) (w : Wave) (s : State) : State :=
  match s.teamOf w with
  | none => s
  | some t =>
    match t.step with
    | none => s
    | some _ => s.setTeam w.team fun t => { t with step := none, halt := some ⟨0x12, 0, k, i, none⟩ }

/-- A debugger's step of a wave is a step of the fragment whose instruction has begun and waits: no other issues by it (R228). -/
def State.pinStep (_ i : Nat) (w : Wave) (s : State) : State :=
  s.setTeam w.team fun t => { t with step := t.step.map fun p => (p.1, some i) }

/-- The fragment after its instruction has completed and goes on at an address. -/
def Frag.resume (pc : Dword) (rep : Option Rep) (now : Nat) (f : Frag) : Frag :=
  { f with pc := pc, rep := rep, wait := .none, launchLane := none, got := [], lastIssue := now, readyFor := 0,
           bpSkip := [] }

/-- The current cycle of a wave's core, as a number. -/
def State.now (s : State) (k : Nat) : Nat := (s.core (coreOf k)).clock.toNat

/-- The fragment as one whose instruction has issued in a cycle (R140, R141). -/
def Frag.issued (now : Nat) (f : Frag) : Frag := { f with lastIssue := now, readyFor := 0 }

/-- Whether a wait is one under R129. -/
def Wait.counts (wt : Wait) : Bool :=
  match wt with
  | .retry => true
  | .barw _ _ => true
  | .gen => true
  | .held => true
  | .host _ => true
  | _ => false

/-- The fragment put into a wait, which its instruction begins as it issues, unless it is already in one (R129); a wait of R129
restores its priority (R142). -/
def Frag.hold (wt : Wait) (now : Nat) (f : Frag) : Frag :=
  if f.wait = .none then { f.issued now with wait := wt, waitSince := now, prio := if wt.counts then 0 else f.prio }
  else { f with wait := wt, prio := if wt.counts then 0 else f.prio }

/-- A wave of which a fragment has gone on: it has waited no more without a break (R129). -/
def State.stir (k : Nat) (s : State) : State := s.setWave k fun w => { w with evictable := false }

/-- A trap that fragment i of wave k raises as it issues (R209): the issue ends a debugger's step (R228). -/
def State.trapIssue (k i : Nat) (w : Wave) (t : TrapInfo) (s : State) : State :=
  (((s.setFrag k i (·.issued (s.now k))).stir k).endStep k i w).takeTrap k i t

/-- The fragment going on at an address after its instruction, and a debugger step ended. -/
def Ctx.goOn (c : Ctx) (pc : Dword) (rep : Option Rep) (s : State) : State :=
  let s := s.setWave c.k fun w => { w.setFrag c.i (·.resume pc rep (s.now c.k)) with evictable := false }
  s.endStep c.k c.i c.w

/-- The place after the instruction, when it goes on in sequence. -/
def Ctx.after (c : Ctx) : Dword × Option Rep := advance c.fr (c.fr.pc + BitVec.ofNat 64 c.ins.len)

/-- The park bit of an instruction that raises a trap of class after: the wave parks, and nothing more is delivered. -/
def State.parkOnly (k i : Nat) (p : Bool) (s : State) : State :=
  s.setWave k fun w => if p && w.outstanding != 0 then { w with parked := some i } else w

/-- The park of an instruction that has issued and waits (R126, R128, R143): it parks the wave as it begins its wait; a JOIN and a
GNEXT complete a park with nothing outstanding. It parks again when it completes, with its own result. Log entry 80. -/
def State.parkWait (k i : Nat) (wt : Wait) (p : Bool) (s : State) : State :=
  match wt with
  | .join _ _ => s.park k (some i) p
  | .gnext => s.park k (some i) p
  | _ => s.parkOnly k i p

/-- What an instruction's answer makes of the state (R26, R163, R143, R208, R228). One that only moves the fragment elsewhere
leaves its breakpoint passed: a YLD whose overflow has started a batch (R275) does not break again. Log entry 116. A park bit with
which a batch starts delivers a pending fault once the fragments have switched. Log entry 119. -/
def Ctx.finish (c : Ctx) (s : State) : Act → State
  | .next t => (c.goOn c.after.1 c.after.2 t).park c.k (some c.i) c.f.p
  | .goto pc t => (c.goOn pc none t).park c.k (some c.i) c.f.p
  | .wait wt t =>
    ((t.setFrag c.k c.i (·.hold wt (t.now c.k))).pinStep c.k c.i c.w).parkWait c.k c.i wt (c.f.p && c.fr.wait == .none)
  | .moved none t => ((t.stir c.k).endStep c.k c.i c.w).park c.k none c.f.p
  | .moved (some j) t => (((t.setFrag c.k j (·.issued (t.now c.k))).stir c.k).endStep c.k c.i c.w).park c.k (some j) c.f.p
  | .trap t => s.trapIssue c.k c.i c.w t
  | .after t u => ((c.goOn c.after.1 c.after.2 u).takeTrap c.k c.i t).parkOnly c.k c.i c.f.p

/-- Whether an instruction is illegal where it stands: in a REP body (R163), or a SYSW to trap.pc outside a handler (R216). -/
def Ctx.misplaced (c : Ctx) : Bool :=
  (c.fr.rep.isSome && repForbidden c.ins.op) || (c.ins.op == 0x1E4 && c.uimm == 4 && !c.w.handlerFlag)

/-- The checks of R41 that depend on the state, before an instruction's own traps: its place, then the extended row (R32). Log
entry 73. -/
def Ctx.precheck (c : Ctx) : Option TrapInfo :=
  if c.misplaced then some { c.trap 0x02 with info := c.ins.word }
  else
    match lowestExt c.ins.op c.f with
    | none => none
    | some r => if c.w.ext then none else some { c.trap 0x03 with info := BitVec.ofNat 32 r }

/-- An instruction run by the current fragment: the checks, the body, and what its answer makes of the state. -/
def runWave (ins : Ins) (body : Ctx → State → Act) (s : State) : Out :=
  match s.ctx ins with
  | none => .fault .noFragment
  | some c =>
    let s := s.tick (coreOf c.k)
    match c.precheck with
    | some t => .next (c.finish s (.trap t))
    | none => .next (c.finish s (body c s))

/-- Register writes of the instruction that runs: the registers, the STALE bits (R196) and spin detection, which looks at vector
registers alone (R142). Log entry 81. -/
def State.writeRegs (c : Ctx) (ws : List RegW) (s : State) : State :=
  s.setWave c.k fun w =>
    let ch := w.changes c.fr.mask ws
    (w.writeRegs ws).setFrag c.i fun f => if ch then { f with spins := [], prio := 0 } else f

/-- A body that only writes registers. -/
def regBody (g : Ctx → List RegW) (c : Ctx) (s : State) : Act := .next (s.writeRegs c (g c))

/-- A body that computes one value of n words in each enabled lane from the sources of the lane it reads (R35, R145). -/
def laneBody (n : Ctx → Nat) (g : Ctx → Nat → Nat) : Ctx → State → Act :=
  regBody fun c => c.lanes.flatMap fun l => wrVal (n c) c.f.d.toNat l (g c (c.src l))

end Sys2Proof.Machine
end

