-- ==== Sys2Proof/Machine/Operands.lean ====
section
/-! DEFINITION. Operand forms: signed and unsigned readings of a value (R62), operand B in its four forms (R30, R54,
R145), extension of narrow elements (R63). -/

namespace Sys2Proof.Machine

open Sys2Proof

/-- The signed reading of the low w bits of a number (R62). -/
def toSigned (w v : Nat) : Int :=
  let u := v % 2 ^ w
  if u < 2 ^ (w - 1) then (u : Int) else (u : Int) - 2 ^ w

/-- An integer modulo 2^w (R62). -/
def wrap (w : Nat) (z : Int) : Nat := (z % (2 ^ w : Int)).toNat

/-- Whether an integer type is signed (R39). -/
def tySigned (t : BitVec 3) : Bool := decide (t.toNat < 4)

/-- Bytes of an integer type (R39, R62). -/
def tyBytes (t : BitVec 3) : Nat := 2 ^ (t.toNat % 4)

/-- A value of an integer type read as the type's number (R62). -/
def tyRead (t : BitVec 3) (w v : Nat) : Int := if tySigned t then toSigned w v else ((v % 2 ^ w : Nat) : Int)

/-- Operand B of n words at a lane: the literal's low bits (R30), the sign-extended IMM18 of an immediate twin (R54), or
the register (R145). -/
def Ctx.opB (c : Ctx) (n l : Nat) : Nat :=
  match c.f.lit with
  | some v => v.toNat % 2 ^ (32 * n)
  | none => if isTwin c.ins.op then wrap (32 * n) c.simm else c.w.val n c.f.b.toNat l

/-- Operand A of n words. -/
def Ctx.opA (c : Ctx) (n l : Nat) : Nat := c.w.val n c.f.a.toNat l

/-- Operand C of n words. -/
def Ctx.opC (c : Ctx) (n l : Nat) : Nat := c.w.val n c.f.c.toNat l

/-- An element of w bits as it stands in a 32-bit register: sign- or zero-extended (R63). -/
def extend32 (sgn : Bool) (w v : Nat) : Nat := if sgn then wrap 32 (toSigned w v) else v % 2 ^ w

end Sys2Proof.Machine
end

