-- ==== Sys2Proof/Machine/Slice.lean ====
section
/-! DEFINITION. The places of the device and its caches: bytes of memory, the numbers of a partition's stops (R22, R352, R353), the
lines of the L2 slices and of the L1s with their hints (R2, R24, R37, R111), and the triggers that the slices raise (R331 to R334). -/

namespace Sys2Proof.Machine

open Sys2Proof

/-! ### Bytes of memory -/

/-- What an unlisted byte of memory reads as. Log entry 2. -/
def memDefault : Byte := 0

/-- The canonical form of a memory: addresses strictly rising, no entry equal to what an unlisted address reads as. -/
abbrev memWf (m : List Host.Cell) : Prop := Tab.wf memDefault m = true

/-- A byte of memory. -/
def memRead (m : List Host.Cell) (a : Nat) : Byte := Tab.getD memDefault a m

/-- A byte of memory written. -/
def memWrite (m : List Host.Cell) (a : Nat) (v : Byte) : List Host.Cell := Tab.setD memDefault a v m

/-- Consecutive bytes written. -/
def memWrites (m : List Host.Cell) (a : Nat) : List Byte → List Host.Cell
  | [] => m
  | v :: vs => memWrites (memWrite m a v) (a + 1) vs

/-- Consecutive bytes read. -/
def memReads (m : List Host.Cell) (a n : Nat) : List Byte := (List.range n).map fun i => memRead m (a + i)

/-- The little-endian number of a list of bytes (R25). -/
def leNat : List Byte → Nat
  | [] => 0
  | b :: bs => b.toNat + 256 * leNat bs

/-- The n little-endian bytes of a number. -/
def leBytes : Nat → Nat → List Byte
  | 0, _ => []
  | n + 1, v => BitVec.ofNat 8 v :: leBytes n (v / 256)

/-! ### Stops and numbers (R22, R352, R353) -/

/-- The clusters of a partition, ascending in physical order (R22). -/
def State.partClusters (s : State) (p : Nat) : List Nat := (List.range Config.clusters).filter fun c => s.layout.getD c 255 == p

/-- The partition's number of a physical cluster (R22). -/
def State.clusterNum (s : State) (p cl : Nat) : Nat := (s.partClusters p).idxOf cl

/-- The dies of a partition, ascending (R22). -/
def State.partDies (s : State) (p : Nat) : List Nat := ((s.partClusters p).map fun c => c / Config.clustersPerDie).dedup

/-- The partition's number of a physical die (R22). -/
def State.dieNum (s : State) (p die : Nat) : Nat := (s.partDies p).idxOf die

/-- The partition's number of a physical core (R22). -/
def State.coreNum (s : State) (p core : Nat) : Nat :=
  4 * s.clusterNum p (clusterOf core) + core % 4

/-- The stop behind which a physical address lies (log entry 7). -/
def stopOf (pa : Nat) : Nat := pa / 2 ^ 40

/-- The stop number of the host window (log entry 7). -/
def hostStop : Nat := 24

/-- The line of a physical address. -/
def lineOf (pa : Nat) : Nat := pa / 128

/-- The physical address of a byte of host memory (log entry 7). -/
def hostPa (a : Nat) : Nat := hostStop * 2 ^ 40 + a

/-- The partition that a stop's connection register names (R353); none where the stop is not owned. -/
def State.stopPart (s : State) (stop : Nat) : Option Nat := (Tab.find stop s.conns).map (·.2)

/-- Whether a partition owns the stop of a physical address (R353): host-window pages are the host's (R354). -/
def State.ownsStop (s : State) (p pa : Nat) : Bool :=
  stopOf pa == hostStop || (decide (stopOf pa < hostStop) && s.stopPart (64 + stopOf pa) == some p)

/-! ### Class registers and registrations (R331, R332) -/

/-- The number of a class (R336). -/
def TrigClass.num (k : TrigClass) : Nat :=
  match k with
  | .miss => 0
  | .fill => 1
  | .evict => 2
  | .msg => 3

/-- The class of a number. -/
def classOf (n : Nat) : TrigClass :=
  match n with
  | 0 => .miss
  | 1 => .fill
  | 2 => .evict
  | _ => .msg

/-- A class control register. -/
def Cluster.ctl (c : Cluster) (n : Nat) : Word := Tab.getD 0 n c.control

/-- EN of a class control register (R331). -/
def ctlEn (w : Word) : Bool := w.getLsbD 31

/-- CAP. -/
def ctlCap (w : Word) : Nat := (bits w 24 4).toNat

/-- RSV. -/
def ctlRsv (w : Word) : Nat := (bits w 20 4).toNat

/-- BUDGET. -/
def ctlBudget (w : Word) : Nat := (bits w 0 13).toNat

/-- BASE of a registration (R332). -/
def regBase (r : BitVec 256) : Nat := (bits r 192 64).toNat

/-- LEN. -/
def regLen (r : BitVec 256) : Nat := (bits r 128 64).toNat

/-- ENTRY. -/
def regEntry (r : BitVec 256) : Nat := (bits r 96 32).toNat

/-- V. -/
def regValid (r : BitVec 256) : Bool := r.getLsbD 31

/-- The registration of a class that covers a physical line: its ENTRY and the line's virtual address (R332, R333). -/
def Cluster.regFor (c : Cluster) (k line : Nat) : Option (Nat × Nat) :=
  (List.range 16).findSome? fun i =>
    match Tab.find (16 * k + i) c.regs with
    | none => none
    | some (r, ranges) =>
      if !regValid r then none
      else ranges.findSome? fun g =>
        if g.2.1 ≤ 128 * line ∧ 128 * line < g.2.1 + g.2.2 then some (regEntry r, g.1 + (128 * line - g.2.1)) else none

/-! ### The lines of a slice (R2, R111, R333) -/

/-- The hint of a memory access's H field (R37). -/
def hintOf (h : BitVec 4) : Hint :=
  match h.toNat / 4 with
  | 0 => .normal
  | 1 => .stream
  | 2 => .retain
  | _ => .bypass

/-- A line whose memory read a request with a hint has just issued. -/
def SliceLine.asked (hint : Hint) (who : Dword) : SliceLine := ⟨0, false, false, true, false, false, hint, who, none⟩

/-- Whether a line stands in a way of the slice. -/
def SliceLine.placed (l : SliceLine) : Bool := !l.requested && !l.inBuffer

/-- Whether the slice holds a line (R338). -/
def Cluster.present (c : Cluster) (line : Nat) : Bool := ((Tab.find line c.slice).map SliceLine.placed).getD false

/-- A slice line changed. -/
def Cluster.setLine (line : Nat) (g : SliceLine → SliceLine) (c : Cluster) : Cluster :=
  { c with slice := Tab.upd line g c.slice }

/-- A slice line gone. -/
def Cluster.dropLine (line : Nat) (c : Cluster) : Cluster := { c with slice := Tab.del line c.slice }

/-- A counter block (R343). -/
def Cluster.counter (c : Cluster) (k : Nat) : Counters := Tab.getD Counters.zero k c.counters

/-- A counter block changed. -/
def Cluster.setCounter (k : Nat) (g : Counters → Counters) (c : Cluster) : Cluster :=
  { c with counters := Tab.put k (g (c.counter k)) c.counters }

/-- The triggers of a class that wait in its queue. -/
def Cluster.waiting (c : Cluster) (k : TrigClass) : Nat := (c.classQ.filter fun t => t.cls == k).length

/-- A trigger that no longer finds room in its class queue, counted (R334). -/
def Cluster.dropped (k : TrigClass) (c : Cluster) : Cluster := c.setCounter k.num fun x => { x with drops := x.drops + 1 }

/-- An event of a class on a line (R333, R334): a trigger queued, where the class is enabled and a registration covers the
line; dropped where the queue is full. Answers whether it was queued. -/
def Cluster.raise (k : TrigClass) (line : Nat) (arg2 : Dword) (c : Cluster) : Bool × Cluster :=
  match if ctlEn (c.ctl k.num) then c.regFor k.num line else none with
  | none => (false, c)
  | some (e, va) =>
    if 16 ≤ c.waiting k then (false, c.dropped k)
    else (true, { c with classQ := c.classQ ++ [⟨k, e, line, 0, BitVec.ofNat 64 (va / 128 * 128), arg2, none⟩] })

/-- The set of a slice that a line belongs to. Log entry 57. -/
def setOf (line : Nat) : Nat := Config.sliceSet line % Config.sliceSets

/-- The lines of the slice that stand in the set of a line, the line itself apart. -/
def Cluster.setLines (c : Cluster) (line : Nat) : Tab SliceLine :=
  c.slice.filter fun e => e.2.placed && e.1 != line && setOf e.1 == setOf line

/-- Whether every way of a line's set is taken (R2). -/
def Cluster.setFull (c : Cluster) (line : Nat) : Bool :=
  decide (Config.sliceWays ≤ c.slice.length) && decide (Config.sliceWays ≤ (c.setLines line).length)

/-- A list begun at another place. -/
def rotate (n : Nat) (l : List Nat) : List Nat := l.drop (n % l.length) ++ l.take (n % l.length)

/-- The candidates for eviction in a line's set, the first choice first (R111, R333): no held line; the next candidates before the
others, the retained lines last; among equals the place to begin is free. Log entry 57. -/
def Cluster.candidates (f : Nat) (line : Nat) (c : Cluster) : List Nat :=
  let ls := (c.setLines line).filter fun e => e.2.holds == 0
  let pick := fun (g : SliceLine → Bool) => rotate f ((ls.filter fun e => g e.2).map (·.1))
  pick (·.next) ++ pick (fun l => !l.next && l.hint != .retain) ++ pick fun l => !l.next && l.hint == .retain

/-- What AL.ARG 2 reads of an EVICT: whether the slice's copy is dirty (R336). -/
def SliceLine.dirtyBit (l : SliceLine) : Dword := if l.under.isSome then 1 else 0

/-- A line chosen as a victim (R333): an EVICT is raised and holds it, or it is evicted. Answers whether it is gone. The dirty bit
that the EVICT's handler reads is the one of this moment, also after an AL.STW and on a retry. Log entry 114. -/
def Cluster.choose (line : Nat) (c : Cluster) : Bool × Cluster :=
  match Tab.find line c.slice with
  | none => (true, c)
  | some l =>
    let r := if l.noEvict then (false, c) else c.raise .evict line l.dirtyBit
    if r.1 then (false, r.2.setLine line fun l => { l with holds := 1 }) else (true, r.2.dropLine line)

/-- Candidates chosen one after another until one is evicted (R333). Answers whether one was. -/
def Cluster.evictOne : List Nat → Cluster → Bool × Cluster
  | [], c => (false, c)
  | v :: r, c =>
    let x := c.choose v
    if x.1 then x else Cluster.evictOne r x.2

/-- A line that has arrived becomes resident, which raises a FILL that holds it; where every way of its set is held it is not
allocated (R111, R333). -/
def Cluster.allocate (f : Nat) (line : Nat) (c : Cluster) : Cluster :=
  match Tab.find line c.slice with
  | none => c
  | some l =>
    let x := if c.setFull line then Cluster.evictOne (c.candidates f line) c else (true, c)
    if !x.1 then x.2.dropLine line
    else
      let r := x.2.raise .fill line l.who
      r.2.setLine line fun l =>
        { l with holds := if r.1 then 1 else 0, next := l.hint == .stream, requested := false, inBuffer := false, passing := false }

/-- A request that misses: its memory read is issued, and a MISS raised; one that finds the line, or its read in flight, changes
nothing (R333). -/
def Cluster.miss (line : Nat) (hint : Hint) (who : Dword) (c : Cluster) : Cluster :=
  if (Tab.find line c.slice).isSome then c
  else ({ c with slice := Tab.put line (.asked hint who) c.slice }.raise .miss line who).2

/-- A trigger of a class on a line, queued or running. -/
def Cluster.trigOn (c : Cluster) (k : TrigClass) (line : Nat) : Option Trigger :=
  ((c.classQ ++ c.ctxs.map fun e => e.2.trig).find? fun t => t.cls == k && t.line == line)

/-- A requested line arrives (R333): into the miss buffer while its MISS trigger has not ended; past the slice where that has
ended suppressed; otherwise into the slice. -/
def Cluster.arrive (f : Nat) (line : Nat) (c : Cluster) : Cluster :=
  match Tab.find line c.slice with
  | none => c
  | some l =>
    if !l.requested then c
    else if (c.trigOn .miss line).isSome then c.setLine line fun l => { l with requested := false, inBuffer := true }
    else if l.passing then c.dropLine line
    else c.allocate f line

/-- A line whose slice has it written back: another partition or the host has written it, or the host has recalled it (R363). -/
def SliceLine.clean (l : SliceLine) : SliceLine := { l with under := none }

/-- A line that the host takes from the device, or only recalls (R349, R363): its copy in the slice is no longer dirty, and one to
be invalidated leaves the slice, unless a trigger holds it or its read is in flight. Log entry 112. -/
def Cluster.snooped (line : Nat) (inval : Bool) (c : Cluster) : Cluster :=
  match Tab.find line c.slice with
  | none => c
  | some l => if inval && l.placed && l.holds == 0 then c.dropLine line else c.setLine line SliceLine.clean

/-- A line that the slice chooses as a victim in a full set (R333): only the first of the candidates for eviction. -/
def Cluster.victim (line : Nat) (c : Cluster) : Cluster :=
  match Tab.find line c.slice with
  | none => c
  | some l =>
    if l.placed && l.holds == 0 && decide (Config.sliceWays ≤ (c.setLines line).length + 1) &&
        ((c.setLines line).all fun e => e.2.holds != 0 || !(e.2.next && !l.next)) &&
        (l.hint != .retain || l.next || (c.setLines line).all fun e => e.2.holds != 0 || e.2.hint == .retain) then
      (c.choose line).2
    else c

/-- The final end of a trigger with the default action of its class, or with suppression (R333). -/
def Cluster.endTrigger (f : Nat) (t : Trigger) (suppress : Bool) (c : Cluster) : Cluster :=
  match t.cls with
  | .msg => c
  | .miss =>
    match Tab.find t.line c.slice with
    | none => c
    | some l =>
      if l.requested then (if suppress then c.setLine t.line fun l => { l with passing := true } else c)
      else if !l.inBuffer then c
      else if suppress then c.dropLine t.line
      else c.allocate f t.line
  | .fill => c.setLine t.line fun l => { l with holds := l.holds - 1, next := l.next || suppress }
  | .evict =>
    if suppress then c.setLine t.line fun l => { l with holds := l.holds - 1, noEvict := true }
    else c.dropLine t.line

/-! ### Homes and requests (R24, R111, R333) -/

/-- The cluster of a list that a line's hash chooses (R24). Log entry 5. -/
def homeAmong (line : Nat) : List Nat → Nat
  | [] => 0
  | [c] => c
  | cs => cs.getD (Config.homeHash line cs.length % cs.length) 0

/-- The cluster whose slice is the home of a line in a partition (R24). -/
def State.homeOf (s : State) (p line : Nat) : Nat := homeAmong line (s.partClusters p)

/-- The partition that owns a cluster. -/
def State.ownerOf (s : State) (cl : Nat) : Nat := s.layout.getD cl 255

/-- The partition of a request for a line from a core, or, for device memory, of the line's stop (R24, R354). -/
def State.lineOwner (s : State) (line core : Nat) : Nat :=
  if stopOf (128 * line) < hostStop then s.layout.getD (64 + stopOf (128 * line)) 255 else s.ownerOf (clusterOf core)

/-- The clusters in whose slices a line stands with a property: one, but for a line of host memory that several partitions map,
each of which has a home slice for it (R24, R363). -/
def State.slicesWith (s : State) (g : SliceLine → Bool) (line : Nat) : List Nat :=
  (s.clusters.filter fun e => ((Tab.find line e.2.slice).map g).getD false).map (·.1)

/-- One cluster of a list changed in its own turn: among several, a free value picks whose turn it is. -/
def State.onOne (cls : List Nat) (g : Nat → State → State) (s : State) : State :=
  match cls with
  | [] => s
  | [c] => g c s
  | c :: _ => let f := s.free; g (cls.getD (f.1.toNat % cls.length) c) f.2

/-- What AL.ARG 2 reads of a requester of a kind (R336): 0 core, 1 copy engine, 2 AL.FETCH, 3 host. -/
def requester (s : State) (p kind core : Nat) : Dword :=
  BitVec.ofNat 64 (kind + if kind < 2 then s.coreNum p core * 2 ^ 8 else 0)

/-- A request of a kind for a line at its home slice in a partition (R24, R333). -/
def State.ask (p kind core : Nat) (hint : Hint) (line : Nat) (s : State) : State :=
  if 16 ≤ p then s else s.setCluster (s.homeOf p line) (·.miss line hint (requester s p kind core))

/-- A request for a line from a core or a copy engine of a core (R333). -/
def State.request (kind core : Nat) (hint : Hint) (line : Nat) (s : State) : State := s.ask (s.lineOwner line core) kind core hint line

/-- The requests of the host, or of the packet processor on its behalf, for the lines of a range of bytes (R333, R350). Log
entry 101. -/
def State.hostAsk (p pa n : Nat) (s : State) : State :=
  (List.range (lineOf (pa + n - 1) + 1 - lineOf pa)).foldl (fun s i => s.ask p 3 0 .normal (lineOf pa + i)) s

/-- The line that an L1 gives up for another: the first that is not retained, or else the first (R111). -/
def l1Victim (ls : List L1Line) : Nat :=
  match ls.find? fun x => x.hint != .retain with
  | some x => x.line
  | none => (ls.head?.map (·.line)).getD 0

/-- The lines of an L1 after it has made room for one more. -/
def l1Room (ls : List L1Line) : List L1Line :=
  if ls.length < Config.l1Lines then ls else ls.filter fun x => x.line != l1Victim ls

/-- A line allocated in an L1 with a hint (R2, R111): a .stream line goes first, a .bypass line is not allocated and takes no
line's place. Log entry 82. -/
def l1Put (hint : Hint) (line : Nat) (ls : List L1Line) : List L1Line :=
  match hint with
  | .bypass => ls
  | .stream => ⟨line, hint⟩ :: l1Room ls
  | _ => l1Room ls ++ [⟨line, hint⟩]

/-- Whether a core's L1 holds a line. -/
def Core.inL1 (line : Nat) (c : Core) : Bool := c.l1.any fun x => x.line == line

/-- An access of a core to a global line through its L1 for a team (R111, R297, R333): a line that the L1 holds is used;
otherwise it is requested at its home slice and allocated. -/
def State.touch (core team : Nat) (hint : Hint) (line : Nat) (s : State) : State :=
  if (s.core core).inL1 line then s
  else
    (((s.request 0 core hint line).setCore core fun c => { c with l1 := l1Put hint line c.l1 })).setTeam team fun tm =>
      { tm with l2 := tm.l2 + 128 }

/-- A line dropped from a core's L1. -/
def Core.dropL1 (line : Nat) (c : Core) : Core := { c with l1 := c.l1.filter fun x => x.line != line }

/-- A line dropped from every L1 but one core's: what a write by another party does to the copies. -/
def State.dropL1 (keep : Option Nat) (line : Nat) (s : State) : State :=
  { s with cores := s.cores.map fun e => if keep = some e.1 then e else (e.1, e.2.dropL1 line) }

/-! ### Bytes at their home -/

/-- A line as a write at its home leaves it in the slice, or while its read is in flight: dirty, over what memory holds (R333,
R336, R370). -/
def SliceLine.written (old : List Byte) (l : SliceLine) : SliceLine := if l.under = none then { l with under := some old } else l

/-- A line as a write at its home by a party of a partition leaves it in every slice that holds it, or has asked for it: dirty in
those of the partition, or of the owner of the memory it is of, and clean in those of another. Log entry 113. -/
def State.atHome (p line : Nat) (g : List Host.Cell → List Host.Cell) (s : State) : State :=
  let stop := stopOf (128 * line)
  let p := if stop < hostStop then s.layout.getD (64 + stop) 255 else p
  let old := memReads s.mem (128 * line) 128
  { s with
    mem := g s.mem
    clusters := s.clusters.map fun e => (e.1, e.2.setLine line (if s.ownerOf e.1 = p then (·.written old) else SliceLine.clean)) }

/-- Bytes of a line written at its home by a party of a partition. -/
def State.putHome (p pa : Nat) (bs : List Byte) (s : State) : State := s.atHome p (lineOf pa) fun m => memWrites m pa bs

/-- Bytes written at their homes by a party of a partition, over as many lines as they take. -/
def State.putBytesHome (p pa : Nat) (bs : List Byte) (s : State) : State :=
  let ls := (List.range (lineOf (pa + bs.length - 1) + 1 - lineOf pa)).map fun i => lineOf pa + i
  { ls.foldl (fun s l => s.atHome p l id) s with mem := memWrites s.mem pa bs }

end Sys2Proof.Machine
end

