-- ==== Sys2Proof/Machine/Mem.lean ====
section
/-! DEFINITION. Memory: address classes and translation (R96 to R101), scratchpad windows and stash-mapped pages (R101
to R103), the dirty lines of a cluster and their publication (R88 to R91), releases, and instruction fetch (R26). -/

namespace Sys2Proof.Machine

open Sys2Proof

/-! ### Addresses -/

/-- The class of an effective address (R96). -/
inductive AddrClass
  | scratch (t : Nat)
  | global (va : Nat)
  | nonCanonical
deriving DecidableEq, Repr

/-- The class of an address (R96). -/
def classify (ea : Dword) : AddrClass :=
  if bits ea 32 32 = 0xFF000000 then .scratch (bits ea 0 32).toNat
  else if bits ea 56 8 = 0 ∨ bits ea 56 8 = 0xFF then .global ea.toNat
  else .nonCanonical

/-- The aperture address of a team address (R96). -/
def apertureOf (t : Nat) : Dword := BitVec.ofNat 64 (0xFF00000000000000 + t)

/-- Whether an accepted-features bit is set (R377). -/
def State.feature (s : State) (i : Nat) : Bool :=
  match s.accepted with
  | none => false
  | some v => v.getLsbD i

/-- Translation through a partition's tables (R98): the entry and the physical address. A host-window page is as unmapped
without CXL.cache (R377). -/
def State.translate (s : State) (p va : Nat) : Option (Pte × Nat) :=
  match (s.part p).ptes.find? fun e => decide (e.vbase ≤ va ∧ va < e.vbase + e.size) with
  | none => none
  | some e =>
    if stopOf e.pbase = hostStop && !s.feature 0 then none else some (e, e.pbase + (va - e.vbase))

/-- A failed check: trap code, SUB and whether it is a write that failed (R99, R213). -/
structure Bad where
  code : Nat
  sub : Nat := 0
deriving DecidableEq, Repr

/-- The mapping and the permission of a global address (R98, R99). -/
def State.checkGlobal (s : State) (p va : Nat) (rd wr : Bool) : Option Bad :=
  match s.translate p va with
  | none => some ⟨0x05, 1⟩
  | some (e, _) => if (rd && !e.r) || (wr && !e.w) then some ⟨0x06, 0⟩ else none

/-- The page of a team address (R101). -/
def Team.page (tm : Team) (t : Nat) : Page := Tab.getD Page.plain (t / 4096) tm.pages

/-- The line of a stash-mapped page that holds a team address. -/
def Page.line (pg : Page) (t : Nat) : StashLine := Tab.getD StashLine.empty (t % 4096 / 128) pg.lines

/-- The check of a write to a stash-mapped page (R103): write permission of its global page, unless the line is owned. Owned is
taken as dirty: a line that a FLUSH has written back is checked again by its next write. Log entry 115. -/
def State.checkStash (s : State) (p : Nat) (tm : Team) (t : Nat) : Option Bad :=
  match (tm.page t).bound with
  | none => none
  | some (va, _) =>
    if ((tm.page t).line t).dirty.isSome then none
    else
      match s.translate p (va + t % 4096) with
      | none => some ⟨0x06, 0⟩
      | some (e, _) => if e.w then none else some ⟨0x06, 0⟩

/-- One of the four checks of R99 and R100 on an access of n bytes: 0 alignment, 1 class and window, 2 mapping, 3 permission. -/
def State.checkStep (s : State) (p : Nat) (tm : Team) (ea : Dword) (al n : Nat) (rd wr : Bool) (step : Nat) : Option Bad :=
  match step, classify ea with
  | 0, _ => if ea.toNat % al ≠ 0 then some ⟨0x04, 0⟩ else none
  | 1, .nonCanonical => some ⟨0x05, 0⟩
  | 1, .scratch t => if tm.window < t + n then some ⟨0x07, 0⟩ else none
  | 2, .global va => if (s.translate p va).isNone then some ⟨0x05, 1⟩ else none
  | 3, .global va => s.checkGlobal p va rd wr
  | 3, .scratch t => if wr then s.checkStash p tm t else none
  | _, _ => none

/-- The checks of R99 and R100 on one lane's access of n bytes, in their order. -/
def State.checkAccess (s : State) (p : Nat) (tm : Team) (ea : Dword) (al n : Nat) (rd wr : Bool) : Option Bad :=
  (List.range 4).findSome? (s.checkStep p tm ea al n rd wr)

/-! ### Dirty lines of the clusters (R88, R90) -/

/-- The index of the line of a page that stands for a physical line, if the page is bound over it (R103). -/
def Page.covers (pg : Page) (line : Nat) : Option Nat :=
  match pg.bound with
  | none => none
  | some (_, pa) => if lineOf pa ≤ line ∧ line < lineOf pa + 32 then some (line - lineOf pa) else none

/-- The dirty bytes a page holds of a physical line. -/
def Page.dirtyOf (pg : Page) (line : Nat) : Option (List Byte) :=
  match pg.covers line with
  | none => none
  | some j => (Tab.getD StashLine.empty j pg.lines).dirty

/-- Whether a line counts as filled (R103, R108, R109): another party's write, or the unpinning of its page, only takes its copy
away. Log entry 103. -/
def StashLine.had (l : StashLine) : Bool := l.filled || l.away

/-- A filled line after another party's access: a dirty line becomes clean; a write invalidates the copy, also one that the page
would hold were it pinned (R103, R196, R206). -/
def StashLine.yield (wr : Bool) (l : StashLine) : StashLine :=
  { l with dirty := none, filled := l.filled && !wr, away := l.away || wr, invalidated := l.invalidated || wr }

/-- A page after another party's access to a physical line. -/
def Page.yieldLine (line : Nat) (wr : Bool) (pg : Page) : Page :=
  match pg.covers line with
  | none => pg
  | some j =>
    let l := Tab.getD StashLine.empty j pg.lines
    if l.had then { pg with lines := Tab.put j (l.yield wr) pg.lines } else pg

/-- Every page of a team changed, by its number. -/
def Team.mapPages (g : Nat → Page → Page) (tm : Team) : Team :=
  { tm with pages := tm.pages.map fun q => (q.1, g q.1 q.2) }

/-- The copies of a line that a publication by a cluster makes old: those of the other clusters' L1s and stash-mapped pages
(R90, R103, R196). -/
def State.ageCopies (cl line : Nat) (s : State) : State :=
  { s with
    cores := s.cores.map fun e => if clusterOf e.1 = cl then e else (e.1, e.2.dropL1 line)
    teams := s.teams.map fun e =>
      if clusterOf e.2.core = cl then e else (e.1, e.2.mapPages fun _ pg => pg.yieldLine line true) }

/-- A dirty line as written at its home slice. -/
def writeLine (m : List Host.Cell) (line : Nat) (d : DirtyLine) : List Host.Cell :=
  d.bytes.foldl (fun m e => memWrite m (128 * line + e.1) e.2) m

/-- A dirty line of a cluster published to its home slice (R88, R90). -/
def State.publishOne (cl : Nat) (e : Nat × DirtyLine) (s : State) : State :=
  ((s.ageCopies cl e.1).setCluster cl fun c => { c with dirty := Tab.del e.1 c.dirty }).atHome (s.ownerOf cl) e.1
    fun m => writeLine m e.1 e.2

/-- The lines of a list of dirty lines published to their home slices. -/
def State.publishLines (cl : Nat) (ls : Tab DirtyLine) (s : State) : State := ls.foldl (fun s e => s.publishOne cl e) s

/-- The lines of a cluster written at their home after narrow releases (R88), once those up to the r-th have been widened and
a list of dirty lines published: the lines written after one of those have nothing left to wait for, and a published line
written again after a later release waits for that one. -/
def wroteAfter (r : Nat) (ls : Tab DirtyLine) (wrote : Tab Nat) : Tab Nat :=
  (ls.filter fun e => decide (r < e.2.after)).foldl (fun t e => Tab.put e.1 (max e.2.after (Tab.getD 0 e.1 t)) t)
    (wrote.filter fun e => decide (r < e.2))

/-- Publication of a cluster's lines held by narrow releases up to the r-th (R88). -/
def State.publishUpTo (cl r : Nat) (s : State) : State :=
  let ls := (s.cluster cl).dirty.filter fun e => decide (0 < e.2.narrow ∧ e.2.narrow ≤ r)
  (s.publishLines cl ls).setCluster cl fun c => { c with wrote := wroteAfter r ls c.wrote }

/-- Publication of one dirty line of a cluster: first every line held by a narrow release before its last write (R88),
then the line. -/
def State.publishLine (cl line : Nat) (s : State) : State :=
  match Tab.find line (s.cluster cl).dirty with
  | none => s
  | some d =>
    let s := s.publishUpTo cl (max d.narrow d.after)
    match Tab.find line (s.cluster cl).dirty with
    | none => s
    | some d => s.publishLines cl [(line, d)]

/-- Publication of every dirty line of a cluster. -/
def State.publishAll (cl : Nat) (s : State) : State :=
  (s.publishLines cl (s.cluster cl).dirty).setCluster cl fun c => { c with wrote := [] }

/-- A line that a party of a cluster has written at its home, or in a stash-mapped page, after a narrow release of the cluster
(R88, R91). -/
def State.markWrote (cl line : Nat) (s : State) : State :=
  if (s.cluster cl).releases = 0 then s
  else s.setCluster cl fun c => { c with wrote := Tab.put line c.releases c.wrote }

/-- What a cluster must publish before a party outside it accesses a line (R88): the line, where it holds it narrowly or wrote it
after a narrow release, and everything it held narrowly when it wrote it so. -/
def State.widenOne (cl line : Nat) (s : State) : State :=
  let s := match Tab.find line (s.cluster cl).dirty with
    | none => s
    | some d => if 0 < d.narrow ∨ 0 < d.after then s.publishLine cl line else s
  match Tab.find line (s.cluster cl).wrote with
  | none => s
  | some r => s.publishUpTo cl r

/-- A release by a party of a cluster at a scope code (R119): .die or wider publishes every line written before it;
a narrower one leaves the lines narrow-held (R88). -/
def State.release (cl scope : Nat) (s : State) : State :=
  if 3 ≤ scope then s.publishAll cl
  else
    s.setCluster cl fun c =>
      let r := c.releases + 1
      { c with releases := r
               dirty := c.dirty.map fun e => if e.2.narrow = 0 then (e.1, { e.2 with narrow := r }) else e }

/-! ### Stash-mapped pages (R102, R103) -/

/-- Whether a team's page is the one excepted from a recall. -/
def isSelf (self : Option (Nat × Nat)) (t p : Nat) : Bool := self == some (t, p)

/-- A recall of a physical line from every stash-mapped page but the accessing one (R103): dirty copies are written back;
a write invalidates every copy. -/
def State.recallStash (self : Option (Nat × Nat)) (line : Nat) (wr : Bool) (s : State) : State :=
  let held := s.teams.flatMap fun e => e.2.pages.filterMap fun q =>
    if isSelf self e.1 q.1 then none else (q.2.dirtyOf line).map fun bs => (clusterOf e.2.core, bs)
  let s := { s with teams := s.teams.map fun e =>
    (e.1, e.2.mapPages fun p pg => if isSelf self e.1 p then pg else pg.yieldLine line wr) }
  held.foldl (fun s h => s.atHome (s.ownerOf h.1) line fun m => memWrites m (128 * line) h.2) s

/-- The widening of R88 before a party outside a cluster accesses a line: every other cluster publishes what it must. -/
def State.widen (cl : Option Nat) (line : Nat) (s : State) : State :=
  s.clusters.foldl (fun s e => if cl = some e.1 then s else s.widenOne e.1 line) s

/-- A byte as a party of a cluster sees it: the cluster's dirty copy, or the home slice's (R90). -/
def State.seen (s : State) (cl pa : Nat) : Byte :=
  match Tab.find (lineOf pa) (s.cluster cl).dirty with
  | none => memRead s.mem pa
  | some d => (Tab.find (pa % 128) d.bytes).getD (memRead s.mem pa)

/-- Whether a dirty line holds one of n bytes from an address of it on. -/
def DirtyLine.holds (pa n : Nat) (d : DirtyLine) : Bool := (List.range n).any fun i => (Tab.find ((pa + i) % 128) d.bytes).isSome

/-- A dirty line of a cluster that a party of it reads from (R85). -/
def State.markRead (cl pa n : Nat) (s : State) : State :=
  match Tab.find (lineOf pa) (s.cluster cl).dirty with
  | none => s
  | some d =>
    if d.holds pa n && !d.read then
      s.setCluster cl fun c => { c with dirty := Tab.upd (lineOf pa) (fun d => { d with read := true }) c.dirty }
    else s

/-- Bytes of one line read by a party of a cluster. -/
def State.readGlobal (self : Option (Nat × Nat)) (cl pa n : Nat) (s : State) : List Byte × State :=
  let s := (s.recallStash self (lineOf pa) false).widen (some cl) (lineOf pa)
  ((List.range n).map fun i => s.seen cl (pa + i), s.markRead cl pa n)

/-- What a cluster must publish before a party outside it writes n bytes at an address: its own write to one of them, where a
party of the cluster has read it, so that this write stands before the other in coherence order (R81, R85). -/
def State.readOne (cl pa n : Nat) (s : State) : State :=
  match Tab.find (lineOf pa) (s.cluster cl).dirty with
  | none => s
  | some d => if d.read && d.holds pa n then s.publishLine cl (lineOf pa) else s

/-- The writes to n bytes at an address that other clusters than a writing one have read already, published before the write. -/
def State.orderRead (cl pa n : Nat) (s : State) : State :=
  s.clusters.foldl (fun s e => if cl = e.1 then s else s.readOne e.1 pa n) s

/-- Bytes of one line written by a party of a core: they stand in its cluster until published (R90). -/
def State.writeGlobal (core pa : Nat) (bs : List Byte) (s : State) : State :=
  let cl := clusterOf core
  let s := (((s.recallStash none (lineOf pa) true).widen (some cl) (lineOf pa)).orderRead cl pa bs.length).dropL1 (some core)
    (lineOf pa)
  s.setCluster cl fun c =>
    let d := Tab.getD ⟨[], 0, 0, false⟩ (lineOf pa) c.dirty
    let b := (List.range bs.length).foldl (fun b i => Tab.put ((pa + i) % 128) (bs.getD i 0) b) d.bytes
    { c with dirty := Tab.put (lineOf pa) { d with bytes := b, after := c.releases } c.dirty }

/-- Every copy of a physical line brought to its home slice, and every other copy invalidated on a write: what an access performed
at the home slice does first, by a party of a cluster or of none (R88, R91, R113, R345). -/
def State.toHome (cl : Option Nat) (self : Option (Nat × Nat)) (line : Nat) (wr : Bool) (s : State) : State :=
  let s := (s.recallStash self line wr).widen cl line
  let s := s.clusters.foldl (fun s e => s.publishLine e.1 line) s
  if wr then s.dropL1 none line else s

/-! ### Scratchpad -/

/-- Whether a tile binding's range meets the n bytes from team address t (R193, R196). -/
def bindHasByte (b : Binding) (t n : Nat) : Bool :=
  let i := bindInfo b
  let base := 16 * (i % 65536)
  bindKind b == 2 && decide (base < t + n ∧ t < base + 16 * (i / 65536 + 1))

/-- Every binding of a wave changed. -/
def Wave.mapBinds (g : Binding → Binding) (w : Wave) : Wave :=
  { w with binds := w.binds.map fun b => (b.1, g b.2) }

/-- The tile bindings of a team's waves that meet n bytes made stale (R196). -/
def State.staleTile (team t n : Nat) (s : State) : State :=
  { s with waves := s.waves.map fun e =>
      if e.2.team = team then (e.1, e.2.mapBinds fun b => if bindHasByte b t n then setStale b else b) else e }

/-- A page changed, one that is not listed being plain and pinned (R101). -/
def Team.setPage (p : Nat) (g : Page → Page) (tm : Team) : Team :=
  { tm with pages := Tab.put p (g (Tab.getD Page.plain p tm.pages)) tm.pages }

/-- A line of a stash-mapped page changed. -/
def Team.setLine (tm : Team) (t : Nat) (l : StashLine) : Team :=
  let pg := tm.page t
  { tm with pages := Tab.put (t / 4096) { pg with lines := Tab.put (t % 4096 / 128) l pg.lines } tm.pages }

/-- The line of a stash-mapped page that holds team address t, as the page sees it. -/
def State.stashLine (s : State) (team t : Nat) : StashLine :=
  ((Tab.find team s.teams).map fun tm => (tm.page t).line t).getD StashLine.empty

/-- The request of a fill (R103, R111, R333), one like any other with the hint of the access, whoever makes that access: that of a
copy engine, too, is the core's (log entry 105). What other parties hold of the line they publish first (R88, R91). -/
def State.askFill (team t : Nat) (hint : Hint) (tm : Team) (s : State) : State :=
  match (tm.page t).bound with
  | none => s
  | some (_, pa) =>
    let line := lineOf (pa + t % 4096)
    ((s.request 0 tm.core hint line).recallStash (some (team, t / 4096)) line false).widen (some (clusterOf tm.core)) line

/-- The fill of the line that holds team address t, on its first touch (R103); a refill after another party's write makes the tile
bindings over the line stale (R196). -/
def State.fillLine (team t : Nat) (hint : Hint) (s : State) : State :=
  match Tab.find team s.teams with
  | none => s
  | some tm =>
    if ((tm.page t).line t).filled then s
    else
      let s := s.askFill team t hint tm
      let l := s.stashLine team t
      let s := s.setTeam team fun tm =>
        tm.setLine t { l with filled := true, requested := false, invalidated := false, away := false }
      if l.invalidated then s.staleTile team (t / 128 * 128) 128 else s

/-- Bytes read at a team address, in one aligned unit that a line holds: from the window, from a dirty stash line, or
through the line's fill, once the other clusters have published what they must of the line (R88, R101, R103). -/
def State.readScratch (hint : Hint) (cl team t n : Nat) (s : State) : List Byte × State :=
  match Tab.find team s.teams with
  | none => (List.replicate n 0, s)
  | some tm =>
    match (tm.page t).bound with
    | none => ((List.range n).map fun i => Tab.getD 0 (t + i) tm.scratch, s)
    | some (_, pa) =>
      match ((tm.page t).line t).dirty with
      | some bs => ((List.range n).map fun i => bs.getD (t % 128 + i) 0, s)
      | none =>
        let r := s.readGlobal (some (team, t / 4096)) cl (pa + t % 4096) n
        (r.1, r.2.fillLine team t hint)

/-- Bytes of a list replaced from an index on. -/
def spliceBytes (old : List Byte) (i : Nat) (bs : List Byte) : List Byte :=
  old.take i ++ bs ++ old.drop (i + bs.length)

/-- Bytes written into a table of bytes from a key on. -/
def setBytes (t : Nat) (bs : List Byte) (m : Tab Byte) : Tab Byte :=
  (List.range bs.length).foldl (fun m i => Tab.setD 0 (t + i) (bs.getD i 0) m) m

/-- Bytes of the window written. -/
def Team.putBytes (t : Nat) (bs : List Byte) (tm : Team) : Team := { tm with scratch := setBytes t bs tm.scratch }

/-- Bytes written at a team address, in one aligned unit that a line holds; a stash-mapped line is taken into ownership
and becomes dirty (R101, R103). Tile bindings over the bytes become stale (R196). -/
def State.writeScratch (hint : Hint) (team t : Nat) (bs : List Byte) (s : State) : State :=
  match Tab.find team s.teams with
  | none => s
  | some tm =>
    let s := s.staleTile team t bs.length
    match (tm.page t).bound with
    | none =>
      s.setTeam team (·.putBytes t bs)
    | some (_, pa) =>
      let base := t / 128 * 128
      let s := (s.toHome (some (clusterOf tm.core)) (some (team, t / 4096)) (lineOf (pa + t % 4096)) true).markWrote
        (clusterOf tm.core) (lineOf (pa + t % 4096))
      let s := s.fillLine team t hint
      let old := match ((tm.page t).line t).dirty with
        | some old => old
        | none => memReads s.mem (pa + base % 4096) 128
      s.setTeam team fun tm =>
        tm.setLine t { (tm.page t).line t with filled := true, dirty := some (spliceBytes old (t % 128) bs) }

/-- Every line of a page clean (R103). -/
def Page.clean (pg : Page) : Page := { pg with lines := pg.lines.map fun e => (e.1, { e.2 with dirty := none }) }

/-- The write-back of the dirty lines of a team's page (R103, R107); the lines stay filled. -/
def State.writeBackPage (team p : Nat) (s : State) : State :=
  match Tab.find team s.teams with
  | none => s
  | some tm =>
    match (Tab.getD Page.plain p tm.pages).bound with
    | none => s
    | some (_, pa) =>
      let put := fun (s : State) (e : Nat × StashLine) =>
        match e.2.dirty with
        | none => s
        | some bs => s.putHome (s.ownerOf (clusterOf tm.core)) (pa + 128 * e.1) bs
      ((Tab.getD Page.plain p tm.pages).lines.foldl put s).setTeam team (·.setPage p Page.clean)

/-! ### Halts and claims (R219, R304) -/

/-- A fragment that stops before the instruction it waits in, to execute it from its start (R128, R219, R283). A BARA whose
arrival is held, a host request that has been sent and a TRET have taken effect: they wait on. -/
def Frag.restart (f : Frag) : Frag :=
  match f.wait with
  | .held => f
  | .host _ => f
  | .tret => f
  | .stopped _ => f
  | _ => { f with wait := .none, got := [], due := none }

/-- Every fragment of a wave restarted. -/
def Wave.restart (w : Wave) : Wave := { w with frags := w.frags.map Frag.restart }

/-- The fragments of a halted or parked team restarted: no wave of it that is there has waited without a break (R129). -/
def State.restartWaits (team : Nat) (s : State) : State :=
  { s with waves := s.waves.map fun e =>
      if e.2.team = team then (e.1, { e.2.restart with evictable := e.2.evictable && e.2.spilt }) else e }

/-- The teams of a launch parked: every wave halted at its instruction boundary (R219, R304). -/
def State.parkTeams (l : Nat) (s : State) : State :=
  let ts := (s.teams.filter fun e => e.2.launch == l).map (·.1)
  ts.foldl (fun s t => (s.setTeam t fun tm => { tm with parked := true }).restartWaits t) s

/-- A claim on a running team of a co-resident launch parks all of its teams (R304). -/
def State.claimOn (team : Nat) (s : State) : State :=
  match (Tab.find team s.teams).bind fun tm => (Tab.find tm.launch s.launches).map fun la => (tm, la) with
  | none => s
  | some (tm, la) => if la.desc.cores && !tm.parked then s.parkTeams tm.launch else s

/-! ### Pinned pages (R101, R102) -/

/-- Whether a team's pages can be claimed (R102, R221): it is parked, or its waves have all waited past the threshold. -/
def State.yields (s : State) (t : Nat) (tm : Team) : Bool :=
  let ws := s.waves.filter fun e => e.2.team == t
  tm.parked || (!ws.isEmpty && ws.all fun e => e.2.evictable)

/-- Pinned pages that the teams of a core hold (R101, R102). -/
def State.pinnedOn (s : State) (core : Nat) : Nat :=
  s.teams.foldl (fun n e =>
    if e.2.core = core then n + (e.2.window / 4096 - (e.2.pages.filter fun q => !q.2.pinned).length) else n) 0

/-- The pinned pages of a core that can be claimed, by team and page. -/
def State.claimPages (s : State) (core : Nat) : List (Nat × Nat) :=
  s.teams.flatMap fun e =>
    if e.2.core = core ∧ s.yields e.1 e.2 then
      ((List.range (e.2.window / 4096)).filter fun p => (Tab.getD Page.plain p e.2.pages).pinned).map fun p => (e.1, p)
    else []

/-- A line of a stash-mapped page as an unpinning leaves it: it refills on touch (R102). -/
def StashLine.unpinned (l : StashLine) : StashLine := if l.filled then { l with filled := false, away := true } else l

/-- A page unpinned, its dirty lines written back (R102). -/
def Page.unpin (pg : Page) : Page := { pg with pinned := false, lines := pg.lines.map fun e => (e.1, e.2.unpinned) }

/-- A page unpinned for a claim (R102, R304): the dirty lines of a stash-mapped page are written back. -/
def State.unpin (x : Nat × Nat) (s : State) : State :=
  ((s.writeBackPage x.1 x.2).setTeam x.1 (·.setPage x.2 Page.unpin)).claimOn x.1

/-! ### Claims on waves (R129, R221) -/

/-- Whether a resident wave's resources can be claimed (R129, R221): its team is parked, or it has waited past the threshold. -/
def State.claimable (s : State) (w : Wave) : Bool := w.evictable || ((s.teamOf w).map (·.parked)).getD false

/-- A wave spilt for a claim (R221): what it waits in begins again from its start (R128). -/
def State.spillWave (k : Nat) (s : State) : State :=
  match Tab.find k s.waves with
  | none => s
  | some w => (s.setWave k fun w => { w.restart with spilt := true }).claimOn w.team

/-- Whether a page is not pinned. -/
def Team.away (tm : Team) (p : Nat) : Bool := !(Tab.getD Page.plain p tm.pages).pinned

/-- Whether a running team can pin again the pages of a list of team addresses (R102): the core's 256 pages have room for them, or
pages that others give up make it. -/
def State.canPin (s : State) (team : Nat) (ts : List Nat) : Bool :=
  match Tab.find team s.teams with
  | none => true
  | some tm =>
    let ps := ((ts.map fun t => t / 4096).filter tm.away).dedup
    ps.isEmpty || decide (s.pinnedOn tm.core + ps.length ≤
      Config.scratchPages + ((s.claimPages tm.core).filter fun x => x.1 != team).length)

/-- The page of a team address pinned, as an access by a wave or a matrix command does (R102); a page that another team gives up
makes room for it. -/
def State.pin (team t : Nat) (s : State) : State :=
  match Tab.find team s.teams with
  | none => s
  | some tm =>
    if !tm.away (t / 4096) then s
    else
      let s := match (s.claimPages tm.core).find? fun x => x.1 != team with
        | none => s
        | some x => if s.pinnedOn tm.core < Config.scratchPages then s else s.unpin x
      s.setTeam team (·.setPage (t / 4096) fun pg => { pg with pinned := true })

/-! ### Accesses of a party -/

/-- The party of an access (R80, R336): its partition, its core, its team's key, whether it is a copy engine of the core, the hint
of the access (R37), and the lanes of a wave or the matrix engine that it is, as a writer of loose writes. -/
structure Who where
  part : Nat
  core : Nat
  team : Nat
  engine : Bool := false
  hint : Hint := .normal
  me : Option (Nat × Word) := none
deriving DecidableEq, Repr

/-- The cluster of a party. -/
abbrev Who.cl (who : Who) : Nat := clusterOf who.core

/-- The request that a party's access to a line makes (R111, R333): a wave's through the L1 of its core, a copy engine's at
once. -/
def State.reach (who : Who) (line : Nat) (s : State) : State :=
  if who.engine then s.request 1 who.core who.hint line else s.touch who.core who.team who.hint line

/-! ### Locations, and the writes that no release has followed (R81, R86) -/

/-- Whether two ranges of bytes meet. -/
def meets (a n b m : Nat) : Bool := decide (a < b + m ∧ b < a + n)

/-- The location of a byte of a team's window, beyond the physical addresses. -/
def windowLoc (team t : Nat) : Nat := 2 ^ 60 + team * 2 ^ 32 + t

/-- The location that a checked address of a party names (R81): a physical address, also through a stash-mapped page, or a
byte of its team's window. -/
def State.locOf (s : State) (who : Who) (ea : Dword) : Nat :=
  match classify ea with
  | .global va => ((s.translate who.part va).map (·.2)).getD 0
  | .scratch t =>
    match (Tab.find who.team s.teams).bind fun tm => (tm.page t).bound with
    | some (_, pa) => pa + t % 4096
    | none => windowLoc who.team t
  | .nonCanonical => 0

/-- The loose writes to n bytes at a location overtaken by another write there. -/
def State.unloose (loc n : Nat) (s : State) : State :=
  { s with loose := s.loose.filter fun x => !meets x.loc x.old.length loc n }

/-- A release by lanes of a wave, or by an engine: the loose writes of theirs are loose no more (R84, R86). -/
def State.firm (k : Nat) (m : Word) (s : State) : State :=
  { s with loose := s.loose.filter fun x => !x.writers.any fun y => y.1 == k && y.2 &&& m != 0 }

/-- The cluster of a writer of loose writes. -/
def writerCluster (y : Nat × Word) : Nat := clusterOf (coreOf y.1)

/-- Whether a loose write has reached no party outside the clusters of its writers: its bytes are dirty there (R90). -/
def State.inside (s : State) (x : Loose) : Bool :=
  x.writers.all fun y =>
    match Tab.find (lineOf x.loc) (s.cluster (writerCluster y)).dirty with
    | none => false
    | some d => d.holds x.loc x.old.length

/-- What a read of a loose write by a party leaves of it: a party of the writers' cluster is from then on one whose release
publishes it; for a party outside it has happened, and so it has for every other (R90); one that has not left its cluster, and is
not read at the home slice, the party has not read. -/
def Loose.readBy (s : State) (who : Who) (home : Bool) (x : Loose) : Option Loose :=
  if x.writers.all fun y => writerCluster y == who.cl then
    who.me.map fun m => if x.writers.contains m then x else { x with writers := m :: x.writers }
  else if !home && s.inside x then some x
  else none

/-- A read by a party of n bytes at a location, at the home slice or where the party finds them. Log entry 19. -/
def State.observe (who : Who) (home : Bool) (loc n : Nat) (s : State) : State :=
  if s.loose.isEmpty then s
  else { s with loose := s.loose.filterMap fun x => if meets x.loc x.old.length loc n then x.readBy s who home else some x }

/-- Whether a read ahead still reads what stands below a loose write: no write between it and now that a release has followed. -/
def Loose.hides (x : Loose) (e : Early) : Bool :=
  decide (x.loc ≤ e.loc ∧ e.loc + e.n ≤ x.loc + x.old.length) && leNat ((x.old.drop (e.loc - x.loc)).take e.n) == e.v

/-- Whether a fragment has read ahead one of n bytes at a location. -/
def State.readEarly (s : State) (loc n : Nat) : Bool :=
  s.waves.any fun e => e.2.frags.any fun f => f.early.any fun x => meets x.2.loc x.2.n loc n

/-- A write of a party to n bytes at an address, performed in the state b, noted as loose where it is over a read ahead. Log
entry 19. -/
def State.loosen (s b : State) (writer : Nat × Word) (who : Who) (ea : Dword) (n old : Nat) : State :=
  let loc := b.locOf who ea
  if b.readEarly loc n then
    let was := b.loose.find? fun x => x.loc == loc && x.old.length == n
    { s with loose := ⟨loc, (was.map (·.old)).getD (leBytes n old), writer :: (was.map (·.writers)).getD []⟩ :: s.loose }
  else s

/-- The read of n bytes at a checked address, without what it tells of loose writes. -/
def State.fetchBytes (who : Who) (ea : Dword) (n : Nat) (s : State) : Nat × State :=
  match classify ea with
  | .scratch t =>
    let r := (s.pin who.team t).readScratch who.hint who.cl who.team t n
    (leNat r.1, r.2)
  | .global va =>
    match s.translate who.part va with
    | none => (0, s)
    | some (_, pa) =>
      let r := (s.reach who (lineOf pa)).readGlobal none who.cl pa n
      (leNat r.1, r.2)
  | .nonCanonical => (0, s)

/-- A single-copy atomic read of n bytes at a checked address (R80). -/
def State.load (who : Who) (ea : Dword) (n : Nat) (s : State) : Nat × State :=
  let r := s.fetchBytes who ea n
  (r.1, r.2.observe who false (s.locOf who ea) n)

/-- A single-copy atomic write of n bytes at a checked address (R80). -/
def State.store (who : Who) (ea : Dword) (n v : Nat) (s : State) : State :=
  let s := s.unloose (s.locOf who ea) n
  match classify ea with
  | .scratch t => (s.pin who.team t).writeScratch who.hint who.team t (leBytes n v)
  | .global va =>
    match s.translate who.part va with
    | none => s
    | some (_, pa) => (s.reach who (lineOf pa)).writeGlobal who.core pa (leBytes n v)
  | .nonCanonical => s

/-- A store of n bytes by a writer; over a read ahead it is loose until a release of the writer follows (R86). -/
def State.storeLoose (writer : Nat × Word) (who : Who) (ea : Dword) (n v : Nat) (s : State) : State :=
  (s.store who ea n v).loosen s writer who ea n (s.fetchBytes who ea n).1

/-- The name of a core's matrix engine among the writers of loose writes. -/
def engineKey (core : Nat) : Nat := 12288 * 2 ^ 32 + Config.slotsPerCore * core

/-- A read-modify-write of n bytes at a checked address, indivisible (R81, R113): at the home slice for global memory, at
the core for scratchpad. Answers the old value. -/
def State.rmw (who : Who) (ea : Dword) (n : Nat) (g : Nat → Nat) (s : State) : Nat × State :=
  let s := s.unloose (s.locOf who ea) n
  match classify ea with
  | .scratch t =>
    let r := (s.pin who.team t).readScratch who.hint who.cl who.team t n
    (leNat r.1, r.2.writeScratch who.hint who.team t (leBytes n (g (leNat r.1))))
  | .global va =>
    match s.translate who.part va with
    | none => (0, s)
    | some (_, pa) =>
      let s := (s.request 0 who.core who.hint (lineOf pa)).toHome (some who.cl) none (lineOf pa) true
      let old := leNat (memReads s.mem pa n)
      (old, (s.putHome (s.ownerOf who.cl) pa (leBytes n (g old))).markWrote who.cl (lineOf pa))
  | .nonCanonical => (0, s)

/-- Whether an access touches a poisoned line (R370). -/
def State.poisoned (s : State) (p : Nat) (ea : Dword) : Bool :=
  match classify ea with
  | .global va =>
    match s.translate p va with
    | none => false
    | some (_, pa) => s.poison.contains (lineOf pa)
  | _ => false

/-- A partition fault found: nothing of the partition runs until it is answered; one found during a REPART is applied once
that has ended (R370). -/
def State.foundFault (p : Nat) (s : State) : State :=
  match s.repart with
  | none => s.setPart p fun t => { t with faulting := true }
  | some r => if r.faults.contains p then s else { s with repart := some { r with faults := r.faults ++ [p] } }

/-- Whether a request to a global address is a partition fault (R353, R370): a stop blocks it, or it reads a poisoned line. -/
def State.packetBreaks (s : State) (p : Nat) (a : Dword) (rd : Bool) : Bool :=
  match classify a with
  | .global va =>
    match s.translate p va with
    | none => false
    | some (_, pa) => !s.ownsStop p pa || (rd && s.poison.contains (lineOf pa))
  | _ => false

/-! ### Accesses at the home -/

/-- Every copy of the lines of a range of bytes brought home, and invalidated for a write. -/
def State.homeRange (pa n : Nat) (wr : Bool) (s : State) : State :=
  (List.range (lineOf (pa + n - 1) + 1 - lineOf pa)).foldl (fun s i => s.toHome none none (lineOf pa + i) wr) s

/-- Bytes written at their homes for a partition by a party of no cluster: the host, the packet processor, a peer. -/
def State.homeWrite (p pa : Nat) (bs : List Byte) (s : State) : State :=
  if bs.isEmpty then s else
  ((s.homeRange pa bs.length true).putBytesHome p pa bs).unloose pa bs.length

/-- Bytes read at their homes by a party of no cluster: the writes that it reads have happened for every party (R90). -/
def State.homeRead (pa n : Nat) (s : State) : List Byte × State :=
  if n = 0 then ([], s) else
  let s := s.homeRange pa n false
  (memReads s.mem pa n, s.unloose pa n)

/-! ### Instruction fetch -/

/-- What fetching a word answers (R26). -/
inductive Fetched
  | word (w : Word)
  | bad (code sub : Nat)
deriving DecidableEq, Repr

/-- The word at an address, fetched for a fragment of a party (R26, R218): the word held for it where there is one, else the word
in memory; the scratchpad aperture and unmapped pages are TRANSLATION 2, a non-canonical address TRANSLATION 3, a page
without execute permission PERMISSION. Log entry 21. -/
def State.fetchWord (s : State) (who : Who) (held : Tab Word) (a : Dword) : Fetched :=
  match classify a with
  | .scratch _ => .bad 0x05 2
  | .nonCanonical => .bad 0x05 3
  | .global va =>
    match s.translate who.part va with
    | none => .bad 0x05 2
    | some (e, pa) =>
      if e.x then
        .word ((Tab.find a.toNat held).getD (BitVec.ofNat 32 (leNat ((List.range 4).map fun i => s.seen who.cl (pa + i)))))
      else .bad 0x06 0

/-- The words from an address on, as many as there are; or the first that fails, with its address (R26). -/
def State.fetchWords (s : State) (who : Who) (held : Tab Word) : Dword → Nat → Except (Nat × Nat × Dword) (List Word)
  | _, 0 => .ok []
  | a, n + 1 =>
    match s.fetchWord who held a with
    | .bad c u => .error (c, u, a)
    | .word w =>
      match s.fetchWords who held (a + 4) n with
      | .error e => .error e
      | .ok ws => .ok (w :: ws)

/-- The line of the word at an address, unless the word is held, requested and brought to where a load would find it (R218,
R333). -/
def State.prepWord (who : Who) (held : Tab Word) (a : Dword) (s : State) : State :=
  match Tab.find a.toNat held, classify a with
  | none, .global va =>
    match s.translate who.part va with
    | none => s
    | some (_, pa) =>
      ((s.request 0 who.core .normal (lineOf pa)).recallStash none (lineOf pa) false).widen (some who.cl) (lineOf pa)
  | _, _ => s

/-- The lines of the words of the instruction at an address made ready to be fetched (R26, R218). -/
def State.fetchPrep (who : Who) (held : Tab Word) (pc : Dword) (s : State) : State :=
  let s := s.prepWord who held pc
  match s.fetchWord who held pc with
  | .bad _ _ => s
  | .word w => (List.range (instrWords w - 1)).foldl (fun s j => s.prepWord who held (pc + BitVec.ofNat 64 (4 * (j + 1)))) s

/-- Whether fetching the word at an address is a partition fault (R353, R370): a word held already is not read again. -/
def State.fetchBreaks (s : State) (who : Who) (held : Tab Word) (a : Dword) : Bool :=
  (Tab.find a.toNat held).isNone && s.packetBreaks who.part a true

/-- The party of a wave's instruction. -/
def State.whoOf (s : State) (k : Nat) (w : Wave) : Who := { part := s.partOf w, core := coreOf k, team := w.team }

/-- A release by the fragment that issues, at a scope code (R84, R119): its loose writes are loose no more. -/
def Ctx.release (c : Ctx) (scope : Nat) (s : State) : State :=
  (s.release (clusterOf (coreOf c.k)) scope).firm c.k c.fr.mask

/-- The party of the instruction that runs, with its hint (R37). -/
def Ctx.who (c : Ctx) (s : State) : Who := { s.whoOf c.k c.w with hint := hintOf c.f.h, me := some (c.k, c.fr.mask) }

end Sys2Proof.Machine
end

