-- ==== Sys2Proof/Machine/Bar.lean ====
section
/-! DEFINITION. Barrier objects and arrivals: the object's four fields, the check after every update, held arrivals and
the arrival records of waves (R120 to R124). -/

namespace Sys2Proof.Machine

open Sys2Proof

/-- A barrier object (R120). -/
structure Bar where
  phase : Nat
  pending : Nat
  expect : Nat
  pbytes : Int
deriving DecidableEq, Repr

/-- The object at a team address (R120). -/
def Team.bar (tm : Team) (t : Nat) : Bar :=
  let n := fun i k => leNat ((List.range k).map fun j => Tab.getD 0 (t + i + j) tm.scratch)
  ⟨n 0 4, n 4 2, n 6 2, toSigned 64 (n 8 8)⟩

/-- The sixteen bytes of an object (R120). -/
def Bar.bytes (b : Bar) : List Byte :=
  leBytes 4 b.phase ++ leBytes 2 b.pending ++ leBytes 2 b.expect ++ leBytes 8 (wrap 64 b.pbytes)

/-- An object written: one indivisible update, which makes tile bindings over it stale (R121, R196). -/
def State.putBar (team t : Nat) (b : Bar) (s : State) : State :=
  ((s.staleTile team t 16).unloose (windowLoc team t) 16).setTeam team (·.putBytes t b.bytes)

/-- The object of a team. -/
def State.bar (s : State) (team t : Nat) : Bar :=
  match Tab.find team s.teams with
  | none => ⟨0, 0, 0, 0⟩
  | some tm => tm.bar t

/-- Whether the phase completes (R122). -/
def Bar.done (b : Bar) : Bool := b.expect != 0 && b.pending == 0 && decide (b.pbytes = 0)

/-- The object after its phase has completed (R122). -/
def Bar.turn (b : Bar) : Bar := { b with phase := (b.phase + 1) % 2 ^ 32, pending := b.expect }

/-- An arrival that finds no place is held (R122). -/
def Bar.holds (b : Bar) : Bool := b.pending == 0 || b.expect == 0

/-- The matrix engine's FIFO goes on past its held head (R122). -/
def Mx.advance (m : Mx) : Mx := { m with fifo := m.fifo.drop 1, headHeld := false, tile := none, ahead := [] }

/-- The matrix engine's state of a team on a core, live or spilt (R265), changed. -/
def Core.mxOf (team : Nat) (g : Mx → Mx) (c : Core) : Core :=
  if c.mx.holder = some team then { c with mx := g c.mx } else { c with mxSpilt := Tab.upd team g c.mxSpilt }

/-- An arrival of a holder on an object is counted: a wave's record closes; the matrix engine's FIFO goes on. -/
def State.counted (core team t : Nat) (h : Holder) (s : State) : State :=
  match h with
  | .wave k =>
    s.setWave k fun w =>
      if w.team = team then { w with arrivals := w.arrivals.filter fun r => r.obj != t } else w
  | .matrix => s.setCore core (·.mxOf team Mx.advance)

/-- The holds of a team. -/
def State.holds (s : State) (team : Nat) : List Hold := ((Tab.find team s.teams).map (·.holds)).getD []

/-- The first hold on an object, of those for EXPECT = 0 or of the others, taken out of the hold list. -/
def takeHold (t : Nat) (uninit : Bool) : List Hold → Option (Hold × List Hold)
  | [] => none
  | h :: r =>
    if h.obj = t ∧ h.uninit = uninit then some (h, r)
    else
      match takeHold t uninit r with
      | none => none
      | some (g, r') => some (g, h :: r')

/-- Whether a phase has completed (R126). -/
def phasePast (phase p : Word) : Bool := decide (0 < (phase - p).toInt)

/-- A fragment waiting in BARW on an object whose phase is past the one it waits for, woken (R122, R126). -/
def Frag.wake (t : Nat) (phase : Word) (f : Frag) : Frag :=
  match f.wait with
  | .barw u p => if u = t ∧ phasePast phase p = true then { f with wait := .retry } else f
  | _ => f

/-- The fragments of a team that wait in BARW on an object woken after an update of it (R122 line 4, R126, R127). -/
def State.wakeBarw (team t : Nat) (s : State) : State :=
  let ph : Word := BitVec.ofNat 32 (s.bar team t).phase
  { s with waves := s.waves.map fun e =>
      if e.2.team = team then (e.1, { e.2 with frags := e.2.frags.map (·.wake t ph) }) else e }

/-- The phase of an object completes (R122). -/
def State.turnBar (team t : Nat) (s : State) : State := s.putBar team t (s.bar team t).turn

/-- The check of R122. -/
def State.checkBar (team t : Nat) (s : State) : State := if (s.bar team t).done then s.turnBar team t else s

/-- A held arrival counted, with the check of R122. -/
def State.countHold (core team t : Nat) (h : Hold) (rest : List Hold) (s : State) : State :=
  let s := (s.setTeam team fun tm => { tm with holds := rest }).counted core team t h.who
  let b := s.bar team t
  (s.putBar team t { b with pending := b.pending - 1 }).checkBar team t

/-- The arrivals on an object held for PENDING = 0 that a completed phase lets in, in hold order (R122). The number bounds the
holds. -/
def State.letIn (core team t : Nat) : Nat → State → State
  | 0, s => s
  | n + 1, s =>
    if (s.bar team t).holds then s
    else
      match takeHold t false (s.holds team) with
      | none => s
      | some (h, rest) => State.letIn core team t n (s.countHold core team t h rest)

/-- The check of R122 after an update of an object, and the held arrivals that a completed phase lets in. -/
def State.settleBar (core team t : Nat) (s : State) : State :=
  if (s.bar team t).done then (s.turnBar team t).letIn core team t (s.holds team).length else s

/-- An update of an object by a barrier instruction, a byte count or an arrival, with the check of R122 and what it wakes. -/
def State.updateBar (core team t : Nat) (g : Bar → Bar) (s : State) : State :=
  ((s.putBar team t (g (s.bar team t))).settleBar core team t).wakeBarw team t

/-- The arrivals on an object held for EXPECT = 0 that a BARI releases, in hold order, each followed by the check of R122 (R123).
The number bounds the holds. -/
def State.letInit (core team t : Nat) : Nat → State → State
  | 0, s => s
  | n + 1, s =>
    match takeHold t true (s.holds team) with
    | none => s
    | some (h, rest) =>
      let s := (s.setTeam team fun tm => { tm with holds := rest }).counted core team t h.who
      State.letInit core team t n (s.updateBar core team t fun b => { b with pending := b.pending - 1 })

/-- PBYTES lowered by a number of bytes, one at a time, each with the check of R122 (R125). -/
def State.countBytes (core team t : Nat) : Nat → State → State
  | 0, s => s
  | n + 1, s => State.countBytes core team t n (s.updateBar core team t fun b => { b with pbytes := b.pbytes - 1 })

/-- One arrival on an object: counted, or held (R122). -/
def State.arrive (core team t : Nat) (h : Holder) (s : State) : State :=
  let b := s.bar team t
  if b.holds then s.setTeam team fun tm => { tm with holds := tm.holds ++ [⟨t, h, b.expect == 0⟩] }
  else (s.counted core team t h).updateBar core team t fun b => { b with pending := b.pending - 1 }

/-- Whether a wave's arrival on an object is held. -/
def State.isHeld (s : State) (team t k : Nat) : Bool := (s.holds team).any fun h => h.obj == t && h.who == Holder.wave k

/-- The arrival records of a wave that are complete: every live fragment has executed BARA on the object, or exited
(R124); those not already held are counted now. -/
def State.countArrivals (k : Nat) (s : State) : State :=
  match Tab.find k s.waves with
  | none => s
  | some w =>
    (w.arrivals.filter fun r => w.live &&& ~~~r.lanes == 0 && !s.isHeld w.team r.obj k).foldl
      (fun s r => s.arrive (coreOf k) w.team r.obj (.wave k)) s

end Sys2Proof.Machine
end

