-- ==== Sys2Proof/Machine/Frags.lean ====
section
/-! DEFINITION. The fragments of a wave together: which set is active, merging at JOIN, the end of a handler, and the exit
of a wave (R132, R161, R165, R209, R217, R273). -/

namespace Sys2Proof.Machine

open Sys2Proof

/-- Whether a fragment belongs to the set that issues: the handler fragments in a handler (R209), the set of the current
mode in a generator region (R273), every fragment otherwise. -/
def Wave.active (w : Wave) (f : Frag) : Bool :=
  if w.handlerFlag then f.handler else if w.landing.inReg then f.cons == w.landing.mode else true

/-- The index of the active fragment that holds a lane. -/
def Wave.fragAt (w : Wave) (l : Nat) : Option Nat := w.frags.findIdx? fun f => w.active f && f.mask.getLsbD l

/-- Whether a fragment waits at a JOIN with token t. -/
def Frag.atJoin (t : Nat) (f : Frag) : Bool :=
  match f.wait with
  | .join u _ => u == t
  | _ => false

/-- The address after the JOIN a fragment waits at. -/
def Frag.joinNext (f : Frag) : Dword :=
  match f.wait with
  | .join _ n => n
  | _ => f.pc

/-- The fragment that a group of fragments waiting at one JOIN t becomes (R161): the union of masks, the union of token
sets without t, after the JOIN, at priority 0; it last issued when the last of them did. A fragment alone is such a group (log
entry 92). -/
def mergeGroup (t : Nat) (f : Frag) (g : List Frag) : Frag :=
  { f with
    mask := g.foldl (fun m x => m ||| x.mask) 0
    tokens := g.foldl (fun m x => m ||| x.tokens) 0 &&& ~~~(1#16 <<< t)
    pc := f.joinNext, prio := 0, rep := none, wait := .none, spins := [], due := g.findSome? (·.due), early := []
    lastIssue := g.foldl (fun n x => max n x.lastIssue) 0 }

/-! ### The fragments as they would be without lane-steps (R228, R312) -/

/-- The distinct targets of a list of lanes in order, each with its lanes. -/
def groupTargets (g : Nat → Dword) (ls : List Nat) : List (Dword × Word) :=
  ((ls.map g).foldl (fun ts t => if ts.contains t then ts else ts ++ [t]) []).map fun t =>
    (t, maskOf (ls.filter fun l => g l == t))

/-- What a lane has done that its fragment as a whole has not. -/
def Kin.of (x : Kin) (l : Nat) : List Fork := Tab.getD [] l x.taken

/-- The lanes that still count in a fragment: those in a fragment of the wave, and those with something left to do as one. -/
def Kin.left (there : Word) (x : Kin) : List Nat := (lanesOf x.lanes).filter fun l => there.getLsbD l || !(x.of l).isEmpty

/-- Something that lanes of a list have done, added. -/
def Kin.add (ls : List Nat) (f : Nat → Fork) (x : Kin) : Kin :=
  { x with taken := ls.foldl (fun t l => if x.lanes.getLsbD l then Tab.put l (Tab.getD [] l t ++ [f l]) t else t) x.taken }

/-- What the lanes of a fragment do next, once every one of them has. -/
def Kin.next (there : Word) (x : Kin) : Option Fork :=
  match x.left there with
  | [] => none
  | l :: r => if (l :: r).all fun l => !(x.of l).isEmpty then (x.of l).head? else none

/-- The lanes of a list as a fragment of their own, past what they do next. -/
def Kin.past (x : Kin) (tok : BitVec 16) (ls : List Nat) : Kin :=
  ⟨maskOf ls, tok, (ls.map fun l => (l, (x.of l).drop 1)).filter fun e => !e.2.isEmpty⟩

/-- A branch that every lane of a fragment has executed, taken as one (R160, R162): the lanes it detaches, and the fragments
there are then. -/
def Kin.split (there : Word) (x : Kin) : Word × List Kin :=
  let ls := x.left there
  let sel := fun (p : Fork → Bool) => ls.filter fun l => ((x.of l).head?.map p).getD false
  match x.next there with
  | some (.brc t _) =>
    let tok := x.tokens ||| (1#16 <<< t)
    let yes := sel fun f => f == .brc t true
    let no := sel fun f => f == .brc t false
    let out := if yes.isEmpty || no.isEmpty then 0 else if yes.length ≤ no.length then maskOf yes else maskOf no
    (out, ([yes, no].filter fun g => !g.isEmpty).map (x.past tok))
  | some (.jump _) =>
    let dest := fun l => match (x.of l).head? with
      | some (.jump d) => d
      | _ => 0
    let gs := groupTargets dest ls
    ((gs.drop 1).foldl (fun m g => m ||| g.2) 0, gs.map fun g => x.past x.tokens (lanesOf g.2))
  | _ => (0, [x])

/-- The address of the JOIN t that the lanes of a fragment have all passed next, if they have. -/
def Kin.atJoin (there : Word) (t : Nat) (x : Kin) : Option Dword :=
  match x.next there with
  | some (.join u pc) => if u = t then some pc else none
  | _ => none

/-- The fragment that a group of fragments at one JOIN t becomes (R161). -/
def Kin.merge (t : Nat) (g : List Kin) : Kin :=
  ⟨g.foldl (fun m x => m ||| x.lanes) 0, g.foldl (fun m x => m ||| x.tokens) 0 &&& ~~~(1#16 <<< t),
    g.foldl (fun u x => (lanesOf x.lanes).foldl (fun u l =>
      if ((x.of l).drop 1).isEmpty then u else Tab.put l ((x.of l).drop 1) u) u) []⟩

/-- JOIN t of such fragments (R161): none merges while one that holds t has not come to it. -/
def joinKin (there : Word) (ks : List Kin) (t : Nat) : List Kin :=
  let at0 := fun (x : Kin) => x.atJoin there t
  if (ks.all fun x => (at0 x).isNone) ||
      !(ks.all fun x => !x.tokens.getLsbD t || (at0 x).isSome || (x.left there).isEmpty) then ks
  else
    (ks.filter fun x => (at0 x).isNone) ++
      ((ks.filterMap at0).dedup.map fun pc => Kin.merge t (ks.filter fun x => at0 x == some pc))

/-- Everything that such fragments can do as a whole now: the lanes that branches detach, and the fragments there are then. The
number bounds what there is to do. -/
def settleKins (there : Word) : Nat → List Kin → Word × List Kin
  | 0, ks => (0, ks)
  | n + 1, ks =>
    let rs := ks.map (Kin.split there)
    let q := settleKins there n ((List.range 16).foldl (joinKin there) (rs.flatMap (·.2)))
    (rs.foldl (fun m r => m ||| r.1) q.1, q.2)

/-- The lanes in fragments of the wave, but for consumers. -/
def Wave.there (w : Wave) : Word := w.frags.foldl (fun m f => if f.cons then m else m ||| f.mask) 0

/-- Whether a fragment as it would be without lane-steps is one of the wave's, or has no lane left. -/
def Wave.isFrag (w : Wave) (x : Kin) : Bool :=
  x.taken.all (·.2.isEmpty) &&
    (x.lanes &&& w.there == 0 || w.frags.any fun f => !f.cons && f.mask == x.lanes &&& w.there && f.tokens == x.tokens)

/-- Whether what a wave's fragments do counts for the map of its group (R297): not in a handler, nor in consumer mode. -/
def Wave.counts (w : Wave) : Bool := !w.handlerFlag && !w.landing.mode

/-- What the lanes of a list have done noted, where it counts. -/
def Wave.noteAll (w : Wave) (ls : List Nat) (f : Nat → Fork) (ks : List Kin) : List Kin :=
  if w.counts then ks.map (·.add ls f) else ks

/-- The fragments as they would be without lane-steps, brought up to what the lanes have done: the lanes detached are kept for the
map, and nothing is kept apart once the wave's fragments are these (R312). -/
def Wave.settleKin (w : Wave) : Wave :=
  if w.kin.isEmpty || !w.counts then w
  else
    let n := w.kin.foldl (fun n x => x.taken.foldl (fun n e => n + e.2.length) n) 1
    let r := settleKins w.there n w.kin
    { w with late := w.late ||| r.1, kin := if r.2.all w.isFrag then [] else r.2 }

/-- JOIN t for the whole wave (R161): when every active fragment that holds t waits at a JOIN t, the waiting fragments merge
in groups by the PC of their JOIN. -/
def Wave.joinToken (t : Nat) (w : Wave) : Wave :=
  let mem := w.frags.filter fun f => w.active f && f.atJoin t
  let free := w.frags.all fun f => !(w.active f) || !(f.tokens.getLsbD t) || f.atJoin t
  if mem.isEmpty || !free then w
  else
    { w with
      frags := w.frags.filterMap fun f =>
        if w.active f && f.atJoin t then
          let g := mem.filter fun x => x.pc == f.pc
          if g.head? == some f then some (mergeGroup t f g) else none
        else some f
      kin := mem.foldl (fun ks f => w.noteAll (lanesOf f.mask) (fun _ => .join t f.pc) ks) w.kin }

/-- Every JOIN of a wave that can merge now. -/
def Wave.resolveJoins (w : Wave) : Wave := ((List.range 16).foldl (fun w t => w.joinToken t) w).settleKin

/-- The end of a handler once every live handler fragment has executed TRET or exited (R217). -/
def Wave.endHandler (w : Wave) : Wave :=
  if w.handlerFlag && w.frags.all fun f => !f.handler || f.wait == .tret then w.leaveHandler else w

/-- The error status of an undeliverable asynchronous fault (R15, R367). -/
def asyncCause (f : AsyncFault) : Word :=
  causeWord { code := f.code, sub := f.sub, queue := f.queue, isAsync := true, redo := false }

/-- The pending images of a core that a wave left behind: nobody waits for their results. -/
def Core.forget (k : Nat) (c : Core) : Core :=
  { c with pending := c.pending.map fun p => if p.wave = some k then { p with wave := none } else p }

/-- The items of lanes marked in the minority map of the group (R297). -/
def State.markMinority (w : Wave) (m : Word) (s : State) : State :=
  s.setTeam w.team fun tm =>
    { tm with minority := (tm.minority ++ (lanesOf m).map fun l => 32 * w.num + l).dedup }

/-- The exit of a wave whose last live fragment has exited (R15, R132): its oldest pending fault becomes the launch's error;
the slot, the extended row and the Landing slot are free. R13 frees the team's slots at its retirement: each slot is free from the
exit of its wave on. Log entry 83. -/
def State.exitWave (k : Nat) (s : State) : State :=
  match Tab.find k s.waves with
  | none => s
  | some w =>
    let s := match w.faults, s.teamOf w with
      | f :: _, some tm => s.setLaunch tm.launch (·.fixError f.code (asyncCause f))
      | _, _ => s
    let s := if w.late = 0 then s else s.markMinority w w.late
    { (s.setCore (coreOf k) (·.forget k)).firm k 0xFFFFFFFF with waves := Tab.del k s.waves }

/-- The fault of a park that ended while its fragment waited at a JOIN, delivered now that the fragment goes on after it,
where it is still pending (R143). Log entry 80. -/
def State.deliverDue (k : Nat) (s : State) : State :=
  match Tab.find k s.waves with
  | none => s
  | some w =>
    match w.handlerFlag, w.frags.findIdx? fun f => f.due.isSome && f.wait == .none with
    | false, some i =>
      let t := s.setFrag k i fun f => { f with due := none }
      if ((w.frags[i]?).bind (·.due)) = w.faults.head? then t.deliverFault k i else t
    | _, _ => s

/-- What follows when fragments of a wave have ended: arrivals it completes (R124), which stall no fragment where they are
held; the end of its handler (R217), its JOINs (R161), and its exit when no lane is live (R132). Log entry 84. -/
def State.settleWave (k : Nat) (s : State) : State :=
  let s := ((s.countArrivals k).setWave k fun w => w.endHandler.resolveJoins).deliverDue k
  match Tab.find k s.waves with
  | none => s
  | some w => if w.live = 0 then s.exitWave k else s

/-- What a branch of a fragment marks in the group's minority map, unless in a handler or in consumer mode (R297): the lanes that
detach; after a lane-step, those that would have detached without it (R312). -/
def State.markFork (k : Nat) (w : Wave) (ls : List Nat) (out : Word) (f : Nat → Fork) (s : State) : State :=
  if !w.counts then s
  else if w.kin.isEmpty then (if out = 0 then s else s.markMinority w out)
  else s.setWave k fun w => { w with kin := w.noteAll ls f w.kin }.settleKin

/-- A fragment detached from f with some of its lanes, at an address (R160, R162): tokens and priority copied; it has not issued
yet. Log entry 79. -/
def Frag.detach (m : Word) (pc : Dword) (f : Frag) : Frag :=
  { f with mask := m, pc := pc, wait := .none, launchLane := none, got := [], spins := [], due := none, lastIssue := 0,
           readyFor := 0, bpSkip := [], early := [] }

/-- Whether a branch at pc to a target is a spin branch (R142): at most 16 words back, the branch word being one. -/
def isSpin (pc target : Dword) : Bool := decide ((pc - target).toNat ≤ 60)

/-- Spin detection when a fragment takes a branch (R142). -/
def Frag.spin (pc target : Dword) (f : Frag) : Frag :=
  if isSpin pc target then
    if f.spins.contains pc then { f with prio := min 4 (f.prio + 1) } else { f with spins := pc :: f.spins }
  else f

end Sys2Proof.Machine
end

