-- ==== Sys2Proof/Machine/Access.lean ====
section
/-! DEFINITION. What every memory instruction of a wave shares: the address of R97, the checks of R99 over all lanes, the
game record's footprint (R297), watchpoints (R227), outstanding results (R143) and partition faults (R353, R370). -/

namespace Sys2Proof.Machine

open Sys2Proof

/-- The effective address of a lane (R97). -/
def Ctx.ea (c : Ctx) (l : Nat) : Dword := c.w.pair c.f.a.toNat l + BitVec.ofInt 64 c.simm

/-- One access of a lane: its lane, address, required alignment, size, and whether it reads and writes. -/
structure Acc where
  lane : Nat
  ea : Dword
  al : Nat
  n : Nat
  rd : Bool
  wr : Bool
deriving DecidableEq, Repr

/-- The trap of a failed check of an access at an address (R99, R213). -/
def Ctx.badTrap (c : Ctx) (a : Acc) (ea : Dword) (b : Bad) : TrapInfo :=
  { c.trap b.code with sub := b.sub, write := a.wr, lane := a.lane, addr := ea }

/-- The first failing check of one lane's accesses (R99): each check over all of them before the next. It reports the lane's
EA, which is that of its first access; a byte of no alignment, as the split-form scale byte of LDBF, reports its own address
(R213). -/
def Ctx.laneFailing (c : Ctx) (s : State) (tm : Team) (as : List Acc) : Option TrapInfo :=
  (List.range 4).findSome? fun step => as.findSome? fun a =>
    (s.checkStep (s.partOf c.w) tm a.ea a.al a.n a.rd a.wr step).map
      (c.badTrap a (if a.al = 1 then a.ea else (as.head?.map (·.ea)).getD 0))

/-- The first failing check of a list of accesses that names the lanes in order (R99). -/
def Ctx.failing (c : Ctx) (s : State) (tm : Team) (as : List Acc) : Option TrapInfo :=
  (lanesOf (maskOf (as.map (·.lane)))).findSome? fun l => c.laneFailing s tm (as.filter fun a => a.lane == l)

/-- The team addresses of a list of accesses. -/
def teamAddrs (as : List Acc) : List Nat :=
  as.filterMap fun a =>
    match classify a.ea with
    | .scratch t => some t
    | _ => none

/-- The physical address of an effective address: through the tables, or through the page it is stash-mapped by. -/
def State.physOf (s : State) (p : Nat) (tm : Team) (ea : Dword) : Option Nat :=
  match classify ea with
  | .global va => (s.translate p va).map (·.2)
  | .scratch t => (tm.page t).bound.map fun b => b.2 + t % 4096
  | .nonCanonical => none

/-- Whether an access fills a line of a stash-mapped page, which reads the whole line (R103). -/
def Team.fills (tm : Team) (ea : Dword) : Bool :=
  match classify ea with
  | .scratch t => !((tm.page t).line t).filled
  | _ => false

/-- Whether an access is a partition fault: a request that a stop blocks (R353), or one that reads a poisoned line (R370). -/
def State.breaks (s : State) (p : Nat) (tm : Team) (a : Acc) : Bool :=
  match s.physOf p tm a.ea with
  | none => false
  | some pa => !s.ownsStop p pa || ((a.rd || tm.fills a.ea) && s.poison.contains (lineOf pa))

/-- The distinct global lines of a list of accesses added to the team's footprint (R297). -/
def State.addFoot (team : Nat) (as : List Acc) (s : State) : State :=
  let ls := as.filterMap fun a =>
    match classify a.ea with
    | .global va => some (lineOf va)
    | _ => none
  s.setTeam team fun tm => { tm with foot := (tm.foot ++ ls).dedup }

/-- The watchpoint that an access fires, if any (R227): enabled, of its kind, over a byte it touches. -/
def Debug.watchHit (d : Debug) (a : Acc) : Option Nat :=
  (List.range 8).find? fun i =>
    let ctl := Tab.getD 2 i d.wpCtl
    let at0 := (Tab.getD 0 i d.wpAddr).toNat
    ctl.getLsbD 31 && ((ctl.getLsbD 29 && a.rd) || (ctl.getLsbD 30 && a.wr)) &&
      decide (at0 < a.ea.toNat + a.n ∧ a.ea.toNat < at0 + 2 ^ (ctl.toNat % 16))

/-- The halt that a watchpoint brings about after the instruction (R227); one that ends a debugger's step says STEP (R228). Log
entry 34. -/
def State.watch (c : Ctx) (as : List Acc) (s : State) : State :=
  match s.launchOf c.w with
  | none => s
  | some la =>
    if !la.dbg.taken then s
    else
      match as.findSome? la.dbg.watchHit with
      | none => s
      | some i => s.setTeam c.w.team fun tm => { tm with halt := some ⟨0x11, i, c.k, c.i, none⟩ }

/-- A register result of the wave outstanding (R21, R143). -/
def State.owe (k : Nat) (s : State) : State := s.setWave k fun w => { w with outstanding := w.outstanding + 1 }

/-! ### Reads performed ahead (R86, R110, R382) -/

/-- Whether a read ahead is of bytes of an access, by address. -/
def Early.under (x : Acc) (e : Nat × Early) : Bool := meets e.1 e.2.n x.ea.toNat x.n

/-- The ranges that a list of accesses touches: each access at its location, and the location that a read ahead of it had under
the binding that its page had then (R110). -/
def Frag.touched (as : List (Acc × Nat)) (f : Frag) : List (Nat × Nat) :=
  as.map (fun a => (a.2, a.1.n)) ++ (f.early.filter fun e => as.any fun a => Early.under a.1 e).map fun e => (e.2.loc, e.2.n)

/-- A fragment's reads performed ahead after it has performed a list of accesses at their locations: those of the same bytes, by
address or by location, are given up (R81, R83); the others are older than its last read. -/
def Frag.performed (as : List (Acc × Nat)) (f : Frag) : Frag :=
  let old := as.any (·.1.rd)
  let ts := f.touched as
  { f with early := (f.early.filter fun e => !(as.any (fun a => Early.under a.1 e) ||
      ts.any fun t => meets e.2.loc e.2.n t.1 t.2)).map fun e => (e.1, { e.2 with aged := e.2.aged || old }) }

/-- A list of accesses that fragment i of wave k has performed. -/
def State.perform (k i : Nat) (as : List Acc) (s : State) : State :=
  match Tab.find k s.waves with
  | none => s
  | some w => s.setFrag k i (·.performed (as.map fun a => (a, s.locOf (s.whoOf k w) a.ea)))

/-- A fragment after an acquire (R85): the reads ahead that are older than its last read are given up, but for one that only
writes without a release since have made old (R86). -/
def Frag.acquire (ls : List Loose) (f : Frag) : Frag :=
  { f with early := f.early.filter fun e => !e.2.aged || ls.any (·.hides e.2) }

/-- A wave whose fragments have no read ahead. -/
def Wave.noEarly (w : Wave) : Wave := { w with frags := w.frags.map fun f => { f with early := [] } }

/-- A team whose waves have no read ahead: what an engine's signal to it does (R20, R345). -/
def State.noEarly (team : Nat) (s : State) : State :=
  { s with waves := s.waves.map fun e => if e.2.team = team then (e.1, e.2.noEarly) else e }

/-- The binding of the page of an address (R110). -/
def Team.boundAt (tm : Team) (ea : Dword) : Option (Nat × Nat) :=
  match classify ea with
  | .scratch t => (tm.page t).bound
  | _ => none

/-- A word of an access that was read ahead under another binding of its page (R110). -/
def Ctx.otherWord (c : Ctx) (bound : Option (Nat × Nat)) (a : Dword) : Option Early :=
  (Tab.find a.toNat c.fr.early).filter fun e => e.n == 4 && e.bound != bound

/-- The word of an eight-byte load at an address: as read ahead under another binding, or read now. -/
def Ctx.loadHalf (c : Ctx) (bound : Option (Nat × Nat)) (a : Dword) (s : State) : Nat × State :=
  match c.otherWord bound a with
  | some e => (e.v, s)
  | none => s.load (c.who s) a 4

/-- A load of n bytes by a lane (R80): the read performed ahead, where there is one of the same bytes; of an eight-byte load
each word may have been read ahead under another binding (R110); otherwise it is performed now. -/
def Ctx.loadLane (c : Ctx) (n : Nat) (a : Dword) (s : State) : Nat × State :=
  if c.fr.early.isEmpty then s.load (c.who s) a n
  else
    match (Tab.find a.toNat c.fr.early).filter fun e => e.n == n with
    | some e => (e.v, s)
    | none =>
      let b := ((s.teamOf c.w).map (·.boundAt a)).getD none
      if n = 8 ∧ ((c.otherWord b a).isSome ∨ (c.otherWord b (a + 4)).isSome) then
        let lo := c.loadHalf b a s
        let hi := c.loadHalf b (a + 4) lo.2
        (lo.1 + 2 ^ 32 * hi.1, hi.2)
      else s.load (c.who s) a n

/-- The reads ahead that the lanes of one access at a list of addresses may take: not those of a location that another of the
addresses names too, since two lanes at one location read the same write (R104). -/
def State.sameWrite (s : State) (who : Who) (n : Nat) (as : List Dword) (early : Tab Early) : Tab Early :=
  let mine := early.filter fun e => as.any fun a => meets e.1 e.2.n a.toNat n
  let clash := mine.filter fun e =>
    (as.any fun a => a.toNat != e.1 && !meets e.1 e.2.n a.toNat n && meets (s.locOf who a) n e.2.loc e.2.n) ||
      mine.any fun x => x.1 != e.1 && meets x.2.loc x.2.n e.2.loc e.2.n
  early.filter fun e => !(clash.any fun x => x.1 == e.1)

/-- The context of an instruction whose lanes load n bytes at each of a list of addresses. -/
def Ctx.together (c : Ctx) (n : Nat) (as : List Dword) (s : State) : Ctx :=
  if c.fr.early.isEmpty then c else { c with fr := { c.fr with early := s.sameWrite (c.who s) n as c.fr.early } }

/-- The writer that a fragment is: its wave and its lanes. -/
def Ctx.writer (c : Ctx) : Nat × Word := (c.k, c.fr.mask)

/-- Whether a word may still be accessed under the binding that it was read ahead under (R110): a page of global memory must
still grant it. -/
def Ctx.writable (c : Ctx) (rmw : Bool) (a : Dword) (e : Early) (s : State) : Bool :=
  match e.bound with
  | none => true
  | some (va, _) => (s.checkGlobal (s.partOf c.w) (va + a.toNat % 4096) rmw true).isNone

/-- The binding other than the present one that a word of an access is written under, if any (R110). -/
def Ctx.oldWord (c : Ctx) (rmw : Bool) (a : Dword) (s : State) : Option Early :=
  (c.otherWord (((s.teamOf c.w).map (·.boundAt a)).getD none) a).filter fun e => c.writable rmw a e s

/-- A word that an atomic reads under a binding that its page has no more (R81, R110): what the page held when it was bound, if it
was plain, or the word of global memory, at its home. -/
def Ctx.readOld (c : Ctx) (a : Dword) (e : Early) (s : State) : Nat × State :=
  if e.bound.isNone then
    (leNat ((List.range 4).map fun i =>
      (((s.teamOf c.w).map fun tm => Tab.getD 0 ((bits a 0 32).toNat + i) tm.gone)).getD 0), s)
  else
    let s := (s.observe (c.who s) true e.loc 4).toHome none none (lineOf e.loc) true
    (leNat (memReads s.mem e.loc 4), s)

/-- A word written under a binding that its page has no more: among what the page held when it was bound, if it was plain, and
to its home in global memory if it was stash-mapped (R107, R110). -/
def Ctx.storeOld (c : Ctx) (a : Dword) (e : Early) (v : Nat) (s : State) : State :=
  if e.bound.isNone then
    s.setTeam c.w.team fun tm => { tm with gone := setBytes (bits a 0 32).toNat (leBytes 4 v) tm.gone }
  else
    let s := (s.toHome none none (lineOf e.loc) true).unloose e.loc 4
    (s.putHome (s.partOf c.w) e.loc (leBytes 4 v)).markWrote (c.who s).cl (lineOf e.loc)

/-- Bytes written by a lane under the present binding; a write over a read ahead is loose until the fragment's next release. -/
def Ctx.storeNow (c : Ctx) (n : Nat) (a : Dword) (v : Nat) (s : State) : State :=
  s.storeLoose c.writer (c.who s) a n v

/-- The words of a value written by a lane, each under the binding that it is resolved under (R110). -/
def Ctx.storeWords (c : Ctx) (rmw : Bool) : Nat → Dword → Nat → State → State
  | 0, _, _, s => s
  | n + 1, a, v, s =>
    let t := match c.oldWord rmw a s with
      | some e => c.storeOld a e (v % 2 ^ 32) s
      | none => c.storeNow 4 a (v % 2 ^ 32) s
    c.storeWords rmw n (a + 4) (v / 2 ^ 32) t

/-- Whether a word of an access of n bytes by a lane is written under another binding than the present one (R110). -/
def Ctx.splits (c : Ctx) (rmw : Bool) (n : Nat) (a : Dword) (s : State) : Bool :=
  !c.fr.early.isEmpty && n % 4 == 0 && (List.range (n / 4)).any fun j => (c.oldWord rmw (a + BitVec.ofNat 64 (4 * j)) s).isSome

/-- A store of n bytes by a lane (R80): whole; of a word or two words each may be resolved under another binding (R110). -/
def Ctx.storeLane (c : Ctx) (n : Nat) (a : Dword) (v : Nat) (s : State) : State :=
  if c.splits false n a s then c.storeWords false (n / 4) a v s else c.storeNow n a v s

/-- A read-modify-write of n bytes by a lane (R113): indivisible; each word may be resolved under another binding (R110). -/
def Ctx.rmwLane (c : Ctx) (n : Nat) (a : Dword) (g : Nat → Nat) (s : State) : Nat × State :=
  if c.splits true n a s then
    let word := fun (j : Nat) (s : State) =>
      let b := a + BitVec.ofNat 64 (4 * j)
      match c.oldWord true b s with
      | some e => c.readOld b e s
      | none => s.load (c.who s) b 4
    let lo := word 0 s
    let hi := if n = 8 then word 1 lo.2 else (0, lo.2)
    let old := lo.1 + 2 ^ 32 * hi.1
    (old, c.storeWords true (n / 4) a (g old) hi.2)
  else
    let s := s.observe (c.who s) true (s.locOf (c.who s) a) n
    let r := s.rmw (c.who s) a n g
    (r.1, r.2.loosen s c.writer (c.who s) a n r.1)

/-- Loads of the lanes of a list, one after another, with their lanes. -/
def Ctx.loadEach (c : Ctx) (n : Nat) : List (Nat × Dword) → State → List (Nat × Nat) × State
  | [], s => ([], s)
  | (l, a) :: r, s =>
    let x := c.loadLane n a s
    let q := c.loadEach n r x.2
    ((l, x.1) :: q.1, q.2)

/-- The loads of an instruction by a list of lanes (R82, R104). -/
def Ctx.loadLanes (c : Ctx) (n : Nat) (ls : List (Nat × Dword)) (s : State) : List (Nat × Nat) × State :=
  (c.together n (ls.map (·.2)) s).loadEach n ls s

/-- Aligned words loaded by a lane one after another, each as it may have been read ahead (R80, R83, R382, R383). -/
def Ctx.loadWords (c : Ctx) (ea : Dword) : Nat → State → List Word × State
  | 0, s => ([], s)
  | n + 1, s =>
    let r := c.loadLane 4 ea s
    let q := c.loadWords (ea + 4) n r.2
    (BitVec.ofNat 32 r.1 :: q.1, q.2)

/-- The frame of an access (R99, R102, R370): the checks of every lane; a partition fault stops the fragment, and a page that
cannot be pinned yet makes it wait; otherwise the effect, with the footprint and the watchpoints. `owes` tells that a result
returns later. -/
def Ctx.access (c : Ctx) (s : State) (as : List Acc) (owes : Bool) (g : State → State) : Act :=
  match s.teamOf c.w with
  | none => .next s
  | some tm =>
    match c.failing s tm as with
    | some t => .trap t
    | none =>
      if as.any (s.breaks (s.partOf c.w) tm) then .wait .stall (s.foundFault (s.partOf c.w))
      else if !s.canPin c.w.team (teamAddrs as) then .wait .stall s
      else
        let t := (((g s).perform c.k c.i as).addFoot c.w.team as).watch c as
        .next (if owes && !as.isEmpty then t.owe c.k else t)

/-- The poison of every line that a list of stores writes whole is cleared (R370). -/
def State.clearPoison (p : Nat) (as : List Acc) (s : State) : State :=
  if s.poison.isEmpty then s
  else
    let bs := as.flatMap fun a =>
      match classify a.ea with
      | .global va => match s.translate p va with
        | none => []
        | some (_, pa) => (List.range a.n).map fun i => pa + i
      | _ => []
    { s with poison := s.poison.filter fun l => !((List.range 128).all fun i => bs.contains (128 * l + i)) }

end Sys2Proof.Machine
end

