-- ==== Sys2Proof/Machine/Flags.lean ====
section
/-! DEFINITION. Conditions, carries and saturation: the device has no flag register; a carry, a borrow and a
comparison are words in a vector register (R148, R151, R155). -/

namespace Sys2Proof.Machine

open Sys2Proof

/-- The carry of a + b + cin at w bits (R148). -/
def carryOf (w a b cin : Nat) : Nat := if 2 ^ w ≤ a + b + cin then 1 else 0

/-- The borrow of a - b - cin (R148). -/
def borrowOf (a b cin : Nat) : Nat := if a < b + cin then 1 else 0

/-- The conditions of ICMP by M (R155): eq, ne, lt, le, gt, ge. -/
def icond (m : Nat) (a b : Int) : Bool :=
  match m with
  | 0 => decide (a = b)
  | 1 => decide (a ≠ b)
  | 2 => decide (a < b)
  | 3 => decide (a ≤ b)
  | 4 => decide (b < a)
  | _ => decide (b ≤ a)

/-- An integer clamped to a range. -/
def clampI (lo hi z : Int) : Int := if z < lo then lo else if hi < z then hi else z

/-- The range of an integer type (R62). -/
def tyMin (t : BitVec 3) : Int := if tySigned t then -(2 ^ (8 * tyBytes t - 1) : Int) else 0

/-- The greatest value of an integer type (R62). -/
def tyMax (t : BitVec 3) : Int := if tySigned t then 2 ^ (8 * tyBytes t - 1) - 1 else 2 ^ (8 * tyBytes t) - 1

/-- A truth value as the word 1 or 0. -/
def flagWord (b : Bool) : Nat := if b then 1 else 0

end Sys2Proof.Machine
end

