-- ==== Sys2Proof/Machine/Num.lean ====
section
/-! DEFINITION. Floating point (R64 to R77): formats, exact values, one rounding, the conversions of R73, the
quantisation of R74 and the scaled accumulation of R77. -/

namespace Sys2Proof.Machine

open Sys2Proof

/-- A float format (R64): exponent and fraction widths, bias, whether the all-ones exponent holds infinity and NaNs. -/
structure Fmt where
  eb : Nat
  fb : Nat
  bias : Nat
  ieee : Bool
deriving DecidableEq, Repr

/-- FP32 (R64). -/
def f32 : Fmt := ⟨8, 23, 127, true⟩

/-- BF16 (R64). -/
def bf16 : Fmt := ⟨8, 7, 127, true⟩

/-- The formats of the float table (R39, R64). -/
def fmtOf (t : Nat) : Fmt :=
  match t with
  | 0 => f32
  | 1 => ⟨5, 10, 15, true⟩
  | 2 => bf16
  | 3 => ⟨5, 2, 15, true⟩
  | 4 => ⟨4, 3, 7, false⟩
  | _ => ⟨2, 1, 1, false⟩

/-- Width of a format in bits. -/
def Fmt.width (f : Fmt) : Nat := 1 + f.eb + f.fb

/-- The formats the subnormal mode applies to: FP32, FP16, BF16 (R71). -/
def Fmt.modal (f : Fmt) : Bool := decide (16 ≤ f.width)

/-- The code of infinity, sign aside. -/
def Fmt.infCode (f : Fmt) : Nat := (2 ^ f.eb - 1) * 2 ^ f.fb

/-- The code of the largest finite value, sign aside (R64). -/
def Fmt.maxCode (f : Fmt) : Nat :=
  if f.ieee then f.infCode - 1 else if f.fb = 3 then 0x7E else 2 ^ (f.eb + f.fb) - 1

/-- The canonical NaN of a format, or code 0 where it has none (R65, R73). -/
def Fmt.nan (f : Fmt) : Nat := if f.ieee then f.infCode + 2 ^ (f.fb - 1) else 0

/-- A sign put onto a code. -/
def Fmt.signed (f : Fmt) (s : Bool) (code : Nat) : Nat := if s then 2 ^ (f.eb + f.fb) + code else code

/-- A float value: a NaN, an infinity, or (-1)^s · m · 2^e; m = 0 is a signed zero. -/
inductive FVal
  | nan
  | inf (s : Bool)
  | fin (s : Bool) (m : Nat) (e : Int)
deriving DecidableEq, Repr

/-- The exponent of the last place of the subnormals. -/
def Fmt.qmin (f : Fmt) : Int := 1 - (f.bias : Int) - f.fb

/-- The value of a code (R64), reserved codes of E4M3 read as their substitutes (R70). -/
def Fmt.dec (f : Fmt) (v : Nat) : FVal :=
  let s := v.testBit (f.eb + f.fb)
  let c := v % 2 ^ (f.eb + f.fb)
  let c := if f.ieee then c else min c f.maxCode
  let e := c / 2 ^ f.fb
  let m := c % 2 ^ f.fb
  if f.ieee && e == 2 ^ f.eb - 1 then (if m = 0 then .inf s else .nan)
  else if e = 0 then .fin s m f.qmin
  else .fin s (2 ^ f.fb + m) (f.qmin + (e - 1))

/-- A rounding mode (R71): 0 nearest even, 1 toward zero, 2 up, 3 down, 4 nearest away. -/
abbrev RM := Nat

/-- Whether a magnitude is rounded up, from its sign, its last kept bit, and the discarded part r of 2^k (R71). -/
def roundUp (rm : RM) (s : Bool) (odd : Bool) (r k : Nat) : Bool :=
  match rm with
  | 0 => decide (2 ^ k < 2 * r) || (decide (2 * r = 2 ^ k) && odd)
  | 1 => false
  | 2 => !s && decide (r ≠ 0)
  | 3 => s && decide (r ≠ 0)
  | _ => decide (2 ^ k ≤ 2 * r)

/-- m · 2^e rounded to a multiple of 2^q, as that multiple. -/
def roundTo (rm : RM) (s : Bool) (m : Nat) (e q : Int) : Nat :=
  if q ≤ e then m * 2 ^ (e - q).toNat
  else
    let k := (q - e).toNat
    let h := m / 2 ^ k
    if roundUp rm s (h % 2 == 1) (m % 2 ^ k) k then h + 1 else h

/-- The exponent of the leading bit of m · 2^e. -/
def topExp (m : Nat) (e : Int) : Int := (Nat.log2 m : Int) + e

/-- Overflow (R73): the code, sign aside. -/
def Fmt.over (f : Fmt) (rm : RM) (s : Bool) : Nat :=
  if !f.ieee then f.maxCode
  else
    match rm with
    | 1 => f.maxCode
    | 2 => if s then f.maxCode else f.infCode
    | 3 => if s then f.infCode else f.maxCode
    | _ => f.infCode

/-- A finite value rounded once to a format, and whether the result is subnormal, decided after rounding with an unbounded
exponent range (R65). -/
def Fmt.round (f : Fmt) (rm : RM) (s : Bool) (m : Nat) (e : Int) : Nat × Bool :=
  if m = 0 then (f.signed s 0, false)
  else
    let t := topExp m e
    let q := max (t - f.fb) f.qmin
    let r := roundTo rm s m e q
    let c := (q - f.qmin).toNat * 2 ^ f.fb + r
    let u := roundTo rm s m e (t - f.fb)
    let tiny := decide (topExp u (t - f.fb) < f.qmin + f.fb)
    (f.signed s (if f.maxCode < c then f.over rm s else c), tiny)

/-- A value encoded in a format, with flush-out in subnormal modes 2 and 3 (R71, R73). -/
def Fmt.enc (f : Fmt) (rm : RM) (sm : Nat) : FVal → Nat
  | .nan => f.nan
  | .inf s => f.signed s (if f.ieee then f.infCode else f.maxCode)
  | .fin s m e =>
    let r := f.round rm s m e
    if f.modal && r.2 && decide (2 ≤ sm) then f.signed s 0 else r.1

/-- Whether a value of a format is subnormal. -/
def Fmt.isSub (f : Fmt) : FVal → Bool
  | .fin _ m e => decide (m ≠ 0) && decide (topExp m e < f.qmin + f.fb)
  | _ => false

/-- Flush-in in subnormal modes 1 and 3 (R71). -/
def Fmt.flushIn (f : Fmt) (sm : Nat) (x : FVal) : FVal :=
  match x with
  | .fin s _ e => if f.modal && sm % 2 == 1 && f.isSub x then .fin s 0 e else x
  | _ => x

/-- An operand of a format, decoded and flushed in (R172). -/
def Fmt.read (f : Fmt) (sm v : Nat) : FVal := f.flushIn sm (f.dec v)

/-- The negated value. -/
def FVal.neg : FVal → FVal
  | .nan => .nan
  | .inf s => .inf (!s)
  | .fin s m e => .fin (!s) m e

/-- Magnitude m · 2^e at a lower exponent. -/
def scaleTo (m : Nat) (e q : Int) : Nat := m * 2 ^ (e - q).toNat

/-- A finite value as an integer multiple of 2^q. -/
def signedAt (s : Bool) (m : Nat) (e q : Int) : Int := if s then -(scaleTo m e q : Int) else scaleTo m e q

/-- The exact sum (R174); an exact zero is -0 only for two zeros of that sign or, otherwise, when rounding down. -/
def FVal.add (rm : RM) : FVal → FVal → FVal
  | .nan, _ => .nan
  | _, .nan => .nan
  | .inf s, .inf t => if s = t then .inf s else .nan
  | .inf s, _ => .inf s
  | _, .inf t => .inf t
  | .fin s m e, .fin t n g =>
    let q := min e g
    let z := signedAt s m e q + signedAt t n g q
    if z = 0 then .fin (if m = 0 ∧ n = 0 ∧ s = t then s else rm == 3) 0 q
    else .fin (decide (z < 0)) z.natAbs q

/-- The exact product (R174). -/
def FVal.mul : FVal → FVal → FVal
  | .nan, _ => .nan
  | _, .nan => .nan
  | .inf s, .inf t => .inf (s != t)
  | .inf s, .fin t n _ => if n = 0 then .nan else .inf (s != t)
  | .fin s m _, .inf t => if m = 0 then .nan else .inf (s != t)
  | .fin s m e, .fin t n g => .fin (s != t) (m * n) (e + g)

/-- Integer square root: the bits of the root from the highest down. -/
def isqrt (v : Nat) : Nat :=
  (List.range (Nat.log2 v / 2 + 1)).reverse.foldl (fun r i =>
    if (r + 2 ^ i) * (r + 2 ^ i) ≤ v then r + 2 ^ i else r) 0

/-- The square root (R174), with enough bits below the last place that one rounding is exact. -/
def FVal.sqrt : FVal → FVal
  | .nan => .nan
  | .inf s => if s then .nan else .inf false
  | .fin s m e =>
    if m = 0 then .fin s 0 e
    else if s then .nan
    else
      let m := if e % 2 = 0 then m else 2 * m
      let e := if e % 2 = 0 then e else e - 1
      let v := m * 2 ^ 64
      let r := isqrt v
      .fin false (2 * r + (if r * r = v then 0 else 1)) ((e - 64) / 2 - 1)

/-- The order of two values that are no NaNs; -0 equals +0. -/
def FVal.cmp : FVal → FVal → Ordering
  | .nan, _ => .eq
  | _, .nan => .eq
  | .inf s, .inf t => if s = t then .eq else if s then .lt else .gt
  | .inf s, _ => if s then .lt else .gt
  | _, .inf t => if t then .gt else .lt
  | .fin s m e, .fin t n g => compare (signedAt s m e (min e g)) (signedAt t n g (min e g))

/-- The sign of a value. -/
def FVal.sign : FVal → Bool
  | .nan => false
  | .inf s => s
  | .fin s _ _ => s

/-- FMIN, or FMAX (R175): the other operand for one NaN; -0 below +0. -/
def FVal.minMax (mx : Bool) (x y : FVal) : FVal :=
  match x, y with
  | .nan, y => y
  | x, .nan => x
  | x, y =>
    let less := match x.cmp y with
      | .lt => true
      | .eq => x.sign && !y.sign
      | .gt => false
    if less != mx then x else y

/-- A finite value rounded to an integer (R73). -/
def roundInt (rm : RM) (s : Bool) (m : Nat) (e : Int) : Int :=
  let r := roundTo rm s m e 0
  if s then -(r : Int) else r

/-- `cvt_fi` (R73): rounded to an integer, then saturated. -/
def cvtFI (lo hi : Int) (rm : RM) : FVal → Int
  | .nan => 0
  | .inf s => if s then lo else hi
  | .fin s m e => clampI lo hi (roundInt rm s m e)

/-- `cvt_if` (R73). -/
def cvtIF (f : Fmt) (rm : RM) (n : Int) : Nat := (f.round rm (decide (n < 0)) n.natAbs 0).1

/-- Whether the magnitude m · 2^e is at most n · 2^g. -/
def magLe (m : Nat) (e : Int) (n : Nat) (g : Int) : Bool :=
  decide (scaleTo m e (min e g) ≤ scaleTo n g (min e g))

/-- floor(log2) of the largest finite magnitude of a list; none when all are zero (R74). -/
def maxExp : List FVal → Option Int
  | [] => none
  | .fin _ m e :: r =>
    let x := maxExp r
    if m = 0 then x
    else
      match x with
      | none => some (topExp m e)
      | some y => some (max (topExp m e) y)
  | _ :: r => maxExp r

/-- `quant_block` (R74): the scale and the codes, as integers. -/
def quantBlock (m : Nat) (xs : List FVal) : Nat × List Int :=
  let hasInf := xs.any fun x => match x with | .inf _ => true | _ => false
  let s : Int :=
    if hasInf then 254
    else
      match maxExp xs with
      | none => 0
      | some t => clampI 0 254 (t + 128)
  let q : Int := 2 ^ (m - 1) - 1
  (s.toNat, xs.map fun x =>
    match x with
    | .nan => 0
    | .inf n => if n then -q else q
    | .fin n k e => clampI (-q) q (roundInt 0 n k (e + 127 - s + (m - 1 : Nat))))

/-- `scaled_acc` (R77): acc + S · 2^e, rounded once to FP32 to nearest even. -/
def scaledAcc (acc : Nat) (z : Int) (e : Int) : Nat :=
  match f32.dec acc with
  | .nan => f32.nan
  | .inf s => f32.signed s f32.infCode
  | .fin s m g =>
    let q := min e g
    let t := signedAt s m g q + z * 2 ^ (e - q).toNat
    if t = 0 then (if s && m == 0 && z == 0 then f32.signed true 0 else 0)
    else (f32.round 0 (decide (t < 0)) t.natAbs q).1

/-- The class bit of FCLASS (R177). -/
def classBit (f : Fmt) (x : FVal) : Nat :=
  match x with
  | .nan => 8
  | .inf s => if s then 0 else 7
  | .fin s m _ =>
    if m = 0 then (if s then 3 else 4)
    else if f.isSub x then (if s then 2 else 5)
    else if s then 1 else 6

/-! ### Block codes (R67, R70) -/

/-- Code i of a block of 32 codes of m bits, as its integer after the substitution of R70. -/
def blockCode (m v i : Nat) : Int :=
  let q := toSigned m (v / 2 ^ (m * i))
  if q = -(2 ^ (m - 1) : Int) then q + 1 else q

/-- A block's codes written after the substitution of R70. -/
def substBlock (m v : Nat) : Nat :=
  (List.range 32).foldl (fun r i => r + wrap m (blockCode m v i) * 2 ^ (m * i)) 0

/-- A code put into a block at index i. -/
def putCode (m v i : Nat) (q : Int) : Nat :=
  v % 2 ^ (m * i) + wrap m q * 2 ^ (m * i) + v / 2 ^ (m * (i + 1)) * 2 ^ (m * (i + 1))

end Sys2Proof.Machine
end

