-- ==== Sys2Proof/Machine/Activation.lean ====
section
/-! DEFINITION. The activation table (R189 to R191): ACT, ACTLD and the commit of a bank. -/

namespace Sys2Proof.Machine

open Sys2Proof

/-- A bank of a core. -/
def Core.bank (c : Core) (b : Nat) : Bank := if b = 0 then c.bank0 else c.bank1

/-- A bank of a core replaced. -/
def Core.setBank (b : Nat) (x : Bank) (c : Core) : Core := if b = 0 then { c with bank0 := x } else { c with bank1 := x }

/-- The base x0 as it is read: a NaN or an infinity reads as +0 (R189). -/
def Bank.base (b : Bank) : FVal :=
  match f32.dec b.x0.toNat with
  | .fin s m e => .fin s m e
  | _ => .fin false 0 0

/-- The entry of a bank for an argument that is no NaN (R190): the interval, clamped to the table. -/
def Bank.index (b : Bank) (x : FVal) : Nat :=
  match x with
  | .inf true => 0
  | .inf false => 255
  | _ =>
    match x.add 0 b.base.neg with
    | .fin s m e => (clampI 0 255 (roundInt 3 s m (e - b.e.toInt))).toNat
    | _ => 0

/-- The value ACT computes before its one rounding (R190). -/
def Bank.eval (b : Bank) (x : FVal) : FVal :=
  let i := b.index x
  let sl := f32.dec (Tab.getD 0 i b.slope).toNat
  let ic := f32.dec (Tab.getD 0 i b.icept).toNat
  match sl with
  | .fin _ 0 _ => ic
  | _ => (sl.mul x).add 0 ic

/-- The result of ACT at a lane (R190): +0 when the launch does not own the bank. -/
def actValue (owner : Word) (b : Bank) (f : Fmt) (v : Nat) : Nat :=
  if b.owner ≠ some owner then 0
  else
    match f32.dec v with
    | .nan => f.nan
    | x => f.enc 0 0 (b.eval x)

/-- The launch that owns a bank and has a parked team on the core, if another launch's image now claims the bank (R221). -/
def State.bankLoser (s : State) (core b : Nat) (new : Option Word) : Option Nat :=
  let own := ((s.core core).bank b).owner
  if own = none ∨ own = new then none
  else
    (s.teams.find? fun e => e.2.core == core && e.2.parked &&
      ((Tab.find e.2.launch s.launches).map (·.id)) == own).map (·.2.launch)

/-- The key of the launch of an id. -/
def State.launchKey (s : State) (id : Option Word) : Option Nat := (s.launches.find? fun e => id == some e.2.id).map (·.1)

/-- The spilt banks of a core without that of an image's own launch: the image replaces the launch's bank, wherever that is (R189,
R223). -/
def State.ownBank (s : State) (p : PendingBank) (t : Tab Bank) : Tab Bank :=
  match s.launchKey p.image.owner with
  | none => t
  | some l => Tab.del (2 * l + p.bank) t

/-- The commit of one pending image (R191): the bank's contents and owner replaced in one step; the bank of a parked
launch is spilt first (R221). -/
def State.commitImage (core : Nat) (p : PendingBank) (s : State) : State :=
  let s := match s.bankLoser core p.bank p.image.owner with
    | none => s
    | some l => s.setCore core fun c => { c with banksSpilt := Tab.put (2 * l + p.bank) (c.bank p.bank) c.banksSpilt }
  let s := s.setCore core fun c => { c with banksSpilt := s.ownBank p c.banksSpilt }.setBank p.bank p.image
  match p.wave with
  | none => s
  | some k => s.setWave k fun w => { w with outstanding := w.outstanding - 1 }

/-- The commit of the oldest pending image of a core (R191). Log entry 85. -/
def State.commitOldest (core : Nat) (s : State) : State :=
  match (s.core core).pending with
  | [] => s
  | p :: rest => (s.setCore core fun c => { c with pending := rest }).commitImage core p

/-- Commits until no image of a wave is pending in a bank: what an ACT of the loading wave waits for (R133, R191). The number
bounds the pending images. -/
def State.commitFor (core k b : Nat) : Nat → State → State
  | 0, s => s
  | n + 1, s =>
    if (s.core core).pending.any fun p => p.wave == some k && p.bank == b then (s.commitOldest core).commitFor core k b n
    else s

/-- The body of ACT (R190). -/
def actBody (c : Ctx) (s : State) : Act :=
  let core := coreOf c.k
  let s := s.commitFor core c.k c.uimm (s.core core).pending.length
  let b := (s.core core).bank c.uimm
  let own := ((s.launchOf c.w).map (·.id)).getD 0
  let f := fmtOf c.f.t.toNat
  .next (s.writeRegs c (c.lanes.flatMap fun l => wrVal 1 c.f.d.toNat l (actValue own b f (c.w.reg c.f.a.toNat (c.src l)).toNat)))

/-- A bank image as it stands in memory (R189). -/
def bankOf (owner : Word) (ws : List Word) : Bank :=
  let pick := fun (o : Nat) => (List.range 256).foldl (fun t i => Tab.setD 0 i (ws.getD (4 + 2 * i + o) 0) t) ([] : Tab Word)
  { owner := some owner, x0 := ws.getD 0 0, e := (ws.getD 1 0).setWidth 8, slope := pick 0, icept := pick 1 }

/-- The words of a bank image. -/
def imageAccs (c : Ctx) (ea : Dword) : List Acc :=
  ⟨c.low, ea, 16, 4, true, false⟩ :: (List.range 515).map fun i => ⟨c.low, ea + BitVec.ofNat 64 (4 * (i + 1)), 4, 4, true, false⟩

/-- The body of ACTLD (R191): every word checked as a read, the image read, and its commit pending. -/
def actldBody (c : Ctx) (s : State) : Act :=
  if c.lanes.isEmpty then .next s
  else
    let ea := c.w.pair c.f.a.toNat c.low
    let own := ((s.launchOf c.w).map (·.id)).getD 0
    c.access s (imageAccs c ea) true fun s =>
      let r := (c.together 4 ((List.range 516).map fun i => ea + BitVec.ofNat 64 (4 * i)) s).loadWords ea 516 s
      r.2.setCore (coreOf c.k) fun x => { x with pending := x.pending ++ [⟨c.uimm, some c.k, bankOf own r.1⟩] }

/-- ACT (R190). -/
def execAct (f : XF) (s : State) : Out := runWave (.ofX 0x1A0 f) actBody s

/-- ACTLD (R191). -/
def execActld (f : XF) (s : State) : Out := runWave (.ofX 0x1A1 f) actldBody s

/-- ACTLD_COMMIT (R191): the oldest pending image of a core is committed. -/
def execActldCommit (core : Nat) (s : State) : Out := .next (s.commitOldest core)

end Sys2Proof.Machine
end

