-- ==== Sys2Proof/Machine/Integer.lean ====
section
/-! DEFINITION. The integer, logic, shift, bit-field, compare, address and move instructions (R145 to R157): one body
for each operation, and the meaning of each of its encodings. -/

namespace Sys2Proof.Machine

open Sys2Proof

/-- Words of an operand of the instruction's type (R145). -/
def words (c : Ctx) : Nat := tyWords c.f.t

/-- Width w of the instruction's type (R145). -/
def bitsOf (c : Ctx) : Nat := 32 * words c

/-- An operand as the number its type gives it: signed for .i types (R145). -/
def Ctx.num (c : Ctx) (v : Nat) : Int := tyRead c.f.t (bitsOf c) v

/-- The shift count: operand B, a single register, modulo w (R152). -/
def shiftOf (c : Ctx) (l : Nat) : Nat := c.opB 1 l % bitsOf c

/-- Quotient, truncated toward zero, and remainder (R150): all ones and the dividend for a divisor of 0; the dividend and
0 for the most negative number by -1. -/
def divRem (sgn : Bool) (w a b : Nat) : Nat × Nat :=
  let x := if sgn then toSigned w a else (a : Int)
  let y := if sgn then toSigned w b else (b : Int)
  if y = 0 then (2 ^ w - 1, a)
  else (wrap w (Int.tdiv x y), wrap w (x - Int.tdiv x y * y))

/-- The number of 1 bits among the low w bits (R154). -/
def popCount (w v : Nat) : Nat := ((List.range w).filter fun i => v.testBit i).length

/-- The number of 0 bits above the highest 1 of w bits (R154). -/
def leadZeros (w v : Nat) : Nat := if v % 2 ^ w = 0 then w else w - 1 - Nat.log2 (v % 2 ^ w)

/-- The number of 0 bits below the lowest 1 of w bits (R154). -/
def trailZeros (w v : Nat) : Nat := (((List.range w).filter fun i => v.testBit i).headD w)

/-- Bit i moved to bit w - 1 - i (R154). -/
def bitReverse (w v : Nat) : Nat :=
  (List.range w).foldl (fun r i => if v.testBit i then r + 2 ^ (w - 1 - i) else r) 0

/-- The body of IADDC and ISUBB (R148): the result to D, then the carry or borrow word to E. -/
def carryBody (g : Nat → Nat → Nat → Nat → Nat × Nat) : Ctx → State → Act :=
  regBody fun c => c.lanes.flatMap fun l =>
    let n := words c
    let m := c.src l
    let r := g (bitsOf c) (c.opA n m) (c.opB n m) (c.opC 1 m % 2)
    wrVal n c.f.d.toNat l r.1 ++ wrVal 1 c.f.e.toNat l r.2

/-- The body of IADD (R147). -/
def iaddBody : Ctx → State → Act :=
  laneBody words fun c l => wrap (bitsOf c) (c.opA (words c) l + c.opB (words c) l : Int)

/-- IADD (R147). -/
def execIadd (f : XF) (s : State) : Out := runWave (.ofX 0x001 f) iaddBody s

/-- IADD_B32 (R56). -/
def execIaddB32 (f : BF) (s : State) : Out := runWave (.ofB 0x01 f) iaddBody s

/-- IADD_B32_IMM (R56). -/
def execIaddB32Imm (f : BF) (s : State) : Out := runWave (.ofB 0x02 f) iaddBody s

/-- IADD_IMM (R54). -/
def execIaddImm (f : XF) (s : State) : Out := runWave (.ofX 0x041 f) iaddBody s

/-- The body of ISUB (R147). -/
def isubBody : Ctx → State → Act :=
  laneBody words fun c l => wrap (bitsOf c) (c.opA (words c) l - c.opB (words c) l : Int)

/-- ISUB (R147). -/
def execIsub (f : XF) (s : State) : Out := runWave (.ofX 0x002 f) isubBody s

/-- ISUB_B32 (R56). -/
def execIsubB32 (f : BF) (s : State) : Out := runWave (.ofB 0x03 f) isubBody s

/-- ISUB_B32_IMM (R56). -/
def execIsubB32Imm (f : BF) (s : State) : Out := runWave (.ofB 0x04 f) isubBody s

/-- ISUB_IMM (R54). -/
def execIsubImm (f : XF) (s : State) : Out := runWave (.ofX 0x042 f) isubBody s

/-- The body of IADDC (R148): the carry word is written after the sum. -/
def iaddcBody : Ctx → State → Act :=
  carryBody fun w a b cin => (wrap w (a + b + cin : Int), carryOf w a b cin)

/-- IADDC (R148). -/
def execIaddc (f : XF) (s : State) : Out := runWave (.ofX 0x003 f) iaddcBody s

/-- IADDC_B32 (R148). -/
def execIaddcB32 (f : BF) (s : State) : Out := runWave (.ofB 0x25 f) iaddcBody s

/-- The body of ISUBB (R148): the borrow word is written after the difference. -/
def isubbBody : Ctx → State → Act :=
  carryBody fun w a b cin => (wrap w (a - b - cin : Int), borrowOf a b cin)

/-- ISUBB (R148). -/
def execIsubb (f : XF) (s : State) : Out := runWave (.ofX 0x004 f) isubbBody s

/-- ISUBB_B32 (R148). -/
def execIsubbB32 (f : BF) (s : State) : Out := runWave (.ofB 0x26 f) isubbBody s

/-- The body of INEG (R147). -/
def inegBody : Ctx → State → Act :=
  laneBody words fun c l => wrap (bitsOf c) (0 - c.opA (words c) l : Int)

/-- INEG (R147). -/
def execIneg (f : XF) (s : State) : Out := runWave (.ofX 0x005 f) inegBody s

/-- INEG_B32 (R56). -/
def execInegB32 (f : BF) (s : State) : Out := runWave (.ofB 0x1B f) inegBody s

/-- The body of IABS (R147): the most negative value stays. -/
def iabsBody : Ctx → State → Act :=
  laneBody words fun c l =>
    let a := toSigned (bitsOf c) (c.opA (words c) l)
    wrap (bitsOf c) (if a < 0 then 0 - a else a)

/-- IABS (R147). -/
def execIabs (f : XF) (s : State) : Out := runWave (.ofX 0x006 f) iabsBody s

/-- IABS_B32 (R56). -/
def execIabsB32 (f : BF) (s : State) : Out := runWave (.ofB 0x1C f) iabsBody s

/-- The body of IMUL (R147). -/
def imulBody : Ctx → State → Act :=
  laneBody words fun c l => wrap (bitsOf c) (c.opA (words c) l * c.opB (words c) l : Int)

/-- IMUL (R147). -/
def execImul (f : XF) (s : State) : Out := runWave (.ofX 0x007 f) imulBody s

/-- IMUL_B32 (R56). -/
def execImulB32 (f : BF) (s : State) : Out := runWave (.ofB 0x05 f) imulBody s

/-- IMUL_B32_IMM (R56). -/
def execImulB32Imm (f : BF) (s : State) : Out := runWave (.ofB 0x06 f) imulBody s

/-- IMUL_IMM (R54). -/
def execImulImm (f : XF) (s : State) : Out := runWave (.ofX 0x047 f) imulBody s

/-- The body of IMULH (R147): the high half of the exact product, signed for .i types. -/
def imulhBody : Ctx → State → Act :=
  laneBody words fun c l =>
    wrap (bitsOf c) ((c.num (c.opA (words c) l) * c.num (c.opB (words c) l)) / (2 ^ bitsOf c : Int))

/-- IMULH (R147). -/
def execImulh (f : XF) (s : State) : Out := runWave (.ofX 0x008 f) imulhBody s

/-- IMULH_B32 (R56). -/
def execImulhB32 (f : BF) (s : State) : Out := runWave (.ofB 0x24 f) imulhBody s

/-- The body of IMAD (R147). -/
def imadBody : Ctx → State → Act :=
  laneBody words fun c l =>
    wrap (bitsOf c) (c.opA (words c) l * c.opB (words c) l + c.opC (words c) l : Int)

/-- IMAD (R147). -/
def execImad (f : XF) (s : State) : Out := runWave (.ofX 0x009 f) imadBody s

/-- The body of ICSADD (R149): adds, subtracts or passes by the sign of the trit. -/
def icsaddBody : Ctx → State → Act :=
  laneBody words fun c l =>
    let a : Int := c.opA (words c) l
    let b : Int := c.opB (words c) l
    let t := toSigned 32 (c.opC 1 l)
    wrap (bitsOf c) (if 0 < t then a + b else if t < 0 then a - b else a)

/-- ICSADD (R149). -/
def execIcsadd (f : XF) (s : State) : Out := runWave (.ofX 0x00A f) icsaddBody s

/-- The body of IDIV (R150): quotient to D, remainder to E. -/
def idivBody : Ctx → State → Act :=
  regBody fun c => c.lanes.flatMap fun l =>
    let n := words c
    let qr := divRem (tySigned c.f.t) (bitsOf c) (c.opA n (c.src l)) (c.opB n (c.src l))
    wrVal n c.f.d.toNat l qr.1 ++ wrVal n c.f.e.toNat l qr.2

/-- IDIV (R150). -/
def execIdiv (f : XF) (s : State) : Out := runWave (.ofX 0x00B f) idivBody s

/-- The body of IMIN (R147). -/
def iminBody : Ctx → State → Act :=
  laneBody words fun c l =>
    if c.num (c.opA (words c) l) ≤ c.num (c.opB (words c) l) then c.opA (words c) l else c.opB (words c) l

/-- IMIN (R147). -/
def execImin (f : XF) (s : State) : Out := runWave (.ofX 0x00C f) iminBody s

/-- IMIN_B32 (R56). -/
def execIminB32 (f : BF) (s : State) : Out := runWave (.ofB 0x07 f) iminBody s

/-- IMIN_B32_IMM (R56). -/
def execIminB32Imm (f : BF) (s : State) : Out := runWave (.ofB 0x08 f) iminBody s

/-- IMIN_IMM (R54). -/
def execIminImm (f : XF) (s : State) : Out := runWave (.ofX 0x04C f) iminBody s

/-- The body of IMAX (R147). -/
def imaxBody : Ctx → State → Act :=
  laneBody words fun c l =>
    if c.num (c.opB (words c) l) ≤ c.num (c.opA (words c) l) then c.opA (words c) l else c.opB (words c) l

/-- IMAX (R147). -/
def execImax (f : XF) (s : State) : Out := runWave (.ofX 0x00D f) imaxBody s

/-- IMAX_B32 (R56). -/
def execImaxB32 (f : BF) (s : State) : Out := runWave (.ofB 0x09 f) imaxBody s

/-- IMAX_B32_IMM (R56). -/
def execImaxB32Imm (f : BF) (s : State) : Out := runWave (.ofB 0x0A f) imaxBody s

/-- IMAX_IMM (R54). -/
def execImaxImm (f : XF) (s : State) : Out := runWave (.ofX 0x04D f) imaxBody s

/-- The body of ICLAMP (R147): the greater of a and the lower bound, then the lesser of that and the upper bound. -/
def iclampBody : Ctx → State → Act :=
  laneBody words fun c l =>
    wrap (bitsOf c) (min (max (c.num (c.opA (words c) l)) (c.num (c.opB (words c) l))) (c.num (c.opC (words c) l)))

/-- ICLAMP (R147). -/
def execIclamp (f : XF) (s : State) : Out := runWave (.ofX 0x00E f) iclampBody s

/-- The body of ISAT (R151): a 32-bit value, signed or with M = 1 unsigned, clamped to the range of T. -/
def isatBody : Ctx → State → Act :=
  laneBody (fun _ => 1) fun c l =>
    let v : Int := if c.f.m = 1 then (c.opA 1 l : Int) else toSigned 32 (c.opA 1 l)
    wrap 32 (clampI (tyMin c.f.t) (tyMax c.f.t) v)

/-- ISAT (R151). -/
def execIsat (f : XF) (s : State) : Out := runWave (.ofX 0x00F f) isatBody s

/-- The body of AND (R152). -/
def andBody : Ctx → State → Act :=
  laneBody words fun c l => c.opA (words c) l &&& c.opB (words c) l

/-- AND (R152). -/
def execAnd (f : XF) (s : State) : Out := runWave (.ofX 0x010 f) andBody s

/-- AND_B32 (R56). -/
def execAndB32 (f : BF) (s : State) : Out := runWave (.ofB 0x0B f) andBody s

/-- AND_B32_IMM (R56). -/
def execAndB32Imm (f : BF) (s : State) : Out := runWave (.ofB 0x0C f) andBody s

/-- AND_IMM (R54). -/
def execAndImm (f : XF) (s : State) : Out := runWave (.ofX 0x050 f) andBody s

/-- The body of OR (R152). -/
def orBody : Ctx → State → Act :=
  laneBody words fun c l => c.opA (words c) l ||| c.opB (words c) l

/-- OR (R152). -/
def execOr (f : XF) (s : State) : Out := runWave (.ofX 0x011 f) orBody s

/-- OR_B32 (R56). -/
def execOrB32 (f : BF) (s : State) : Out := runWave (.ofB 0x0D f) orBody s

/-- OR_B32_IMM (R56). -/
def execOrB32Imm (f : BF) (s : State) : Out := runWave (.ofB 0x0E f) orBody s

/-- OR_IMM (R54). -/
def execOrImm (f : XF) (s : State) : Out := runWave (.ofX 0x051 f) orBody s

/-- The body of XOR (R152). -/
def xorBody : Ctx → State → Act :=
  laneBody words fun c l => c.opA (words c) l ^^^ c.opB (words c) l

/-- XOR (R152). -/
def execXor (f : XF) (s : State) : Out := runWave (.ofX 0x012 f) xorBody s

/-- XOR_B32 (R56). -/
def execXorB32 (f : BF) (s : State) : Out := runWave (.ofB 0x0F f) xorBody s

/-- XOR_B32_IMM (R56). -/
def execXorB32Imm (f : BF) (s : State) : Out := runWave (.ofB 0x10 f) xorBody s

/-- XOR_IMM (R54). -/
def execXorImm (f : XF) (s : State) : Out := runWave (.ofX 0x052 f) xorBody s

/-- The body of ANDN (R152). -/
def andnBody : Ctx → State → Act :=
  laneBody words fun c l => c.opA (words c) l &&& (2 ^ bitsOf c - 1 - c.opB (words c) l)

/-- ANDN (R152). -/
def execAndn (f : XF) (s : State) : Out := runWave (.ofX 0x013 f) andnBody s

/-- ANDN_B32 (R56). -/
def execAndnB32 (f : BF) (s : State) : Out := runWave (.ofB 0x11 f) andnBody s

/-- ANDN_B32_IMM (R56). -/
def execAndnB32Imm (f : BF) (s : State) : Out := runWave (.ofB 0x12 f) andnBody s

/-- ANDN_IMM (R54). -/
def execAndnImm (f : XF) (s : State) : Out := runWave (.ofX 0x053 f) andnBody s

/-- The body of NOT (R152). -/
def notBody : Ctx → State → Act :=
  laneBody words fun c l => 2 ^ bitsOf c - 1 - c.opA (words c) l

/-- NOT (R152). -/
def execNot (f : XF) (s : State) : Out := runWave (.ofX 0x014 f) notBody s

/-- NOT_B32 (R56). -/
def execNotB32 (f : BF) (s : State) : Out := runWave (.ofB 0x1D f) notBody s

/-- The body of SHL (R152). -/
def shlBody : Ctx → State → Act :=
  laneBody words fun c l => c.opA (words c) l * 2 ^ shiftOf c l

/-- SHL (R152). -/
def execShl (f : XF) (s : State) : Out := runWave (.ofX 0x015 f) shlBody s

/-- SHL_B32 (R56). -/
def execShlB32 (f : BF) (s : State) : Out := runWave (.ofB 0x13 f) shlBody s

/-- SHL_B32_IMM (R56). -/
def execShlB32Imm (f : BF) (s : State) : Out := runWave (.ofB 0x14 f) shlBody s

/-- SHL_IMM (R54). -/
def execShlImm (f : XF) (s : State) : Out := runWave (.ofX 0x055 f) shlBody s

/-- The body of SHR (R152). -/
def shrBody : Ctx → State → Act :=
  laneBody words fun c l => c.opA (words c) l / 2 ^ shiftOf c l

/-- SHR (R152). -/
def execShr (f : XF) (s : State) : Out := runWave (.ofX 0x016 f) shrBody s

/-- SHR_B32 (R56). -/
def execShrB32 (f : BF) (s : State) : Out := runWave (.ofB 0x15 f) shrBody s

/-- SHR_B32_IMM (R56). -/
def execShrB32Imm (f : BF) (s : State) : Out := runWave (.ofB 0x16 f) shrBody s

/-- SHR_IMM (R54). -/
def execShrImm (f : XF) (s : State) : Out := runWave (.ofX 0x056 f) shrBody s

/-- The body of SAR (R152), for every type. -/
def sarBody : Ctx → State → Act :=
  laneBody words fun c l =>
    wrap (bitsOf c) (toSigned (bitsOf c) (c.opA (words c) l) / (2 ^ shiftOf c l : Int))

/-- SAR (R152). -/
def execSar (f : XF) (s : State) : Out := runWave (.ofX 0x017 f) sarBody s

/-- SAR_B32 (R56). -/
def execSarB32 (f : BF) (s : State) : Out := runWave (.ofB 0x17 f) sarBody s

/-- SAR_B32_IMM (R56). -/
def execSarB32Imm (f : BF) (s : State) : Out := runWave (.ofB 0x18 f) sarBody s

/-- SAR_IMM (R54). -/
def execSarImm (f : XF) (s : State) : Out := runWave (.ofX 0x057 f) sarBody s

/-- The body of ROT (R152), to the left. -/
def rotBody : Ctx → State → Act :=
  laneBody words fun c l =>
    let a := c.opA (words c) l
    a * 2 ^ shiftOf c l + a / 2 ^ (bitsOf c - shiftOf c l)

/-- ROT (R152). -/
def execRot (f : XF) (s : State) : Out := runWave (.ofX 0x018 f) rotBody s

/-- ROT_B32 (R56). -/
def execRotB32 (f : BF) (s : State) : Out := runWave (.ofB 0x19 f) rotBody s

/-- ROT_B32_IMM (R56). -/
def execRotB32Imm (f : BF) (s : State) : Out := runWave (.ofB 0x1A f) rotBody s

/-- ROT_IMM (R54). -/
def execRotImm (f : XF) (s : State) : Out := runWave (.ofX 0x058 f) rotBody s

/-- The body of BFX (R153). -/
def bfxBody : Ctx → State → Act :=
  laneBody words fun c l =>
    let p := c.uimm % 64
    let n := c.uimm / 64
    let v := c.opA (words c) l / 2 ^ p % 2 ^ n
    if n = 0 then 0 else if tySigned c.f.t then wrap (bitsOf c) (toSigned n v) else v

/-- BFX (R153). -/
def execBfx (f : XF) (s : State) : Out := runWave (.ofX 0x019 f) bfxBody s

/-- The body of BFI (R153). -/
def bfiBody : Ctx → State → Act :=
  laneBody words fun c l =>
    let p := c.uimm % 64
    let n := c.uimm / 64
    let a := c.opA (words c) l
    a / 2 ^ (p + n) * 2 ^ (p + n) + c.opB (words c) l % 2 ^ n * 2 ^ p + a % 2 ^ p

/-- BFI (R153). -/
def execBfi (f : XF) (s : State) : Out := runWave (.ofX 0x01A f) bfiBody s

/-- The body of POPC (R154). -/
def popcBody : Ctx → State → Act :=
  laneBody (fun _ => 1) fun c l => popCount (bitsOf c) (c.opA (words c) l)

/-- POPC (R154). -/
def execPopc (f : XF) (s : State) : Out := runWave (.ofX 0x01B f) popcBody s

/-- POPC_B32 (R56). -/
def execPopcB32 (f : BF) (s : State) : Out := runWave (.ofB 0x1E f) popcBody s

/-- The body of CLZ (R154). -/
def clzBody : Ctx → State → Act :=
  laneBody (fun _ => 1) fun c l => leadZeros (bitsOf c) (c.opA (words c) l)

/-- CLZ (R154). -/
def execClz (f : XF) (s : State) : Out := runWave (.ofX 0x01C f) clzBody s

/-- CLZ_B32 (R56). -/
def execClzB32 (f : BF) (s : State) : Out := runWave (.ofB 0x1F f) clzBody s

/-- The body of CTZ (R154). -/
def ctzBody : Ctx → State → Act :=
  laneBody (fun _ => 1) fun c l => trailZeros (bitsOf c) (c.opA (words c) l)

/-- CTZ (R154). -/
def execCtz (f : XF) (s : State) : Out := runWave (.ofX 0x01D f) ctzBody s

/-- CTZ_B32 (R56). -/
def execCtzB32 (f : BF) (s : State) : Out := runWave (.ofB 0x20 f) ctzBody s

/-- The body of BREV (R154). -/
def brevBody : Ctx → State → Act :=
  laneBody words fun c l => bitReverse (bitsOf c) (c.opA (words c) l)

/-- BREV (R154). -/
def execBrev (f : XF) (s : State) : Out := runWave (.ofX 0x01E f) brevBody s

/-- BREV_B32 (R56). -/
def execBrevB32 (f : BF) (s : State) : Out := runWave (.ofB 0x21 f) brevBody s

/-- The body of ICMP (R155): 1 or 0 by the condition in M. -/
def icmpBody : Ctx → State → Act :=
  laneBody (fun _ => 1) fun c l =>
    flagWord (icond c.f.m.toNat (c.num (c.opA (words c) l)) (c.num (c.opB (words c) l)))

/-- ICMP (R155). -/
def execIcmp (f : XF) (s : State) : Out := runWave (.ofX 0x020 f) icmpBody s

/-- The body of SEL (R155). -/
def selBody : Ctx → State → Act :=
  laneBody words fun c l => if c.opC 1 l % 2 = 1 then c.opA (words c) l else c.opB (words c) l

/-- SEL (R155). -/
def execSel (f : XF) (s : State) : Out := runWave (.ofX 0x021 f) selBody s

/-- The body of LEA (R156). -/
def leaBody : Ctx → State → Act :=
  laneBody words fun c l =>
    wrap (bitsOf c) (c.opA (words c) l + toSigned 32 (c.opB 1 l) * 2 ^ c.f.m.toNat + c.simm)

/-- LEA (R156). -/
def execLea (f : XF) (s : State) : Out := runWave (.ofX 0x022 f) leaBody s

/-- The body of MOV (R157): operand B. -/
def movBody : Ctx → State → Act :=
  laneBody words fun c l => c.opB (words c) l

/-- MOV (R157). -/
def execMov (f : XF) (s : State) : Out := runWave (.ofX 0x023 f) movBody s

/-- MOV_B32 (R56). -/
def execMovB32 (f : BF) (s : State) : Out := runWave (.ofB 0x22 f) movBody s

/-- The body of MOVI (R157): the sign-extended immediate. -/
def moviBody : Ctx → State → Act :=
  laneBody words fun c _ => wrap (bitsOf c) c.simm

/-- MOVI (R157). -/
def execMovi (f : XF) (s : State) : Out := runWave (.ofX 0x024 f) moviBody s

/-- MOVI_B32 (R56). -/
def execMoviB32 (f : BF) (s : State) : Out := runWave (.ofB 0x23 f) moviBody s

end Sys2Proof.Machine
end

