-- ==== Sys2Proof/Machine/CrossLane.lean ====
section
/-! DEFINITION. The cross-lane instructions (R166 to R170): they act over the enabled lanes of the fragment, every source
read before any lane is written. -/

namespace Sys2Proof.Machine

open Sys2Proof

/-- The lane SHFL reads for lane l (R167); none outside 0 to 31. -/
def shflLane (c : Ctx) (l : Nat) : Option Nat :=
  let d := c.uimm
  match c.f.m.toNat with
  | 0 => some ((c.w.reg c.f.b.toNat l).toNat % 32)
  | 1 => if d ≤ l then some (l - d) else none
  | 2 => if l + d < 32 then some (l + d) else none
  | _ => some (l ^^^ d)

/-- The body of SHFL (R167). -/
def shflBody : Ctx → State → Act :=
  regBody fun c => c.lanes.flatMap fun l =>
    let m := match shflLane c l with
      | some t => if c.lanes.contains t then t else l
      | none => l
    wrVal (words c) c.f.d.toNat l (c.opA (words c) m)

/-- The ballot of VOTE (R168): the enabled lanes whose bit 0 of vA is 1. -/
def ballot (c : Ctx) : Word := maskOf (c.lanes.filter fun l => (c.w.reg c.f.a.toNat l).getLsbD 0)

/-- The value VOTE writes (R168). -/
def voteValue (c : Ctx) : Nat :=
  match c.f.m.toNat with
  | 0 => flagWord (ballot c != 0)
  | 1 => flagWord (ballot c == maskOf c.lanes)
  | 2 => (ballot c).toNat
  | _ => flagWord (c.lanes.all fun l => c.w.reg c.f.a.toNat l == c.w.reg c.f.a.toNat c.low)

/-- The body of VOTE (R168). -/
def voteBody : Ctx → State → Act :=
  regBody fun c => c.lanes.flatMap fun l => wrVal 1 c.f.d.toNat l (voteValue c)

/-- The rounding mode of the instruction where M is no rounding field (R71): the mode register's. -/
def modeRM (c : Ctx) : RM := c.w.mode.toNat % 8

/-- The subnormal mode (R71). -/
def modeSM (c : Ctx) : Nat := c.w.mode.toNat / 16 % 4

/-- The combination of two values by REDX and SCANX (R169). -/
def combine (c : Ctx) (a b : Nat) : Nat :=
  match c.f.m.toNat with
  | 0 => wrap (bitsOf c) (a + b : Int)
  | 1 => if c.num a ≤ c.num b then a else b
  | 2 => if c.num b ≤ c.num a then a else b
  | 3 => a ||| b
  | 4 => f32.enc (modeRM c) (modeSM c) ((f32.read (modeSM c) a).add (modeRM c) (f32.read (modeSM c) b))
  | 5 => f32.enc (modeRM c) (modeSM c) ((f32.read (modeSM c) a).minMax false (f32.read (modeSM c) b))
  | _ => f32.enc (modeRM c) (modeSM c) ((f32.read (modeSM c) a).minMax true (f32.read (modeSM c) b))

/-- One level of the fixed tree of R76: neighbours combined where both hold a value, passed up where one does. -/
def treeLevel (g : Nat → Nat → Nat) : List (Option Nat) → List (Option Nat)
  | a :: b :: r =>
    (match a, b with
      | some u, some v => some (g u v)
      | some u, none => some u
      | none, v => v) :: treeLevel g r
  | r => r

/-- The combination along the fixed tree over the 32 lane positions (R76). -/
def treeFold (g : Nat → Nat → Nat) (xs : List (Option Nat)) : Option Nat :=
  ((List.range 5).foldl (fun xs _ => treeLevel g xs) xs).headD none

/-- The body of REDX (R169): the combination of all enabled lanes to each of them. -/
def redxBody : Ctx → State → Act :=
  regBody fun c =>
    let v := treeFold (combine c) ((List.range 32).map fun l =>
      if c.lanes.contains l then some (c.opA (words c) l) else none)
    c.lanes.flatMap fun l => wrVal (words c) c.f.d.toNat l (v.getD 0)

/-- The inclusive combinations in ascending lane order (R76); the first enabled lane's value goes through unchanged. Log entry
89. -/
def scanFold (g : Nat → Nat → Nat) : Option Nat → List Nat → List Nat
  | _, [] => []
  | none, x :: r => x :: scanFold g (some x) r
  | some a, x :: r => g a x :: scanFold g (some (g a x)) r

/-- The body of SCANX (R169). -/
def scanxBody : Ctx → State → Act :=
  regBody fun c =>
    let vs := scanFold (combine c) none (c.lanes.map fun l => c.opA (words c) l)
    (c.lanes.zip vs).flatMap fun x => wrVal (words c) c.f.d.toNat x.1 x.2

/-- The body of MATCH (R170). -/
def matchBody : Ctx → State → Act :=
  regBody fun c => c.lanes.flatMap fun l =>
    wrVal 1 c.f.d.toNat l (maskOf (c.lanes.filter fun m => c.opA (words c) m == c.opA (words c) l)).toNat

/-- SHFL (R167). -/
def execShfl (f : XF) (s : State) : Out := runWave (.ofX 0x0D0 f) shflBody s

/-- VOTE (R168). -/
def execVote (f : XF) (s : State) : Out := runWave (.ofX 0x0D1 f) voteBody s

/-- REDX (R169). -/
def execRedx (f : XF) (s : State) : Out := runWave (.ofX 0x0D2 f) redxBody s

/-- SCANX (R169). -/
def execScanx (f : XF) (s : State) : Out := runWave (.ofX 0x0D3 f) scanxBody s

/-- MATCH (R170). -/
def execMatchLanes (f : XF) (s : State) : Out := runWave (.ofX 0x0D4 f) matchBody s

end Sys2Proof.Machine
end

