-- ==== Sys2Proof/Machine/Narrow.lean ====
section
/-! DEFINITION. Unpacking, packing and quantising of narrow data, and the search helpers (R183 to R188). -/

namespace Sys2Proof.Machine

open Sys2Proof

/-- The trits of a packed byte (R69), a reserved byte read as five zero trits (R70): trit i of the byte b. -/
def tritOf (b i : Nat) : Int :=
  let b := if 243 ≤ b then 121 else b
  ((b / 3 ^ i % 3 : Nat) : Int) - 1

/-- The body of UNPK3 (R183). -/
def unpk3Body : Ctx → State → Act :=
  regBody fun c => c.lanes.flatMap fun l =>
    let b := c.opA 1 (c.src l) / 2 ^ (8 * c.f.m.toNat) % 256
    (List.range 5).flatMap fun i => wrVal 1 (c.f.d.toNat + i) l (wrap 32 (tritOf b i))

/-- The 32·m-bit block of a lane held in the group of m registers from r (R184). -/
def groupBlock (w : Wave) (r m l : Nat) : Nat :=
  (List.range m).foldl (fun v j => v + (w.reg (r + j) l).toNat * 2 ^ (32 * j)) 0

/-- The writes of a 32·m-bit block to the group of m registers from r. -/
def wrGroup (r m l v : Nat) : List RegW :=
  (List.range m).map fun j => (r + j, l, BitVec.ofNat 32 (v / 2 ^ (32 * j)))

/-- The body of UNPKN (R184). -/
def unpknBody : Ctx → State → Act :=
  laneBody (fun _ => 1) fun c l =>
    let m := blockM c.f.t
    let q := blockCode m (groupBlock c.w c.f.a.toNat m l) (c.opB 1 l % 32)
    if c.f.m = 1 then (f32.round 0 (decide (q < 0)) q.natAbs (1 - (m : Int))).1 else wrap 32 q

/-- The body of PACKN (R185). -/
def packnBody : Ctx → State → Act :=
  regBody fun c => c.lanes.flatMap fun l =>
    let m := blockM c.f.t
    let k := c.src l
    let q : Int := 2 ^ (m - 1) - 1
    let v := putCode m (groupBlock c.w c.f.d.toNat m k) (c.opB 1 k % 32) (clampI (-q) q (toSigned 32 (c.opA 1 k)))
    wrGroup c.f.d.toNat m l v

/-- The body of BFPQ (R186). -/
def bfpqBody (c : Ctx) (s : State) : Act :=
  if c.lanes.isEmpty then .next s
  else
    let m := blockM c.f.t
    let k := c.f.c.toNat
    let r := quantBlock m ((List.range 32).map fun l => if c.lanes.contains l then f32.dec (c.opA 1 l) else .fin false 0 0)
    let s := s.writeRegs c (c.lanes.flatMap fun l => wrVal 1 c.f.d.toNat l (wrap 32 (r.2.getD l 0)))
    .next (s.setWave c.k fun w =>
      (c.lanes.foldl (fun w l => w.putScale k l (BitVec.ofNat 8 r.1)) w).makeBind k
        (mkBind 1 (groupInfo c.f.d.toNat 1 w.landing.mode)))

/-- The four keys of a window of SSI (R187). -/
def window (c : Ctx) (r l : Nat) : List Int :=
  (List.range 4).map fun j => tyRead c.f.t 32 (c.w.reg (r + j) l).toNat

/-- The bits i of a list of keys that satisfy a test, as a number. -/
def keyMask (p : Int → Bool) (ks : List Int) : Nat :=
  ((List.range ks.length).filter fun i => p (ks.getD i 0)).foldl (fun v i => v + 2 ^ i) 0

/-- The body of SSI (R187). -/
def ssiBody : Ctx → State → Act :=
  laneBody (fun _ => 1) fun c l =>
    let a := window c c.f.a.toNat l
    let b := window c c.f.b.toNat l
    let lim := min (a.getD 3 0) (b.getD 3 0)
    keyMask b.contains a + keyMask a.contains b * 16 +
      (a.filter fun x => decide (x ≤ lim)).length * 256 + (b.filter fun x => decide (x ≤ lim)).length * 4096

/-- A list with an element put at a place and the last one dropped. -/
def insertKeep {α : Type} (i : Nat) (x : α) (xs : List α) : List α := (xs.take i ++ x :: xs.drop i).take xs.length

/-- The body of KINS (R188). -/
def kinsBody : Ctx → State → Act :=
  regBody fun c => c.lanes.flatMap fun l =>
    let m := c.src l
    let k := c.uimm % 8 + 1
    let num := fun v => tyRead c.f.t 32 v
    let keys := (List.range k).map fun j => (c.w.reg (c.f.d.toNat + j) m).toNat
    let pays := (List.range k).map fun j => (c.w.reg (c.f.c.toNat + j) m).toNat
    let x := c.opA 1 m
    let better := fun v => if 8 ≤ c.uimm then decide (num x < num v) else decide (num v < num x)
    let pos := (keys.filter fun v => !better v).length
    (List.range k).flatMap fun j =>
      if j < pos then []
      else
        wrVal 1 (c.f.d.toNat + j) l ((insertKeep pos x keys).getD j 0) ++
          wrVal 1 (c.f.c.toNat + j) l ((insertKeep pos (c.opB 1 m) pays).getD j 0)

/-- UNPK3 (R183). -/
def execUnpk3 (f : XF) (s : State) : Out := runWave (.ofX 0x181 f) unpk3Body s

/-- UNPKN (R184). -/
def execUnpkn (f : XF) (s : State) : Out := runWave (.ofX 0x182 f) unpknBody s

/-- PACKN (R185). -/
def execPackn (f : XF) (s : State) : Out := runWave (.ofX 0x183 f) packnBody s

/-- BFPQ (R186). -/
def execBfpq (f : XF) (s : State) : Out := runWave (.ofX 0x184 f) bfpqBody s

/-- SSI (R187). -/
def execSsi (f : XF) (s : State) : Out := runWave (.ofX 0x190 f) ssiBody s

/-- KINS (R188). -/
def execKins (f : XF) (s : State) : Out := runWave (.ofX 0x191 f) kinsBody s

end Sys2Proof.Machine
end

