-- ==== Sys2Proof/Machine/Scale.lean ====
section
/-! DEFINITION. The scale register file (R193 to R205). -/

namespace Sys2Proof.Machine

open Sys2Proof

/-- A list of scales written to k j (R193). -/
def Wave.putScales (w : Wave) (j : Nat) (vs : List (Nat × Byte)) : Wave :=
  vs.foldl (fun w v => w.putScale j v.1 v.2) w

/-- The address of the scale byte of a lane (R200): its own, or with .row the lowest enabled lane's plus the lane. -/
def scaleEa (c : Ctx) (l : Nat) : Dword := if c.f.m = 1 then c.ea c.low + BitVec.ofNat 64 l else c.ea l

/-- The byte accesses of SLD and SST. -/
def scaleAccs (c : Ctx) (wr : Bool) : List Acc := c.lanes.map fun l => ⟨l, scaleEa c l, 1, 1, !wr, wr⟩

/-- Bytes loaded one after another, with their lanes. -/
def State.loadEach (who : Who) (n : Nat) : List (Nat × Dword) → State → List (Nat × Nat) × State
  | [], s => ([], s)
  | (l, a) :: r, s =>
    let x := s.load who a n
    let q := x.2.loadEach who n r
    ((l, x.1) :: q.1, q.2)

/-- The body of SLD (R200). -/
def sldBody (c : Ctx) (s : State) : Act :=
  if c.lanes.isEmpty then .next s
  else
    c.access s (scaleAccs c false) true fun s =>
      let r := c.loadLanes 1 (c.lanes.map fun l => (l, scaleEa c l)) s
      r.2.setWave c.k fun w =>
        (w.putScales c.f.d.toNat (r.1.map fun x => (x.1, BitVec.ofNat 8 x.2))).putBind c.f.d.toNat 0

/-- The body of SST per lane or .row (R200). -/
def sstBody (c : Ctx) (s : State) : Act :=
  c.access s (scaleAccs c true) false fun s =>
    (c.lanes.foldl (fun s l => c.storeNow 1 (scaleEa c l) (c.w.scale c.f.d.toNat l).toNat s) s).clearPoison
      (s.partOf c.w) (scaleAccs c true)

/-- The trap of a consumer that finds a stale k register (R197): the lowest-numbered one. -/
def staleTrap (c : Ctx) (ks : List Nat) : Option TrapInfo :=
  if c.lanes.isEmpty then none
  else
    match (List.range 32).find? fun k => ks.contains k && bindStale (c.w.bind k) with
    | none => none
    | some k => some { c.trap 0x08 with kreg := k }

/-- The capacity of a scale FIFO, in scales (R256). -/
def scaleFifo : Nat := 4096

/-- The scale FIFO of a target: X, or W. -/
def Mx.scales (m : Mx) (w : Bool) : List ScaleEntry := if w then m.wScale else m.xScale

/-- Scales pushed to a target's FIFO. -/
def Mx.pushScales (w : Bool) (es : List ScaleEntry) (m : Mx) : Mx :=
  if w then { m with wScale := m.wScale ++ es } else { m with xScale := m.xScale ++ es }

/-- The 32 tagged entries of SST .x or .w (R200). -/
def scaleEntries (w : Wave) (j : Nat) : List ScaleEntry :=
  (List.range 32).map fun l => ⟨w.scale j l, (bindInfo (w.bind j) + l) % 2 ^ 24⟩

/-- The body of SST .x and .w (R200): M = 2 is .x, 3 is .w. -/
def sstStreamBody (c : Ctx) (s : State) : Act :=
  let j := c.f.d.toNat
  let tgt := decide (c.f.m = 3)
  let mx := (s.core (coreOf c.k)).mx
  if c.lanes.isEmpty then .next s
  else
    match staleTrap c [j] with
    | some t => .trap t
    | none =>
      if bindKind (c.w.bind j) ≠ (if tgt then 4 else 3) then .trap (c.trap 0x09)
      else if mx.holder ≠ some c.w.team then .trap { c.trap 0x09 with sub := 7, queue := 2 }
      else if scaleFifo < (mx.scales tgt).length + 32 then .wait .stall s
      else
        .next ((s.setCore (coreOf c.k) fun x => { x with mx := x.mx.pushScales tgt (scaleEntries c.w j) }).setWave c.k
          fun w => w.putBind j (setStale (w.bind j)))

/-- The body of SMOV (R201). -/
def smovBody (c : Ctx) (s : State) : Act :=
  let d := c.f.d.toNat
  let a := c.f.a.toNat
  if c.lanes.isEmpty then .next s
  else
    match c.f.m.toNat with
    | 0 =>
      .next (s.setWave c.k fun w =>
        (w.putScales d (c.lanes.map fun l => (l, c.w.scale a l))).putBind d
          (if bindStale (c.w.bind a) then lostBind else 0))
    | 1 =>
      .next (s.setWave c.k fun w =>
        (w.putScales d (c.lanes.map fun l => (l, (c.w.reg a l).setWidth 8))).putBind d 0)
    | _ => .next (s.writeRegs c (c.lanes.flatMap fun l => wrVal 1 d l (c.w.scale a l).toNat))

/-- The checks of a tile binding (R202): alignment, then the window. -/
def tileBad (c : Ctx) (tm : Team) (t : Nat) : Option TrapInfo :=
  if t % 16 ≠ 0 then some { c.trap 0x04 with lane := c.low, addr := BitVec.ofNat 64 t }
  else if tm.window < t + c.uimm then some { c.trap 0x07 with lane := c.low, addr := BitVec.ofNat 64 t }
  else none

/-- The body of SBIND (R202). -/
def sbindBody (c : Ctx) (s : State) : Act :=
  let d := c.f.d.toNat
  let v := c.w.reg c.f.a.toNat c.low
  if c.lanes.isEmpty then .next s
  else
    match c.f.m.toNat with
    | 0 =>
      .next (s.setWave c.k fun w =>
        w.makeBind d (mkBind 1 (groupInfo c.f.a.toNat (c.uimm % 8 + 1) w.landing.mode)))
    | 1 =>
      match (s.teamOf c.w).bind fun tm => tileBad c tm v.toNat with
      | some t => .trap t
      | none => .next (s.setWave c.k (·.makeBind d (mkBind 2 (v.toNat / 16 + (c.uimm / 16 - 1) * 2 ^ 16))))
    | 2 => .next (s.setWave c.k (·.makeBind d (mkBind 3 (v.toNat % 2 ^ 24))))
    | 3 => .next (s.setWave c.k (·.makeBind d (mkBind 4 (v.toNat % 2 ^ 24))))
    | _ => .next (s.setWave c.k (·.putBind d 0))

/-- The body of SADD, SSUB, SMAX and SMIN (R203). -/
def scale2Body (g : Nat → Nat → Nat) (c : Ctx) (s : State) : Act :=
  .next (s.setWave c.k fun w =>
    w.putScales c.f.d.toNat (c.lanes.map fun l =>
      (l, BitVec.ofNat 8 (g (c.w.scale c.f.a.toNat l).toNat (c.w.scale c.f.b.toNat l).toNat))))

/-- 2^(a - 127) as FP32 (R203). -/
def scaleF32 (a : Nat) : Nat := if a = 0 then 2 ^ 22 else a * 2 ^ 23

/-- The scale SCVT .e8 makes of an FP32 value (R203). -/
def e8Of (x : FVal) : Nat :=
  match x with
  | .nan => 0
  | .inf _ => 254
  | .fin _ m e => if m = 0 then 0 else (clampI 0 254 (topExp m e + 127)).toNat

/-- The body of SCVT (R203). -/
def scvtBody (c : Ctx) (s : State) : Act :=
  if c.f.m = 0 then
    .next (s.writeRegs c (c.lanes.flatMap fun l => wrVal 1 c.f.d.toNat l (scaleF32 (c.w.scale c.f.a.toNat l).toNat)))
  else
    .next (s.setWave c.k fun w =>
      w.putScales c.f.d.toNat (c.lanes.map fun l => (l, BitVec.ofNat 8 (e8Of (f32.dec (c.opA 1 l))))))

/-- The exponent of SACC at a lane (R204). -/
def saccExp (c : Ctx) (l : Nat) : Int :=
  ((c.w.scale c.f.b.toNat l).toNat : Int) - 127 + ((c.w.scale c.f.c.toNat l).toNat - 127) - c.f.m.toNat

/-- The body of SACC (R204). -/
def saccBody (c : Ctx) (s : State) : Act :=
  match staleTrap c [c.f.b.toNat, c.f.c.toNat] with
  | some t => .trap t
  | none =>
    .next (s.writeRegs c (c.lanes.flatMap fun l =>
      wrVal 1 c.f.d.toNat l (scaledAcc (c.w.reg c.f.d.toNat l).toNat (toSigned 32 (c.opA 1 l)) (saccExp c l))))

/-- The body of SQRY (R205). -/
def sqryBody (c : Ctx) (s : State) : Act :=
  .next (s.writeRegs c (c.lanes.flatMap fun l => wrVal 1 c.f.d.toNat l (c.w.bind c.f.a.toNat).toNat))

/-- SLD (R200). -/
def execSld (f : XF) (s : State) : Out := runWave (.ofX 0x1C0 f) sldBody s

/-- SST (R200). -/
def execSst (f : XF) (s : State) : Out := runWave (.ofX 0x1C1 f) sstBody s

/-- SST_STREAM (R200). -/
def execSstStream (f : XF) (s : State) : Out := runWave (.ofX 0x1C1 f) sstStreamBody s

/-- SMOV (R201). -/
def execSmov (f : XF) (s : State) : Out := runWave (.ofX 0x1C2 f) smovBody s

/-- SBIND (R202). -/
def execSbind (f : XF) (s : State) : Out := runWave (.ofX 0x1C3 f) sbindBody s

/-- SADD (R203). -/
def execSadd (f : XF) (s : State) : Out := runWave (.ofX 0x1C4 f) (scale2Body fun a b => (clampI 0 254 (a + b - 127 : Int)).toNat) s

/-- SSUB (R203). -/
def execSsub (f : XF) (s : State) : Out := runWave (.ofX 0x1C5 f) (scale2Body fun a b => (clampI 0 254 (a - b + 127 : Int)).toNat) s

/-- SMAX (R203). -/
def execSmax (f : XF) (s : State) : Out := runWave (.ofX 0x1C6 f) (scale2Body max) s

/-- SMIN (R203). -/
def execSmin (f : XF) (s : State) : Out := runWave (.ofX 0x1C7 f) (scale2Body min) s

/-- SCVT (R203). -/
def execScvt (f : XF) (s : State) : Out := runWave (.ofX 0x1C8 f) scvtBody s

/-- SACC (R204). -/
def execSacc (f : XF) (s : State) : Out := runWave (.ofX 0x1C9 f) saccBody s

/-- SQRY (R205). -/
def execSqry (f : XF) (s : State) : Out := runWave (.ofX 0x1CA f) sqryBody s

end Sys2Proof.Machine
end

