-- ==== Sys2Proof/Machine/LoadStore.lean ====
section
/-! DEFINITION. Loads, stores, blocks, prefetch, page bindings and line write-backs (R104 to R110). -/

namespace Sys2Proof.Machine

open Sys2Proof

/-- Bytes of an access of the instruction's type (R104). -/
def sizeT (c : Ctx) : Nat := tyBytes c.f.t

/-- A loaded value as it is written to its register or pair (R63). -/
def loadedVal (c : Ctx) (v : Nat) : Nat :=
  if words c = 2 then v else extend32 (tySigned c.f.t) (8 * sizeT c) v

/-- The values of the lanes that performed an access, written to every enabled lane (R35). -/
def lanesGet (c : Ctx) (r : List (Nat × Nat)) : List RegW :=
  c.lanes.flatMap fun l => wrVal (words c) c.f.d.toNat l (loadedVal c ((r.lookup (c.src l)).getD 0))

/-- The address of a lane of LDU (R104). -/
def lduEa (c : Ctx) (l : Nat) : Dword := c.ea c.low + BitVec.ofNat 64 (sizeT c * l)

/-- The accesses of the acting lanes at addresses of the instruction's type. -/
def typeAccs (c : Ctx) (ea : Nat → Dword) (rd wr : Bool) : List Acc :=
  c.actors.map fun l => ⟨l, ea l, sizeT c, sizeT c, rd, wr⟩

/-- The body of LD and LDU (R104). -/
def loadBody (ea : Ctx → Nat → Dword) (c : Ctx) (s : State) : Act :=
  c.access s (typeAccs c (ea c) true false) true fun s =>
    let r := c.loadLanes (sizeT c) (c.actors.map fun l => (l, ea c l)) s
    r.2.writeRegs c (lanesGet c r.1)

/-- The body of ST (R104): ascending lanes, so the highest lane's value remains (R82). -/
def stBody (c : Ctx) (s : State) : Act :=
  c.access s (typeAccs c c.ea false true) false fun s =>
    (c.actors.foldl (fun s l => c.storeLane (sizeT c) (c.ea l) (c.w.val (words c) c.f.d.toNat l) s) s).clearPoison
      (s.partOf c.w) (typeAccs c c.ea false true)

/-- Where a lane's mantissas start, and where its scale byte stands (R105). -/
def blockAt (c : Ctx) (l : Nat) : Dword × Dword :=
  if c.f.m = 0 then (c.ea l + 4, c.ea l) else (c.ea l, c.w.pair c.f.b.toNat l)

/-- The accesses of LDBF at a lane (R100, R105). -/
def blockAccs (c : Ctx) (l : Nat) : List Acc :=
  let a := blockAt c l
  let ws := (List.range (blockM c.f.t)).map fun j => (⟨l, a.1 + BitVec.ofNat 64 (4 * j), 4, 4, true, false⟩ : Acc)
  if c.f.m = 0 then ⟨l, a.2, 4, 1, true, false⟩ :: ws else ws ++ [⟨l, a.2, 1, 1, true, false⟩]

/-- The addresses of the mantissa words of a list of lanes. -/
def blockWords (c : Ctx) (ls : List Nat) : List Dword :=
  ls.flatMap fun l => (List.range (blockM c.f.t)).map fun j => (blockAt c l).1 + BitVec.ofNat 64 (4 * j)

/-- The blocks of a list of lanes loaded, each word and each scale as it may have been read ahead (R80, R382, R383): the register
writes and the scales. -/
def loadBlocks (c : Ctx) : List Nat → State → (List RegW × List (Nat × Byte)) × State
  | [], s => (([], []), s)
  | l :: r, s =>
    let a := blockAt c l
    let m := blockM c.f.t
    let x := c.loadWords a.1 m s
    let v := (List.range m).foldl (fun v j => v + (x.1.getD j 0).toNat * 2 ^ (32 * j)) 0
    let y := c.loadLane 1 a.2 x.2
    let q := loadBlocks c r y.2
    ((wrGroup c.f.d.toNat m l (substBlock m v) ++ q.1.1, (l, BitVec.ofNat 8 y.1) :: q.1.2), q.2)

/-- The body of LDBF (R105): the binding is made even when no lane is enabled. -/
def ldbfBody (c : Ctx) (s : State) : Act :=
  c.access s (c.lanes.flatMap (blockAccs c)) true fun s =>
    let c' := (c.together 4 (blockWords c c.lanes) s).together 1 (c.lanes.map fun l => (blockAt c l).2) s
    let r := loadBlocks c' c.lanes s
    (r.2.writeRegs c r.1.1).setWave c.k fun w =>
      (w.putScales c.f.c.toNat r.1.2).makeBind c.f.c.toNat
        (mkBind 1 (groupInfo c.f.d.toNat (blockM c.f.t) w.landing.mode))

/-- A fill requested of the line that holds a team address, where its page is stash-mapped and the line unfilled (R103). -/
def State.requestFill (team t : Nat) (hint : Hint) (s : State) : State :=
  match Tab.find team s.teams with
  | none => s
  | some tm =>
    match (tm.page t).bound with
    | none => s
    | some (_, pa) =>
      if ((tm.page t).line t).filled then s
      else
        (s.request 0 tm.core hint (lineOf (pa + t % 4096))).setTeam team fun tm =>
          tm.setLine t { (tm.page t).line t with requested := true }

/-- The request of PREF at an address that passes its checks (R106): a fill, or the line into the L1 and its home slice. -/
def State.prefetch (who : Who) (ea : Dword) (s : State) : State :=
  match classify ea with
  | .scratch t => s.requestFill who.team t who.hint
  | .global va =>
    match s.translate who.part va with
    | none => s
    | some (_, pa) => s.reach who (lineOf pa)
  | .nonCanonical => s

/-- The body of PREF (R106): a lane whose address fails a check requests nothing; a request that a stop blocks is a partition
fault (R353). PREF has no size, so that no address of it is misaligned. Log entry 86. -/
def prefBody (c : Ctx) (s : State) : Act :=
  match s.teamOf c.w with
  | none => .next s
  | some tm =>
    let ls := c.actors.filter fun l => (s.checkAccess (s.partOf c.w) tm (c.ea l) 1 1 true false).isNone
    if ls.any fun l => s.breaks (s.partOf c.w) tm ⟨l, c.ea l, 1, 1, false, false⟩ then
      .wait .stall (s.foundFault (s.partOf c.w))
    else .next (ls.foldl (fun s l => s.prefetch (c.who s) (c.ea l)) s)

/-- The checks of SPMAP and STASH on a lane, and of UNSTASH, which takes the first two (R107, R108). -/
def mapBad (c : Ctx) (s : State) (tm : Team) (bind : Bool) (l : Nat) : Option TrapInfo :=
  let ea := c.ea l
  let g := c.w.pair c.f.b.toNat l
  let bad := fun (code sub : Nat) (a : Dword) => some { c.trap code with sub := sub, lane := l, addr := a }
  if ea.toNat % 4096 ≠ 0 then bad 0x04 0 ea
  else if bind && g.toNat % 4096 != 0 then bad 0x04 0 g
  else
    match classify ea with
    | .scratch t =>
      if tm.window ≤ t then bad 0x07 0 ea
      else if bind then
        match classify g with
        | .nonCanonical => bad 0x05 0 g
        | .scratch _ => bad 0x05 1 g
        | .global va =>
          match s.translate (s.partOf c.w) va with
          | none => bad 0x05 1 g
          | some (e, _) => if e.r then none else bad 0x06 0 g
      else none
    | _ => bad 0x07 0 ea

/-- The contents of a page of the window dropped. -/
def Team.dropPage (p : Nat) (tm : Team) : Team :=
  { tm with scratch := tm.scratch.filter fun e => e.1 / 4096 != p }

/-- The bytes of a plain page as an access that is resolved under its old binding finds them from now on (R110). -/
def Team.keepGone (p : Nat) (tm : Team) : Team :=
  if (tm.page (4096 * p)).bound.isSome then tm
  else
    let rest := tm.gone.filter fun e => e.1 / 4096 != p
    { tm with gone := (tm.scratch.filter fun e => e.1 / 4096 == p).foldl (fun t e => Tab.setD 0 e.1 e.2 t) rest }

/-- A page about to take another binding (R107, R108, R110): its dirty lines are written back, tile bindings over it become stale
(R196), and no read ahead of what it held is in date after an acquire. -/
def State.openPage (team p : Nat) (s : State) : State :=
  let loc := match (Tab.find team s.teams).bind fun tm => (tm.page (4096 * p)).bound with
    | some (_, pa) => pa
    | none => windowLoc team (4096 * p)
  ((s.writeBackPage team p).staleTile team (4096 * p) 4096).unloose loc 4096

/-- A page bound to a global range (R107): its dirty lines written back, its contents discarded, its lines unfilled. The page
keeps the physical page that its range is mapped to now. Log entry 87. -/
def State.bindPage (team p : Nat) (va pa : Nat) (s : State) : State :=
  (s.openPage team p).setTeam team fun tm =>
    { (tm.keepGone p).dropPage p with pages := Tab.put p ⟨some (va, pa), [], true⟩ tm.pages }

/-- The fills of every line of a page requested (R107). -/
def State.fillPage (team p : Nat) (hint : Hint) (s : State) : State :=
  (List.range 32).foldl (fun s j => s.requestFill team (4096 * p + 128 * j) hint) s

/-- Whether a page that loses its binding makes a request that is a partition fault (R353, R370): the write-back of a dirty
line, or, where what it held is kept, the read of a filled line whose copy is away. -/
def State.pageBreaks (s : State) (p : Nat) (keeps : Bool) (pg : Page) : Bool :=
  match pg.bound with
  | none => false
  | some (_, pa) => pg.lines.any fun e =>
      let reads := keeps && e.2.had && !e.2.filled
      ((e.2.dirty.isSome || reads) && !s.ownsStop p (pa + 128 * e.1)) ||
        (reads && s.poison.contains (lineOf (pa + 128 * e.1)))

/-- Whether SPMAP or STASH makes a request at a lane that is a partition fault (R353): a write-back, or a fill that STASH requests
behind a stop not owned. -/
def mapBreaks (fill : Bool) (c : Ctx) (s : State) (tm : Team) (l : Nat) : Bool :=
  let p := s.partOf c.w
  match classify (c.ea l), classify (c.w.pair c.f.b.toNat l) with
  | .scratch t, .global va =>
    s.pageBreaks p false (tm.page t) ||
      (fill && ((s.translate p va).map fun x => (List.range 32).any fun j => !s.ownsStop p (x.2 + 128 * j)).getD false)
  | _, _ => false

/-- The body of SPMAP and STASH (R107): the wave's own later accesses use the new binding (R110). -/
def spmapBody (fill : Bool) (c : Ctx) (s : State) : Act :=
  match s.teamOf c.w with
  | none => .next s
  | some tm =>
    match c.actors.findSome? (mapBad c s tm true) with
    | some t => .trap t
    | none =>
      if c.actors.any (mapBreaks fill c s tm) then .wait .stall (s.foundFault (s.partOf c.w)) else
      if !s.canPin c.w.team (teamAddrs (c.actors.map fun l => ⟨l, c.ea l, 1, 1, false, false⟩)) then .wait .stall s else
      .next (c.actors.foldl (fun s l =>
        let s := s.setWave c.k Wave.noEarly
        match classify (c.ea l), classify (c.w.pair c.f.b.toNat l) with
        | .scratch t, .global va =>
          match s.translate (s.partOf c.w) va with
          | none => s
          | some (_, pa) =>
            let s := (s.pin c.w.team t).bindPage c.w.team (t / 4096) va pa
            if fill then s.fillPage c.w.team (t / 4096) (hintOf c.f.h) else s
        | _, _ => s) s)

/-- The bytes of the filled lines of a stash-mapped page, as the page sees them. -/
def State.pageBytes (cl team p : Nat) : List Nat → State → List (Nat × List Byte) × State
  | [], s => ([], s)
  | j :: r, s =>
    let t := 4096 * p + 128 * j
    let filled := ((Tab.find team s.teams).map fun tm => ((tm.page t).line t).had).getD false
    if filled then
      let x := s.readScratch .normal cl team t 128
      let q := x.2.pageBytes cl team p r
      ((t, x.1) :: q.1, q.2)
    else s.pageBytes cl team p r

/-- A stash-mapped page made plain (R108); a plain one stays as it is, but for the bindings over it (R196). -/
def State.unstash (cl team p : Nat) (s : State) : State :=
  match (Tab.find team s.teams).bind fun tm => (tm.page (4096 * p)).bound with
  | none => s.staleTile team (4096 * p) 4096
  | some _ =>
    let r := (s.openPage team p).pageBytes cl team p (List.range 32)
    r.2.setTeam team fun tm =>
      r.1.foldl (fun tm x => tm.putBytes x.1 x.2) { tm.dropPage p with pages := Tab.put p Page.plain tm.pages }

/-- The body of UNSTASH (R108). -/
def unstashBody (c : Ctx) (s : State) : Act :=
  match s.teamOf c.w with
  | none => .next s
  | some tm =>
    match c.actors.findSome? (mapBad c s tm false) with
    | some t => .trap t
    | none =>
      if c.actors.any fun l => s.pageBreaks (s.partOf c.w) true (tm.page (bits (c.ea l) 0 32).toNat) then
        .wait .stall (s.foundFault (s.partOf c.w)) else
      if !s.canPin c.w.team (teamAddrs (c.actors.map fun l => ⟨l, c.ea l, 1, 1, false, false⟩)) then .wait .stall s else
      .next (c.actors.foldl (fun s l =>
        let s := s.setWave c.k Wave.noEarly
        match classify (c.ea l) with
        | .scratch t => (s.pin c.w.team t).unstash (c.who s).cl c.w.team (t / 4096)
        | _ => s) s)

/-- The write-back of a dirty stash line, which stays filled and clean (R103, R109). -/
def State.writeBackLine (team t : Nat) (s : State) : State :=
  match Tab.find team s.teams with
  | none => s
  | some tm =>
    match (tm.page t).bound, ((tm.page t).line t).dirty with
    | some (_, pa), some bs =>
      (s.putHome (s.ownerOf (clusterOf tm.core)) (pa + t % 4096 / 128 * 128) bs).setTeam team fun tm =>
        tm.setLine t { (tm.page t).line t with dirty := none }
    | _, _ => s

/-- INVAL of a filled stash line (R109): discarded; a dirty one counts as a write to every byte of the line. That another party's
write has invalidated the copy is told at its refill still (R196). -/
def State.invalLine (team t : Nat) (s : State) : State :=
  match Tab.find team s.teams with
  | none => s
  | some tm =>
    let l := (tm.page t).line t
    if (tm.page t).bound.isSome && l.had then
      let loc := ((tm.page t).bound.map (·.2)).getD 0 + t % 4096 / 128 * 128
      let s := if l.dirty.isSome then (s.staleTile team (t / 128 * 128) 128).unloose loc 128 else s
      s.setTeam team fun tm => tm.setLine t { StashLine.empty with invalidated := l.invalidated }
    else s

/-- FLUSH or INVAL of the line of an address (R109). -/
def State.flushAt (who : Who) (inval : Bool) (ea : Dword) (s : State) : State :=
  match classify ea with
  | .scratch t =>
    let s := s.pin who.team t
    if inval then s.invalLine who.team t else s.writeBackLine who.team t
  | .global va =>
    match s.translate who.part va with
    | none => s
    | some (_, pa) =>
      let s := s.publishLine who.cl (lineOf pa)
      if inval then s.setCore who.core (·.dropL1 (lineOf pa)) else s
  | .nonCanonical => s

/-- The dirty lines of stash-mapped pages among those that INVAL takes, which it writes (R109), as accesses. -/
def Team.discards (tm : Team) (as : List Acc) : List Acc :=
  as.filterMap fun a =>
    match classify a.ea with
    | .scratch t =>
      if (tm.page t).bound.isSome && ((tm.page t).line t).dirty.isSome then
        some ⟨a.lane, apertureOf (t / 128 * 128), 128, 128, false, true⟩
      else none
    | _ => none

/-- Whether a request for the place of an address would meet a stop that its partition does not own (R353). -/
def State.blocked (s : State) (p : Nat) (tm : Team) (ea : Dword) : Bool :=
  ((s.physOf p tm ea).map fun pa => !s.ownsStop p pa).getD false

/-- The body of FLUSH and INVAL (R109), which read nothing: addresses are checked as reads, without alignment. -/
def flushBody (inval : Bool) (c : Ctx) (s : State) : Act :=
  let as := c.actors.map fun l => (⟨l, c.ea l, 1, 1, true, false⟩ : Acc)
  match s.teamOf c.w with
  | none => .next s
  | some tm =>
    match c.failing s tm as with
    | some t => .trap t
    | none =>
      if as.any fun a => s.blocked (s.partOf c.w) tm a.ea then .wait .stall (s.foundFault (s.partOf c.w))
      else if !s.canPin c.w.team (teamAddrs as) then .wait .stall s
      else
        let t := (c.actors.foldl (fun s l => s.flushAt (c.who s) inval (c.ea l)) s).addFoot c.w.team as
        .next (t.perform c.k c.i (if inval then tm.discards as else []))

/-- STASH_FILL (R103): the background fill of a requested line of a stash-mapped page completes; one that a stop blocks, or that
reads a poisoned line, is a partition fault (R353, R370). -/
def execStashFill (team page line : Nat) (s : State) : Out :=
  let t := 4096 * page + 128 * line
  match Tab.find team s.teams with
  | none => .next s
  | some tm =>
    if !(((tm.page t).line t).requested && (tm.page t).pinned && decide (line < 32)) then .next s
    else if s.breaks (s.teamPart tm) tm ⟨0, apertureOf t, 128, 128, true, false⟩ then .next (s.foundFault (s.teamPart tm))
    else .next (s.fillLine team t .normal)

/-- LD (R104). -/
def execLd (f : XF) (s : State) : Out := runWave (.ofX 0x200 f) (loadBody Ctx.ea) s

/-- LD_B32 (R56). -/
def execLdB32 (f : BF) (s : State) : Out := runWave (.ofB 0x60 f) (loadBody Ctx.ea) s

/-- ST (R104). -/
def execSt (f : XF) (s : State) : Out := runWave (.ofX 0x201 f) stBody s

/-- ST_B32 (R56). -/
def execStB32 (f : BF) (s : State) : Out := runWave (.ofB 0x61 f) stBody s

/-- LDU (R104). -/
def execLdu (f : XF) (s : State) : Out := runWave (.ofX 0x202 f) (loadBody lduEa) s

/-- LDU_B32 (R56). -/
def execLduB32 (f : BF) (s : State) : Out := runWave (.ofB 0x62 f) (loadBody lduEa) s

/-- LDBF (R105). -/
def execLdbf (f : XF) (s : State) : Out := runWave (.ofX 0x203 f) ldbfBody s

/-- PREF (R106). -/
def execPref (f : XF) (s : State) : Out := runWave (.ofX 0x204 f) prefBody s

/-- PREF_B32 (R56). -/
def execPrefB32 (f : BF) (s : State) : Out := runWave (.ofB 0x63 f) prefBody s

/-- SPMAP (R107). -/
def execSpmap (f : XF) (s : State) : Out := runWave (.ofX 0x210 f) (spmapBody false) s

/-- STASH (R107). -/
def execStash (f : XF) (s : State) : Out := runWave (.ofX 0x211 f) (spmapBody true) s

/-- UNSTASH (R108). -/
def execUnstash (f : XF) (s : State) : Out := runWave (.ofX 0x212 f) unstashBody s

/-- FLUSH (R109). -/
def execFlush (f : XF) (s : State) : Out := runWave (.ofX 0x213 f) (flushBody false) s

/-- INVAL (R109). -/
def execInval (f : XF) (s : State) : Out := runWave (.ofX 0x214 f) (flushBody true) s

end Sys2Proof.Machine
end

