-- ==== Sys2Proof/Machine/Atomic.lean ====
section
/-! DEFINITION. Atomics and fences (R113 to R119). -/

namespace Sys2Proof.Machine

open Sys2Proof

/-- Read-modify-writes one after another, in lane order (R82): the old values. -/
def Ctx.rmwEach (c : Ctx) (n : Nat) (g : Nat → Nat → Nat) : List (Nat × Dword) → State → List (Nat × Nat) × State
  | [], s => ([], s)
  | (l, a) :: r, s =>
    let x := c.rmwLane n a (g l) s
    let q := c.rmwEach n g r x.2
    ((l, x.1) :: q.1, q.2)

/-- The body of an atomic of n bytes (R113): the new value from the lane and the old one. -/
def rmwBody (n : Ctx → Nat) (g : Ctx → Nat → Nat → Nat) (c : Ctx) (s : State) : Act :=
  c.access s (c.actors.map fun l => ⟨l, c.ea l, n c, n c, true, true⟩) true fun s =>
    let r := c.rmwEach (n c) (g c) (c.actors.map fun l => (l, c.ea l)) s
    r.2.writeRegs c (c.lanes.flatMap fun l =>
      wrVal (n c / 4) c.f.d.toNat l ((r.1.lookup (c.src l)).getD 0))

/-- The operations of ATOM by M (R114). -/
def atomOp (c : Ctx) (l old : Nat) : Nat :=
  let b := c.w.val (words c) c.f.b.toNat l
  match c.f.m.toNat with
  | 0 => (old + b) % 2 ^ bitsOf c
  | 1 => if c.num old ≤ c.num b then old else b
  | 2 => if c.num b ≤ c.num old then old else b
  | 3 => old &&& b
  | 4 => old ||| b
  | 5 => old ^^^ b
  | _ => b

/-- The new value of ACAS (R115). -/
def acasOp (c : Ctx) (l old : Nat) : Nat :=
  if old = c.w.val (words c) c.f.b.toNat l then c.w.val (words c) c.f.c.toNat l else old

/-- The new value of AINCB (R116). -/
def aincbOp (c : Ctx) (l old : Nat) : Nat :=
  if c.num old < c.num (c.w.val (words c) c.f.b.toNat l) then (old + 1) % 2 ^ bitsOf c else old

/-- The new value of AFADD (R117): to nearest, subnormals preserved. -/
def afaddOp (c : Ctx) (l old : Nat) : Nat :=
  f32.enc 0 0 ((f32.dec old).add 0 (f32.dec (c.w.reg c.f.b.toNat l).toNat))

/-- Whether a read ahead still reads so for the parties of a cluster, none of the rest being asked (R89), or but for writes
that no release has followed. -/
def State.readsSo (s : State) (who : Who) (e : Nat × Early) : Bool :=
  s.loose.any (·.hides e.2) ||
    match classify (BitVec.ofNat 64 e.1) with
    | .global va =>
      match s.translate who.part va with
      | none => false
      | some (_, pa) => leNat ((List.range e.2.n).map fun i => s.seen who.cl (pa + i)) == e.2.v
    | _ => false

/-- The reads ahead that a fence leaves (R85, R89): an acquire gives up those older than the fragment's last read; a fence of
both gives up every one, but for one narrower than .die those that still read so in the cluster. -/
def Ctx.fenceReads (c : Ctx) (s : State) (f : Frag) : Frag :=
  match c.f.m.toNat / 2 % 2, c.f.m.toNat % 2 with
  | 0, _ => f
  | _, 0 => f.acquire s.loose
  | _, _ =>
    { f.acquire s.loose with early := (f.acquire s.loose).early.filter fun e => decide (c.f.c.toNat < 3) && s.readsSo (c.who s) e }

/-- The body of FENCE (R119): a release publishes at its scope code; an acquire gives up reads performed ahead. -/
def fenceBody (c : Ctx) (s : State) : Act :=
  if c.lanes.isEmpty then .next s
  else
    let s := if c.f.m.toNat % 2 = 1 then c.release c.f.c.toNat s else s
    .next (s.setFrag c.k c.i (c.fenceReads s))

/-- ATOM (R114). -/
def execAtom (f : XF) (s : State) : Out := runWave (.ofX 0x260 f) (rmwBody sizeT atomOp) s

/-- ACAS (R115). -/
def execAcas (f : XF) (s : State) : Out := runWave (.ofX 0x261 f) (rmwBody sizeT acasOp) s

/-- AINCB (R116). -/
def execAincb (f : XF) (s : State) : Out := runWave (.ofX 0x262 f) (rmwBody sizeT aincbOp) s

/-- AFADD (R117). -/
def execAfadd (f : XF) (s : State) : Out := runWave (.ofX 0x263 f) (rmwBody (fun _ => 4) afaddOp) s

/-- FENCE (R119). -/
def execFence (f : XF) (s : State) : Out := runWave (.ofX 0x270 f) fenceBody s

end Sys2Proof.Machine
end

