-- ==== Sys2Proof/Machine/Barrier.lean ====
section
/-! DEFINITION. Barrier objects and waits on memory (R120 to R129). -/

namespace Sys2Proof.Machine

open Sys2Proof

/-- The team address of a lane's barrier object (R121). -/
def barAddr (c : Ctx) (l : Nat) : Nat := (c.w.reg c.f.a.toNat l + BitVec.ofInt 32 c.simm).toNat

/-- The checks of R121 on a team address. -/
def Team.barBad (tm : Team) (t : Nat) : Option Bad :=
  if t % 16 ≠ 0 then some ⟨0x04, 0⟩
  else if tm.window < t + 16 then some ⟨0x07, 0⟩
  else if (tm.page t).bound.isSome then some ⟨0x06, 0⟩
  else none

/-- The first failing lane of a barrier instruction (R99, R121). -/
def barFailing (c : Ctx) (tm : Team) (wr : Bool) (ls : List Nat) : Option TrapInfo :=
  ls.findSome? fun l => (tm.barBad (barAddr c l)).map fun b =>
    { c.trap b.code with sub := b.sub, write := wr, lane := l, addr := BitVec.ofNat 64 (barAddr c l) }

/-- The accesses of a barrier instruction, as a watchpoint sees them (R227). -/
def barAccs (c : Ctx) (rd wr : Bool) (ls : List Nat) : List Acc :=
  ls.map fun l => ⟨l, apertureOf (barAddr c l), 16, 16, rd, wr⟩

/-- The frame of a barrier instruction over some lanes: the checks, then the effect at each lane's object in turn. -/
def barEach (c : Ctx) (s : State) (g : Nat → Nat → State → State) : Act :=
  match s.teamOf c.w with
  | none => .next s
  | some tm =>
    match barFailing c tm true c.actors with
    | some t => .trap t
    | none =>
      if !s.canPin c.w.team (c.actors.map (barAddr c)) then .wait .stall s
      else .next (((c.actors.foldl (fun s l => g l (barAddr c l) (s.pin c.w.team (barAddr c l))) s).perform c.k c.i
        (barAccs c true true c.actors)).watch c (barAccs c true true c.actors))

/-- A freshly initialised object of n arrivals (R123). -/
def Bar.init (n : Nat) : Bar := ⟨0, n, n, 0⟩

/-- The body of BARI (R123). -/
def bariBody (c : Ctx) (s : State) : Act :=
  barEach c s fun l t s =>
    let n := max 1 (min 65535 (c.w.reg c.f.b.toNat l).toNat)
    let s := s.updateBar (coreOf c.k) c.w.team t fun _ => Bar.init n
    s.letInit (coreOf c.k) c.w.team t (s.holds c.w.team).length

/-- The body of BARX (R125). -/
def barxBody (c : Ctx) (s : State) : Act :=
  barEach c s fun l t s =>
    s.updateBar (coreOf c.k) c.w.team t fun b => { b with pbytes := b.pbytes + (c.w.reg c.f.b.toNat l).toNat }

/-- Whether a fragment must stall in a further BARA until an open record is counted (R124): all its lanes have arrived on
this object, or some of them on another. -/
def mustStall (w : Wave) (m : Word) (t : Nat) : Bool :=
  w.arrivals.any fun r => if r.obj = t then m &&& ~~~r.lanes == 0 else m &&& r.lanes != 0

/-- The lanes of a fragment added to the wave's arrival record on an object (R124). -/
def Wave.addArrival (t : Nat) (m : Word) (w : Wave) : Wave :=
  if w.arrivals.any fun r => r.obj == t then
    { w with arrivals := w.arrivals.map fun r => if r.obj = t then { r with lanes := r.lanes ||| m } else r }
  else { w with arrivals := w.arrivals ++ [⟨t, m⟩] }

/-- The body of BARA (R124). -/
def baraBody (c : Ctx) (s : State) : Act :=
  if c.w.landing.inReg then .trap { c.trap 0x0A with sub := 3, info := c.ins.word }
  else if c.lanes.isEmpty then .next s
  else
    let t := barAddr c c.low
    match s.teamOf c.w with
    | none => .next s
    | some tm =>
      let done := fun (s : State) =>
        if s.isHeld c.w.team t c.k then .wait .held s else .next (s.watch c (barAccs c true true [c.low]))
      if c.fr.wait = .held then done s
      else
        match barFailing c tm true [c.low] with
        | some x => .trap x
        | none =>
          let s := c.release 1 s
          if mustStall c.w c.fr.mask t then .wait .retry s
          else if !s.canPin c.w.team [t] then .wait .stall s
          else
            done ((((s.pin c.w.team t).perform c.k c.i (barAccs c false true [c.low])).setWave c.k
              (·.addArrival t c.fr.mask)).countArrivals c.k)

/-- The wave's oldest pending fault taken off, where it can be delivered (R15, R211). -/
def State.popFault (c : Ctx) (s : State) : Option (TrapInfo × State) :=
  match Tab.find c.k s.waves with
  | none => none
  | some w =>
    match w.handlerFlag, w.faults with
    | false, f :: rest => some (faultTrap f c.fr.mask, s.setWave c.k fun w => { w with faults := rest })
    | _, _ => none

/-- The completion of a WAITB or a BARW: a pending fault is delivered at the PC after it (R15, R239). -/
def doneWaiting (c : Ctx) (s : State) : Act :=
  match s.popFault c with
  | some (t, s') => .after t s'
  | none => .next s

/-- The fault that has stopped a fragment in its BARW, if any (R246). -/
def Frag.stop (f : Frag) : Option AsyncFault :=
  match f.wait with
  | .stopped a => some a
  | _ => none

/-- What BARW does (R126), an acquire of the wave when it returns (R20, R84, R93): without an enabled lane it has no effect;
while it waits no update of its object has woken it (R127), and a fault that is pending as it issues ends it without a write
(R15). -/
def barwWaits (c : Ctx) (s : State) : Act :=
  if c.lanes.isEmpty then .next s
  else
    match s.teamOf c.w with
    | none => .next s
    | some tm =>
      match barFailing c tm false [c.low] with
      | some x => .trap x
      | none =>
        let t := barAddr c c.low
        let p := c.w.reg c.f.b.toNat c.low
        if !s.canPin c.w.team [t] then .wait .stall s
        else
          let s := s.pin c.w.team t
          let ph := BitVec.ofNat 32 (s.bar c.w.team t).phase
          if c.fr.wait != .barw t p && phasePast ph p then
            doneWaiting c (((s.writeRegs c (c.lanes.map fun l => (c.f.d.toNat, l, ph))).setWave c.k Wave.noEarly).watch c
              (barAccs c true false [c.low]))
          else
            match s.popFault c with
            | some (x, s') => .after x s'
            | none => .wait (.barw t p) s

/-- The body of BARW (R126): one that a fault has stopped as it waited takes the trap at the PC after it, and does nothing
else (R246). -/
def barwBody (c : Ctx) (s : State) : Act :=
  match c.fr.stop with
  | some f => .after (faultTrap f c.fr.mask) s
  | none => barwWaits c s

/-- The conditions of WAITA by M (R128). -/
def waitCond (c : Ctx) (l x : Nat) : Bool :=
  let b := c.w.val (words c) c.f.b.toNat l
  match c.f.m.toNat with
  | 0 => x == b
  | 1 => x != b
  | 2 => decide (c.num b ≤ c.num x)
  | _ => decide (c.num x < c.num b)

/-- The lanes of a WAITA that are now satisfied, with the values that satisfied them first. -/
def waitedNow (c : Ctx) (got r : List (Nat × Nat)) : List (Nat × Nat) :=
  got ++ r.filter fun x => (got.lookup x.1).isNone && waitCond c x.1 x.2

/-- The reads of a WAITA (R128): as it begins, each may have been read ahead (R382); as it waits, what memory holds now. -/
def waitaReads (c : Ctx) (s : State) : List (Nat × Nat) × State :=
  let ls := c.actors.map fun l => (l, c.ea l)
  if c.fr.wait = .none then c.loadLanes (sizeT c) ls s else s.loadEach (c.who s) (sizeT c) ls

/-- The body of WAITA (R128). -/
def waitaBody (c : Ctx) (s : State) : Act :=
  let as := typeAccs c c.ea true false
  match s.teamOf c.w with
  | none => .next s
  | some tm =>
    match c.failing s tm as with
    | some t => .trap t
    | none =>
      if as.any (s.breaks (s.partOf c.w) tm) then .wait .stall (s.foundFault (s.partOf c.w))
      else if !s.canPin c.w.team (teamAddrs as) then .wait .stall s
      else
        let r := waitaReads c s
        let got := waitedNow c c.fr.got r.1
        let s := ((r.2.addFoot c.w.team as).perform c.k c.i as).setFrag c.k c.i fun f => { f with got := got }
        if c.actors.all fun l => (got.lookup l).isSome then
          .next ((s.writeRegs c (c.lanes.flatMap fun l =>
            wrVal (words c) c.f.d.toNat l ((got.lookup (c.src l)).getD 0))).watch c as)
        else .wait .retry s

/-- BARI (R123). -/
def execBari (f : XF) (s : State) : Out := runWave (.ofX 0x280 f) bariBody s

/-- BARA (R124). -/
def execBara (f : XF) (s : State) : Out := runWave (.ofX 0x281 f) baraBody s

/-- BARX (R125). -/
def execBarx (f : XF) (s : State) : Out := runWave (.ofX 0x282 f) barxBody s

/-- BARW (R126). -/
def execBarw (f : XF) (s : State) : Out := runWave (.ofX 0x283 f) barwBody s

/-- WAITA (R128). -/
def execWaita (f : XF) (s : State) : Out := runWave (.ofX 0x290 f) waitaBody s

end Sys2Proof.Machine
end

