-- ==== Sys2Proof/Machine/Special.lean ====
section
/-! DEFINITION. The wave's own registers: GET, the mode register, the extended row (R134 to R139). -/

namespace Sys2Proof.Machine

open Sys2Proof

/-- The offset of item i of a group from its origin (R10). -/
def itemOffset (shape : Nat × Nat × Nat) (i : Nat) : Nat × Nat × Nat :=
  (i % shape.1, i / shape.1 % shape.2.1, i / shape.1 / shape.2.1)

/-- The value of a special register at a lane (R135). -/
def getValue (c : Ctx) (s : State) (tm : Team) (la : Launch) (l : Nat) : Nat :=
  let p := la.part
  let core := coreOf c.k
  let o := itemOffset tm.shape (32 * c.w.num + l)
  match c.uimm with
  | 0 => l
  | 1 => c.k % Config.slotsPerCore
  | 2 => tm.num
  | 3 => tm.waves.length
  | 4 => tm.shape.1 * tm.shape.2.1 * tm.shape.2.2
  | 5 => tm.origin.1 + o.1
  | 6 => tm.origin.2.1 + o.2.1
  | 7 => tm.origin.2.2 + o.2.2
  | 8 => tm.origin.1
  | 9 => tm.origin.2.1
  | 10 => tm.origin.2.2
  | 11 => tm.shape.1
  | 12 => tm.shape.2.1
  | 13 => tm.shape.2.2
  | 14 => la.space.1
  | 15 => la.space.2.1
  | 16 => la.space.2.2
  | 17 => la.id.toNat
  | 18 => tm.place.1
  | 19 => tm.place.2.1
  | 20 => tm.place.2.2
  | 21 => p
  | 22 => (s.core core).clock.toNat
  | 23 => c.fr.mask.toNat
  | 24 => c.w.frags.length
  | _ => c.w.landing.entries.length

/-- The body of GET (R135). -/
def getBody (c : Ctx) (s : State) : Act :=
  match s.teamOf c.w, s.launchOf c.w with
  | some tm, some la =>
    .next (s.writeRegs c (c.lanes.flatMap fun l =>
      wrVal (if c.uimm = 22 then 2 else 1) c.f.d.toNat l (getValue c s tm la (c.src l))))
  | _, _ => .next s

/-- A mode register value as it is written: reserved bits 0, an RND above 4 as 0 (R137, R138). -/
def modeWord (v : Word) : Word :=
  let r := v.toNat % 8
  BitVec.ofNat 32 ((if 4 < r then 0 else r) + v.toNat / 16 % 4 * 16)

/-- The body of SETMODE (R138). -/
def setmodeBody (c : Ctx) (s : State) : Act :=
  if c.lanes.isEmpty then .next s
  else
    let v := if c.f.m = 1 then c.w.reg c.f.a.toNat c.low else c.ins.f.imm.setWidth 32
    .next (s.setWave c.k fun w => { w with mode := modeWord v })

/-- The body of GETMODE (R139). -/
def getmodeBody : Ctx → State → Act :=
  regBody fun c => c.lanes.flatMap fun l => wrVal 1 c.f.d.toNat l c.w.mode.toNat

/-- The partner of a wave slot: slots 2j and 2j + 1 of a quadrant share an extended row (R134). -/
def partnerOf (k : Nat) : Nat := if k % 2 = 0 then k + 1 else k - 1

/-- The vector registers outside the extended row. -/
def dropExt (t : Tab Word) : Tab Word := t.filter fun e => decide (e.1 < 2048 ∨ 4096 ≤ e.1)

/-- The bindings of a wave whose group reaches v64 made stale (R196). -/
def staleExt (w : Wave) : Wave :=
  w.mapBinds fun b =>
    if bindKind b == 1 && decide (64 ≤ bindInfo b % 128 + bindInfo b / 128 % 8) then setStale b else b

/-- The wave that holds the extended row of a wave's pair, but for that wave itself: a resident one, or one of the same launch
whose context is spilt, which has not freed it (R134, R223). -/
def State.rowHolder (s : State) (k : Nat) (w : Wave) : Option (Nat × Wave) :=
  s.waves.find? fun e =>
    slotOf e.1 == partnerOf (slotOf k) && e.2.ext && (!e.2.spilt || s.launchAt e.2 == s.launchAt w)

/-- The body of XLOCK (R134): a row that a parked or evictable wave of another launch holds is claimed, and that wave's whole
context spilt (R221); from a wave of its own launch, waiting or not, it is not taken. Log entry 12. -/
def xlockBody (c : Ctx) (s : State) : Act :=
  let take := fun (s : State) => Act.next (s.setWave c.k fun w => { staleExt w with ext := true, regs := dropExt w.regs })
  if c.lanes.isEmpty || c.w.ext then .next s
  else
    match s.rowHolder c.k c.w with
    | none => take s
    | some (k, w) =>
      if s.claimable w && s.launchAt w != s.launchAt c.w then take (s.spillWave k) else .wait .stall s

/-- The body of XFREE (R134). -/
def xfreeBody (c : Ctx) (s : State) : Act :=
  if c.lanes.isEmpty || !c.w.ext then .next s
  else .next (s.setWave c.k fun w => { staleExt w with ext := false, regs := dropExt w.regs })

/-- GET (R135). -/
def execGet (f : XF) (s : State) : Out := runWave (.ofX 0x0E0 f) getBody s

/-- SETMODE (R138). -/
def execSetmode (f : XF) (s : State) : Out := runWave (.ofX 0x0E1 f) setmodeBody s

/-- GETMODE (R139). -/
def execGetmode (f : XF) (s : State) : Out := runWave (.ofX 0x0E2 f) getmodeBody s

/-- XLOCK (R134). -/
def execXlock (f : XF) (s : State) : Out := runWave (.ofX 0x0F0 f) xlockBody s

/-- XFREE (R134). -/
def execXfree (f : XF) (s : State) : Out := runWave (.ofX 0x0F1 f) xfreeBody s

end Sys2Proof.Machine
end

