-- ==== Sys2Proof/Machine/Queue.lean ====
section
/-! DEFINITION. The command queues as waves see them: PUSH, batches, WAITB, QSTAT, and the delivery of engine faults (R15,
R234 to R240). -/

namespace Sys2Proof.Machine

open Sys2Proof

/-- The TD9 sizes of the pools of R355 by number: 0 copy slots, 1 to 4 entries of queues 0 to 3, 5 dispatcher slots, 6
device-launch entries, 7 Alcove contexts, 8 host queues. Log entry 9. -/
def poolSize (pool : Nat) : Nat :=
  match pool with
  | 0 => 16
  | 1 => 256
  | 2 => 256
  | 3 => 32
  | 4 => 64
  | 5 => 64
  | 6 => 4096
  | 7 => 8
  | _ => 65536

/-- Reservation and cap of a partition in a pool; until SETPOOL sets them, none and the whole pool (R355). -/
def State.pool (s : State) (pool p : Nat) : Nat × Nat := Tab.getD (0, poolSize pool) (16 * pool + p) s.pools

/-- Every reservation in a pool together. -/
def State.reserved (s : State) (pool : Nat) : Nat := (List.range 16).foldl (fun n p => n + (s.pool pool p).1) 0

/-- What a partition can still take of a pool, given each partition's use of it (R355): what is left of its reservation, and of
its share of the remainder. -/
def State.poolFree (s : State) (pool p : Nat) (use : Nat → Nat) : Nat :=
  let beyond := fun i => use i - (s.pool pool i).1
  let rest := poolSize pool - s.reserved pool
  let others := (List.range 16).foldl (fun n i => if i = p then n else n + beyond i) 0
  ((s.pool pool p).1 - use p) + min ((s.pool pool p).2 - beyond p) (rest - others - beyond p)

/-- A use of a pool by one partition alone. -/
def onlyUse (p n : Nat) (i : Nat) : Nat := if i = p then n else 0

/-- The entries of queue q on a core (a cluster's queue 3) still in flight, with their pushers (R234). A message counts until
its handler ends. -/
def State.entriesOf (s : State) (core q : Nat) : List (Nat × Nat) :=
  let c := s.core core
  let cl := s.cluster (clusterOf core)
  let cmds := fun (l : List CopyCmd) => l.map fun x => (x.wave, x.team)
  let recs := fun (l : List Cmd) => l.map fun x => (x.wave, x.team)
  match q with
  | 0 => cmds c.copy0
  | 1 => cmds c.copy1
  | 2 => recs (c.mx.fifo ++ c.mxSpilt.flatMap fun e => e.2.fifo)
  | _ => recs (cl.queue.filterMap Waiting.cmd ++ cl.classQ.filterMap (·.record) ++ cl.ctxs.filterMap fun e => e.2.trig.record)

/-- A wave's entries of a queue in flight. -/
def State.inFlightOf (s : State) (k : Nat) (w : Wave) (q : Nat) : Nat :=
  ((s.entriesOf (coreOf k) q).filter fun e => e == (k, w.team)).length

/-- The exact quotas of a launch (R235). -/
def State.quotas (s : State) (team : Nat) : Option (List Nat) :=
  (Tab.find team s.teams).bind fun tm => (Tab.find tm.launch s.launches).bind fun l => l.desc.quotas

/-- Whether a team shares a queue with a core: the core's own teams, and for queue 3 those of its cluster. -/
def sharesQueue (core q : Nat) (tm : Team) : Bool :=
  if q = 3 then clusterOf tm.core == clusterOf core else tm.core == core

/-- The entries of a queue that the partition of its core uses (R235): what exact-mode waves reserve, and the entries of
shared-mode teams. -/
def State.queueUse (s : State) (core q : Nat) : Nat :=
  let es := s.entriesOf core q
  (s.teams.filter fun e => sharesQueue core q e.2).foldl (fun n e =>
    n + match s.quotas e.1 with
      | some qs => e.2.waves.length * qs.getD q 0
      | none => (es.filter fun x => x.2 == e.1).length) 0

/-- The record of a lane (R236). -/
def recordOf (w : Wave) (a l : Nat) : BitVec 512 :=
  BitVec.ofNat 512 ((List.range 16).foldl (fun v j => v + (w.reg (a + j) l).toNat * 2 ^ (32 * j)) 0)

/-- One record put into a queue (R236): a copy joins the wave's open batch; a message is a .cluster release first. -/
def State.enqueue (k : Nat) (w : Wave) (q : Nat) (r : BitVec 512) (s : State) : State :=
  let core := coreOf k
  let copy : CopyCmd := { record := r, wave := k, team := w.team, batch := w.sealed + 1,
                          entry := ((Tab.find k s.waves).map (·.entries)).getD 0, next := 0, checked := false, susp := none,
                          ahead := [], fault := none }
  let count := fun (s : State) => s.setWave k fun w => { w with entries := w.entries + 1 }
  match q with
  | 0 => count (s.setCore core fun c => { c with copy0 := c.copy0 ++ [copy] })
  | 1 => count (s.setCore core fun c => { c with copy1 := c.copy1 ++ [copy] })
  | 2 => s.setCore core fun c => { c with mx := { c.mx with fifo := c.mx.fifo ++ [⟨r, k, w.team⟩] } }
  | _ => (s.release (clusterOf core) 2).setCluster (clusterOf core) fun c => { c with queue := c.queue ++ [.fresh ⟨r, k, w.team⟩] }

/-- The records of a list of lanes put into a queue in order: what the wave has written comes before the accesses of a copy or of
the matrix engine (R92, R264); of a message, what the fragment has (R94). -/
def pushLanes (c : Ctx) (ls : List Nat) (s : State) : State :=
  if ls.isEmpty then s
  else
    (ls.foldl (fun s l => s.enqueue c.k c.w c.uimm (recordOf c.w c.f.a.toNat l)) s).firm c.k
      (if c.uimm = 3 then c.fr.mask else 0xFFFFFFFF)

/-- What a PUSH still finds free in a queue (R235, R240). -/
def State.pushFree (s : State) (k : Nat) (w : Wave) (q : Nat) : Nat :=
  match s.quotas w.team with
  | some qs => qs.getD q 0 - s.inFlightOf k w q
  | none => s.poolFree (q + 1) (s.partOf w) (onlyUse (s.partOf w) (s.queueUse (coreOf k) q))

/-- The body of PUSH (R236). -/
def pushBody (c : Ctx) (s : State) : Act :=
  let ls := c.actors
  if ls.isEmpty then .next s
  else
    let flags := fun (full : Nat → Bool) => c.lanes.flatMap fun l => wrVal 1 c.f.d.toNat l (flagWord (full (c.src l)))
    match s.quotas c.w.team with
    | some qs =>
      if qs.getD c.uimm 0 < ls.length then .trap (c.trap 0x0B)
      else if qs.getD c.uimm 0 < s.inFlightOf c.k c.w c.uimm + ls.length then .wait .retry s
      else .next ((pushLanes c ls s).writeRegs c (flags fun _ => false))
    | none =>
      let took := ls.take (s.pushFree c.k c.w c.uimm)
      .next ((pushLanes c took s).writeRegs c (flags fun l => !took.contains l))

/-- The body of SEAL (R238). -/
def sealBody (c : Ctx) (s : State) : Act :=
  if c.lanes.isEmpty then .next s
  else
    let n := c.w.sealed + 1
    let s := s.setWave c.k fun w => { w with sealed := n }
    .next ((s.writeRegs c (c.lanes.map fun l => (c.f.d.toNat, l, n))).owe c.k)

/-- The batches of a wave's copies in flight. -/
def State.batchesOf (s : State) (k : Nat) (w : Wave) : List Word :=
  let c := s.core (coreOf k)
  (c.copy0 ++ c.copy1).filterMap fun x => if x.wave = k ∧ x.team = w.team then some x.batch else none

/-- Whether batch b is at or before c (R239). -/
def atOrBefore (b c : Word) : Bool := decide (0 ≤ (c - b).toInt)

/-- The batch WAITB n waits for: never the open one (R239). -/
def waitUpTo (n sealedCount : Word) : Word := if 0 < (n - sealedCount).toInt then sealedCount else n

/-- The body of WAITB (R239): the batches' accesses come before the wave's later ones (R92). -/
def waitbBody (c : Ctx) (s : State) : Act :=
  if c.lanes.isEmpty then .next s
  else
    let b := waitUpTo (c.w.reg c.f.a.toNat c.low) c.w.sealed
    if (s.batchesOf c.k c.w).any fun x => atOrBefore x b then .wait .retry s
    else doneWaiting c (s.setWave c.k Wave.noEarly)

/-- The largest c, at most S, for which every batch up to c has ended (R240). -/
def endedUpTo (sealedCount : Word) (bs : List Word) : Word :=
  let older := (bs.filter fun b => atOrBefore b sealedCount).map fun b => (sealedCount - b).toNat
  match older with
  | [] => sealedCount
  | d :: r => sealedCount - BitVec.ofNat 32 (r.foldl max d) - 1

/-- The value of QSTAT (R240). -/
def qstatValue (c : Ctx) (s : State) : Nat :=
  if c.uimm = 4 then (endedUpTo c.w.sealed (s.batchesOf c.k c.w)).toNat
  else s.inFlightOf c.k c.w c.uimm % 2 ^ 16 * 2 ^ 16 + min 65535 (s.pushFree c.k c.w c.uimm)

/-- The body of QSTAT (R240). -/
def qstatBody (c : Ctx) (s : State) : Act :=
  let s' := s.writeRegs c (c.lanes.flatMap fun l => wrVal 1 c.f.d.toNat l (qstatValue c s))
  .next (if c.lanes.isEmpty then s' else s'.owe c.k)

/-- The fragments of a wave that wait in BARW. -/
def Wave.inBarw (w : Wave) : List Nat :=
  (List.range w.frags.length).filter fun i =>
    match w.frags[i]?.map (·.wait) with
    | some (Wait.barw _ _) => true
    | _ => false

/-- A fault that becomes pending for a wave (R15): a fragment that waits in BARW is stopped by it, of several a free one
(R246), and no other takes it; while the handler flag is set it is held (R211). Log entry 80. -/
def Wave.fault (n : Nat) (a : AsyncFault) (w : Wave) : Wave :=
  match if w.handlerFlag then [] else w.inBarw with
  | [] => { w with faults := w.faults ++ [a] }
  | l => w.setFrag (l.getD (n % l.length) 0) fun f => { f with wait := .stopped a }

/-- An engine fault of a command (R15, R213): pending for the wave that pushed it, or, when that wave has exited, the
launch's error. -/
def State.engineFault (wave team : Nat) (f : AsyncFault) (s : State) : State :=
  let here := match Tab.find wave s.waves with
    | none => false
    | some w => w.team == team
  if here then
    let n := s.free
    n.2.setWave wave (·.fault n.1.toNat f)
  else
    match Tab.find team s.teams with
    | none => s
    | some tm => s.setLaunch tm.launch (·.fixError f.code (asyncCause f))

/-- PUSH (R236). -/
def execPush (f : XF) (s : State) : Out := runWave (.ofX 0x2A0 f) pushBody s

/-- SEAL (R238). -/
def execSeal (f : XF) (s : State) : Out := runWave (.ofX 0x2A1 f) sealBody s

/-- WAITB (R239). -/
def execWaitb (f : XF) (s : State) : Out := runWave (.ofX 0x2A2 f) waitbBody s

/-- QSTAT (R240). -/
def execQstat (f : XF) (s : State) : Out := runWave (.ofX 0x2A3 f) qstatBody s

end Sys2Proof.Machine
end

