-- ==== Sys2Proof/Machine/System.lean ====
section
/-! DEFINITION. Traps by instruction, the return from a handler, the system registers and ICINV (R213 to R218). -/

namespace Sys2Proof.Machine

open Sys2Proof

/-- The body of TRAP (R214). -/
def trapBody (c : Ctx) (s : State) : Act :=
  if c.lanes.isEmpty then .next s
  else
    .after { c.trap 0x13 with redo := false, info := BitVec.ofNat 32 c.uimm, addr := (maskOf c.lanes).setWidth 64 } s

/-- The body of BKPT (R215): a debug halt while Leyth holds the context; otherwise the handler, where there is one. -/
def bkptBody (c : Ctx) (s : State) : Act :=
  if c.lanes.isEmpty then .next s
  else if ((s.launchOf c.w).map (·.dbg.taken)).getD false then
    .next (s.setTeam c.w.team fun t => { t with halt := some ⟨0x10, c.uimm, c.k, c.i, none⟩, step := none })
  else if s.trapVec c.w = 0 then .next s
  else .after { c.trap 0x10 with redo := false, info := BitVec.ofNat 32 c.uimm } s

/-- The ILLEGAL_ENCODING trap of an instruction whose place is wrong. -/
def illegalHere (c : Ctx) : Act := .trap { c.trap 0x02 with info := c.ins.word }

/-- The body of TRET (R217). -/
def tretBody (c : Ctx) (s : State) : Act :=
  if !c.w.handlerFlag then illegalHere c
  else
    let s1 := s.setWave c.k fun w => { w with tretLanes := w.tretLanes ||| c.fr.mask }
    let s2 := s1.setFrag c.k c.i (·.hold .tret (s.now c.k))
    if ((Tab.find c.k s2.waves).map (·.endHandler.handlerFlag)).getD false then .wait .tret s1
    else
      let t := s2.settleWave c.k
      .moved ((Tab.find c.k t.waves).bind (·.fragAt (lowLane c.fr.mask))) t

/-- The value of a system register (R213). -/
def sysValue (w : Wave) (s : State) (n : Nat) : Nat :=
  match n with
  | 0 => (s.trapVec w).toNat
  | 1 => w.trap.cause.toNat
  | 2 => w.trap.info.toNat
  | 3 => w.trap.addr.toNat
  | 4 => w.trap.pc.toNat
  | 5 => w.trap.mask.toNat
  | 6 => w.trap.tok.toNat
  | 7 => match w.trap.rep with
    | some r => r.left.toNat
    | none => 0
  | 9 => w.hostResp.toNat
  | 10 => w.scratch.1.toNat
  | 11 => w.scratch.2.1.toNat
  | 12 => w.scratch.2.2.1.toNat
  | 13 => w.scratch.2.2.2.toNat
  | 14 => (s.part (s.partOf w)).wait
  | _ => flagWord (((s.launchOf w).map (·.dbg.taken)).getD false)

/-- The body of SYSR (R216). -/
def sysrBody (c : Ctx) (s : State) : Act :=
  let n := if c.uimm = 0 ∨ c.uimm = 3 ∨ c.uimm = 4 then 2 else 1
  .next (s.writeRegs c (c.lanes.flatMap fun l => wrVal n c.f.d.toNat l (sysValue c.w s c.uimm)))

/-- A scratch register written (R213). -/
def Wave.setScratch (w : Wave) (n : Nat) (v : Word) : Wave :=
  match n with
  | 10 => { w with scratch := (v, w.scratch.2) }
  | 11 => { w with scratch := (w.scratch.1, v, w.scratch.2.2) }
  | 12 => { w with scratch := (w.scratch.1, w.scratch.2.1, v, w.scratch.2.2.2) }
  | _ => { w with scratch := (w.scratch.1, w.scratch.2.1, w.scratch.2.2.1, v) }

/-- The record of the fault queue for a service request (R369). -/
def requestRecord (c : Ctx) (s : State) (tag : Nat) : List Byte :=
  let code := c.w.trap.cause.toNat % 128 + (if c.w.trap.cause.getLsbD 14 then 128 else 0)
  leBytes 8 0 ++ leBytes 8 tag ++ leBytes 1 code ++ leBytes 1 (c.k % Config.slotsPerCore) ++
    leBytes 2 (((s.teamOf c.w).map (·.place.1)).getD 0) ++
    leBytes 4 (((s.launchOf c.w).map (·.id.toNat)).getD 0) ++ leBytes 8 c.w.trap.addr.toNat

/-- Whether a request is still to be answered. -/
def Partition.asked (p : Partition) (tag : Nat) : Bool := p.reqs.any fun r => r.tag == tag

/-- A write of host.req with bit 0 set (R216, R369). -/
def hostRequest (c : Ctx) (s : State) : Act :=
  let p := s.partOf c.w
  let pt := s.part p
  match c.fr.wait with
  | .host tag => if pt.asked tag then .wait (.host tag) s else .next s
  | _ =>
    match pt.ring with
    | none => .next (s.setWave c.k fun w => { w with hostResp := 2 })
    | some (base, size) =>
      if size ≤ pt.reqs.length then .wait .retry s
      else
        let s := s.homeWrite p (hostPa (base + 32 * (pt.tag % size))) (requestRecord c s pt.tag)
        .wait (.host pt.tag) (s.setPart p fun t => { t with tag := t.tag + 1, reqs := t.reqs ++ [⟨pt.tag, c.k⟩] })

/-- The body of SYSW (R216), in a handler where it names trap.pc (Ctx.misplaced); any such write has moved it
(log entry 94). Log entry 77. -/
def syswBody (c : Ctx) (s : State) : Act :=
  let v := c.w.reg c.f.a.toNat c.low
  if c.lanes.isEmpty then .next s
  else
    match c.uimm with
    | 4 =>
      let pc := c.w.pair c.f.a.toNat c.low
      if bits pc 0 2 ≠ 0 then .trap { c.trap 0x04 with lane := c.low, addr := pc }
      else .next (s.setWave c.k fun w => { w with trap := { w.trap with pc := pc, moved := true } })
    | 8 => if v.getLsbD 0 then hostRequest c s else .next s
    | n => .next (s.setWave c.k (·.setScratch n v))

/-- The body of ICINV (R218): with an enabled lane, the words held for the fragment are discarded. -/
def icinvBody (c : Ctx) (s : State) : Act :=
  if c.lanes.isEmpty then .next s else .next (s.setFrag c.k c.i fun f => { f with held := [] })

/-- TRAP (R214). -/
def execTrap (f : XF) (s : State) : Out := runWave (.ofX 0x1E0 f) trapBody s

/-- TRAP_B32 (R56). -/
def execTrapB32 (f : BF) (s : State) : Out := runWave (.ofB 0x77 f) trapBody s

/-- TRET (R217). -/
def execTret (f : XF) (s : State) : Out := runWave (.ofX 0x1E1 f) tretBody s

/-- BKPT (R215). -/
def execBkpt (f : XF) (s : State) : Out := runWave (.ofX 0x1E2 f) bkptBody s

/-- BKPT_B32 (R56). -/
def execBkptB32 (f : BF) (s : State) : Out := runWave (.ofB 0x76 f) bkptBody s

/-- SYSR (R216). -/
def execSysr (f : XF) (s : State) : Out := runWave (.ofX 0x1E3 f) sysrBody s

/-- SYSW (R216). -/
def execSysw (f : XF) (s : State) : Out := runWave (.ofX 0x1E4 f) syswBody s

/-- ICINV (R218). -/
def execIcinv (f : XF) (s : State) : Out := runWave (.ofX 0x1E5 f) icinvBody s

end Sys2Proof.Machine
end

