-- ==== Sys2Proof/Machine/Ready.lean ====
section
/-! DEFINITION. Which fragments are ready (R140, R141, R220, R228), and the events that return results, end parks and
change the wait status of waves (R129, R133, R141, R143). -/

namespace Sys2Proof.Machine

open Sys2Proof

/-- Whether a partition is affected by the REPART that runs (R356). -/
def State.affected (s : State) (p : Nat) : Bool :=
  match s.repart with
  | none => false
  | some r => (List.range 216).any fun i =>
      let o := s.layout.getD i 255
      let n := r.new.getD i 255
      o != n && (o == p || n == p)

/-- Whether a partition has been quiesced by the REPART that runs (R356 steps 2 to 6). -/
def State.quiesced (s : State) (p : Nat) : Bool :=
  match s.repart with
  | none => false
  | some r => decide (2 ≤ r.step) && s.affected p

/-- Whether a debugger's step lets a fragment of a halted team issue (R228). -/
def Team.stepAllows (tm : Team) (num i : Nat) : Bool :=
  match tm.step with
  | none => false
  | some (w, none) => w == num
  | some (w, some j) => w == num && j == i

/-- Whether a team may issue from a fragment of a wave: not dead, not parked, not halted but for a step. -/
def Team.lets (tm : Team) (num i : Nat) : Bool :=
  !tm.dead && !tm.parked && (tm.halt.isNone || tm.stepAllows num i)

/-- Whether the team of a wave lets a fragment of it issue: it runs, or a debugger's step names the fragment (R228). -/
def State.letsFrag (s : State) (w : Wave) (i : Nat) : Bool := ((s.teamOf w).map fun tm => tm.lets w.num i).getD false

/-- Whether a team may issue from some fragment of a wave. -/
def Team.letsWave (tm : Team) (num : Nat) : Bool :=
  !tm.dead && !tm.parked && (tm.halt.isNone || tm.step.map (·.1) == some num)

/-- Whether a fragment is stalled until other fragments act (R161, R217, R279), or the host answers (R216). -/
def Frag.stands (p : Partition) (f : Frag) : Bool :=
  match f.wait with
  | .join _ _ => true
  | .tret => true
  | .gnext => true
  | .host tag => p.asked tag
  | _ => false

/-- Whether fragment i of a wave may issue now (R140), if its instruction does not wait. -/
def State.ready (s : State) (k i : Nat) : Bool :=
  match Tab.find k s.waves with
  | none => false
  | some w =>
    match w.frags[i]?, s.teamOf w with
    | some f, some tm =>
      let p := s.part (s.partOf w)
      tm.lets w.num i && !p.faulting && w.parked.isNone && !w.spilt && w.active f && !f.stands p
    | _, _ => false

/-- The ready fragments of a quadrant of a core (R140): quadrant q holds slots 12q to 12q + 11 (R135). -/
def State.quadReady (s : State) (core q : Nat) : List (Nat × Nat) :=
  s.waves.flatMap fun e =>
    if coreOf e.1 = core ∧ slotOf e.1 % Config.slotsPerCore / Config.slotsPerQuad = q then
      (List.range e.2.frags.length).filterMap fun i => if s.ready e.1 i then some (e.1, i) else none
    else []

/-- A fragment's place in the order of R140: priority level, last issue, slot, lowest lane. -/
def State.rank (s : State) (x : Nat × Nat) : Nat × Nat × Nat × Nat :=
  match (Tab.find x.1 s.waves).bind fun w => w.frags[x.2]? with
  | none => (10, 0, 0, 0)
  | some f => (f.prio, f.lastIssue, slotOf x.1, lowLane f.mask)

/-- Whether one rank comes before another. -/
def rankLt (a b : Nat × Nat × Nat × Nat) : Bool :=
  if a.1 ≠ b.1 then decide (a.1 < b.1)
  else if a.2.1 ≠ b.2.1 then decide (a.2.1 < b.2.1)
  else if a.2.2.1 ≠ b.2.2.1 then decide (a.2.2.1 < b.2.2.1)
  else decide (a.2.2.2 < b.2.2.2)

/-- The first of a list of fragments in the order of R140. -/
def State.first (s : State) : List (Nat × Nat) → Option (Nat × Nat)
  | [] => none
  | x :: r =>
    match s.first r with
    | none => some x
    | some y => some (if rankLt (s.rank y) (s.rank x) then y else x)

/-- The issue cycles a fragment has been ready without issuing. -/
def State.readyFor (s : State) (x : Nat × Nat) : Nat :=
  (((Tab.find x.1 s.waves).bind fun w => w.frags[x.2]?).map (·.readyFor)).getD 0

/-- The ready fragments of a quadrant that have waited 64 issue cycles (R141); the counts rise only while a fragment does not
wait. -/
def State.starved (s : State) (core q : Nat) : List (Nat × Nat) :=
  (s.quadReady core q).filter fun x => decide (64 ≤ s.readyFor x)

/-- STARVATION_ISSUE (R141): a fragment ready for 64 issue cycles takes the next issue, ahead of every level; of several the
first in the order of R140. Log entry 88. -/
def execStarvationIssue (core quad : Nat) (s : State) : Out :=
  match s.first (s.starved core quad) with
  | none => .next s
  | some (k, i) => .next { s with agenda := .issue k i :: s.agenda }

/-- The images of a wave's ACTLDs that its core has read and not yet committed (R191). -/
def State.uncommitted (s : State) (k : Nat) : Nat := ((s.core (coreOf k)).pending.filter fun p => p.wave == some k).length

/-- RESULT_RETURN (R133): one outstanding register result of a wave returns; an ACTLD's is returned by its commit alone (R191). -/
def execResultReturn (wave : Nat) (s : State) : Out :=
  .next (s.setWave wave fun w =>
    if s.uncommitted wave < w.outstanding then { w with outstanding := w.outstanding - 1 } else w)

/-- PARK_COMPLETE (R143): the results a parked wave waited for have returned; its oldest pending fault is delivered to the
fragment that executed the parked instruction. The park of a halted team ends when the team runs again, or a step of the wave is
ordered (R219, R228). -/
def execParkComplete (wave : Nat) (s : State) : Out :=
  match Tab.find wave s.waves with
  | none => .next s
  | some w =>
    match w.parked with
    | none => .next s
    | some i =>
      if w.outstanding ≠ 0 || !((s.teamOf w).map fun tm => tm.letsWave w.num).getD true then .next s
      else .next ((s.setWave wave fun w => { w with parked := none }).endPark wave i)

/-- Whether a fragment has waited under R129 for a number of cycles. -/
def Frag.waitedFor (now n : Nat) (f : Frag) : Bool := f.wait.counts && decide (n ≤ now - f.waitSince)

/-- WAIT_THRESHOLD (R129): a wave becomes evictable once every live fragment has waited past the threshold; none of a parked team
is. -/
def execWaitThreshold (wave : Nat) (s : State) : Out :=
  match Tab.find wave s.waves with
  | none => .next s
  | some w =>
    if !((s.teamOf w).map (·.parked)).getD false && w.frags.all (·.waitedFor (s.now wave) (s.part (s.partOf w)).wait) then
      .next (s.setWave wave fun w => { w with evictable := true })
    else .next s

/-- Cycles of a core pass (R136). -/
def cyclesTurn (core n : Nat) (s : State) : State := s.setCore core fun c => { c with clock := c.clock + BitVec.ofNat 64 n }

end Sys2Proof.Machine
end

