-- ==== Sys2Proof/Machine/Copy.lean ====
section
/-! DEFINITION. The copy engines (R241 to R250): the checks of a record, the movement of its payload in canonical order, the
streams, completion, faults and suspension, and what the links tell the device. -/

namespace Sys2Proof.Machine

open Sys2Proof

/-! ### Records -/

/-- n bytes of a record from byte lo on, as a number. -/
def recN (r : BitVec 512) (lo n : Nat) : Nat := (bits r (8 * lo) (8 * n)).toNat

/-- Four bytes of a record read as i32. -/
def recI (r : BitVec 512) (lo : Nat) : Int := toSigned 32 (recN r lo 4)

/-- Whether the bytes of a range of a record are all zero. -/
def recZero (r : BitVec 512) (lo n : Nat) : Bool := recN r lo n == 0

/-- The opcode of a record. -/
def recOp (r : BitVec 512) : Nat := recN r 0 1

/-- A flag of a copy record (R241): 0 CW, 1 BB, 4 NOSCALE. -/
def recFlag (r : BitVec 512) (i : Nat) : Bool := (recN r 1 1).testBit i

/-- SRC of a copy record. -/
def recSrc (r : BitVec 512) : Dword := BitVec.ofNat 64 (recN r 16 8)

/-- DST of a copy record. -/
def recDst (r : BitVec 512) : Dword := BitVec.ofNat 64 (recN r 24 8)

/-- Whether a number is a multiple of 4. -/
def mul4 (n : Nat) : Bool := n % 4 == 0

/-- Field rules of the header (R241). -/
def headerOk (r : BitVec 512) : Bool :=
  recZero r 2 2 && decide (recN r 1 1 < 32) && (!recFlag r 4 || recOp r == 0x13) &&
    mul4 (recN r 16 8) && mul4 (recN r 24 8) &&
    (if recFlag r 0 then mul4 (recN r 4 4) else recZero r 4 8) &&
    (if recFlag r 1 then recN r 12 4 % 16 == 0 else recZero r 12 4)

/-- Field rules of the body of each operation (R242, R243). -/
def bodyOk (r : BitVec 512) : Bool :=
  match recOp r with
  | 0x10 => mul4 (recN r 32 4) && recZero r 36 28
  | 0x11 =>
    mul4 (recN r 32 4) && decide (4 ≤ recN r 32 4) && decide (1 ≤ recN r 36 2) && decide (1 ≤ recN r 38 2) &&
      mul4 (recN r 40 4) && mul4 (recN r 44 4) && mul4 (recN r 48 4) && mul4 (recN r 52 4) && recZero r 56 8
  | 0x12 =>
    mul4 (recN r 32 4) && decide (4 ≤ recN r 32 4) && mul4 (recN r 40 4) && mul4 (recN r 44 4) && recZero r 48 16
  | 0x13 =>
    let noScale := recFlag r 4
    let sfmt := recN r 33 1
    decide (recN r 32 1 ≤ 1) && decide (sfmt ≤ 3) && decide (2 ≤ recN r 34 1 ∧ recN r 34 1 ≤ 8) && recZero r 35 1 &&
      recZero r 24 8 && mul4 (recN r 40 4) && recZero r 56 8 && (!noScale || decide (sfmt ≤ 1)) &&
      ((sfmt == 0 && !noScale) || (recZero r 44 4 && recZero r 48 8))
  | 0x14 => recZero r 34 2 && mul4 (recN r 36 4) && recZero r 40 24
  | _ => recZero r 16 8 && mul4 (recN r 36 4) && recZero r 40 24

/-- The window and page checks of what a record names (R241, R242, R246): SCRATCH_RANGE, then PERMISSION. -/
def rangesBad (tm : Team) (r : BitVec 512) : Option Nat :=
  let out := fun (t n : Nat) => decide (tm.window < t + n)
  if (recFlag r 0 && out (recN r 4 4) 4) || (recFlag r 1 && out (recN r 12 4) 16) ||
      (recOp r == 0x12 && recN r 36 4 != 0 && out (recN r 40 4) (4 * recN r 36 4)) then some 5
  else if recFlag r 1 && (tm.page (recN r 12 4)).bound.isSome then some 4
  else none

/-! ### Links (R359 to R361) -/

/-- The owner of the sub-link that starts at a lane of a port, where one starts there, is enabled and is not down. -/
def State.subLink (s : State) (port lane : Nat) : Option Nat :=
  let v := Tab.getD 1#64 port s.links
  if v.getLsbD lane && v.getLsbD (40 + lane) && !s.linkDown.contains (8 * port + lane) then
    some (bits v (4 * lane + 8) 4).toNat
  else none

/-- Whether a peer-table entry of a partition names a usable sub-link (R360, R377). -/
def State.peerUsable (s : State) (p peer : Nat) : Bool :=
  let mask := Tab.getD 0#16 peer (s.part p).peers
  s.feature 4 && decide (peer < 256) &&
    (List.range 16).any fun port => mask.getLsbD port && (List.range 8).any fun l => s.subLink port l == some p

/-! ### The parts of a command -/

/-- The bytes a command's payload has (R242, R244). -/
def payload (r : BitVec 512) : Nat :=
  match recOp r with
  | 0x10 => recN r 32 4
  | 0x11 => recN r 32 4 * recN r 36 2 * recN r 38 2
  | 0x12 => recN r 32 4 * recN r 36 4
  | 0x13 => recN r 36 2 * recN r 38 2 * (4 * recN r 34 1 + (if recFlag r 4 then 0 else 1))
  | _ => recN r 36 4

/-- An address plus an offset, modulo 2^64 (R242). -/
def addrPlus (a : Dword) (z : Int) : Dword := a + BitVec.ofInt 64 z

/-- The index word that row i of a CP.GATH reads. -/
def idxAt (r : BitVec 512) (i : Nat) : Dword := apertureOf ((recN r 40 4 + 4 * i) % 2 ^ 32)

/-- Source and destination of the word at a canonical index (R242), given the row's index word for CP.GATH. -/
def wordAt (r : BitVec 512) (i idx : Nat) : Dword × Dword :=
  match recOp r with
  | 0x11 =>
    let xb := recN r 32 4
    let x : Int := (i % xb : Nat)
    let y : Int := (i / xb % recN r 36 2 : Nat)
    let z : Int := (i / xb / recN r 36 2 : Nat)
    (addrPlus (recSrc r) (x + y * recI r 40 + z * recI r 44), addrPlus (recDst r) (x + y * recI r 48 + z * recI r 52))
  | 0x12 => (addrPlus (recSrc r) ((i % recN r 32 4 : Nat) + (idx : Int) * recI r 44), addrPlus (recDst r) i)
  | _ => (addrPlus (recSrc r) i, addrPlus (recDst r) i)

/-- The subcode of a failed payload check (R246). -/
def payloadSub (b : Bad) : Nat := if b.code = 0x05 then 3 else if b.code = 0x07 then 5 else 4

/-- The unpinned page that an address lies in, if any (R222, R248). -/
def Team.unpinnedAt (tm : Team) (ea : Dword) : Option Nat :=
  match classify ea with
  | .scratch t => if (tm.page t).pinned then none else some (t / 4096)
  | _ => none

/-- What one unit of work of a command finds. -/
inductive CopyOut
  /-- Moved: the state, and bytes moved. -/
  | moved (s : State) (n : Nat)
  /-- Stalled, with nothing moved. -/
  | stall
  /-- Suspended on an unpinned page. -/
  | susp (page : Nat)
  /-- Ends with a subcode. -/
  | bad (sub : Nat)
  /-- A partition fault. -/
  | broken

/-- A command as it runs: its engine's core, its partition, its team, and the record. -/
structure CopyCtx where
  core : Nat
  part : Nat
  tm : Team
  cmd : CopyCmd

/-- The hint of a copy record (R37, R241). -/
def recHint (r : BitVec 512) : Hint := hintOf (BitVec.ofNat 4 (recN r 1 1))

/-- The party of a copy command that accesses an address (R80): its hint applies on the global side only (R111, R241). -/
def CopyCtx.who (c : CopyCtx) (ea : Dword) : Who :=
  { part := c.part, core := c.core, team := c.cmd.team, engine := true
    hint := match classify ea with
      | .global _ => recHint c.cmd.record
      | _ => .normal }

/-- Whether an access of the command can be made: suspended, failing, a partition fault, or clear (none). -/
def CopyCtx.hinder (c : CopyCtx) (s : State) (ea : Dword) (n : Nat) (rd wr : Bool) : Option CopyOut :=
  match s.checkAccess c.part c.tm ea 1 n rd wr with
  | some b => some (.bad (payloadSub b))
  | none =>
    match c.tm.unpinnedAt ea with
    | some p => some (.susp p)
    | none => if s.breaks c.part c.tm ⟨0, ea, 1, n, rd, wr⟩ then some .broken else none

/-- The page of the barrier object, when it is unpinned. -/
def CopyCtx.barSusp (c : CopyCtx) : Option CopyOut :=
  if recFlag c.cmd.record 1 then (c.tm.unpinnedAt (apertureOf (recN c.cmd.record 12 4))).map .susp else none

/-- Bytes counted on the command's barrier object (R92, R125). -/
def CopyCtx.count (c : CopyCtx) (n : Nat) (s : State) : State :=
  if recFlag c.cmd.record 1 then s.countBytes c.core c.cmd.team (recN c.cmd.record 12 4) n else s

/-- One payload word moved and counted (R242, R245); a row of CP.GATH reads its index word again for each of its words (log
entry 97). -/
def CopyCtx.word (c : CopyCtx) (s : State) (i : Nat) : CopyOut :=
  let r := c.cmd.record
  let gath := recOp r == 0x12
  match if gath then c.hinder s (idxAt r (i / recN r 32 4)) 4 true false else none with
  | some x => x
  | none =>
    let at0 := idxAt r (i / recN r 32 4)
    let idx := if gath then (s.load (c.who at0) at0 4).1 else 0
    let a := wordAt r i idx
    match c.barSusp with
    | some x => x
    | none =>
      if recOp r = 0x15 then
        match c.hinder s a.2 4 false true with
        | some x => x
        | none => .moved (c.count 4 (s.store (c.who a.2) a.2 4 (recN r 32 4))) 4
      else
        match c.hinder s a.1 4 true false with
        | some x => x
        | none =>
          if recOp r = 0x14 then
            if s.peerUsable c.part (recN r 32 2) then
              .moved (c.count 4 ((s.load (c.who a.1) a.1 4).2.setLaunch c.tm.launch fun l => { l with peerOut := l.peerOut + 4 })) 4
            else .bad 6
          else
            match c.hinder s a.2 4 false true with
            | some x => x
            | none =>
              let v := s.load (c.who a.1) a.1 4
              .moved (c.count 4 (v.2.store (c.who a.2) a.2 4 v.1)) 4

/-! ### Streams (R243, R244) -/

/-- Bytes of a source block (R244). -/
def blockBytes (r : BitVec 512) : Nat :=
  match recN r 33 1 with
  | 0 => 4 * recN r 34 1
  | 1 => 4 * (recN r 34 1 + 1)
  | 2 => 128
  | _ => 64

/-- Bytes a delivered block counts (R244). -/
def blockCount (r : BitVec 512) : Nat := 4 * recN r 34 1 + (if recFlag r 4 then 0 else 1)

/-- Bytes of a data FIFO (R256). -/
def dataFifo : Nat := 131072

/-- The bytes that data entries fill. -/
def fifoBytes (es : List DataEntry) : Nat := es.foldl (fun n e => n + 4 * e.m) 0

/-- The words of a source block, in order. -/
def loadBlockWords (who : Who) (a : Dword) : Nat → State → List Nat × State
  | 0, s => ([], s)
  | n + 1, s =>
    let x := s.load who a 4
    let q := loadBlockWords who (a + 4) n x.2
    (x.1 :: q.1, q.2)

/-- Words joined into one number, the first lowest. -/
def joinWords : List Nat → Nat
  | [] => 0
  | w :: ws => w + 2 ^ 32 * joinWords ws

/-- The 32 values of a block of FP32 or BF16 (R244). -/
def blockVals (sfmt v : Nat) : List FVal :=
  (List.range 32).map fun i =>
    if sfmt = 2 then f32.dec (v / 2 ^ (32 * i) % 2 ^ 32) else bf16.dec (v / 2 ^ (16 * i) % 2 ^ 16)

/-- Codes put together as a block of m-bit codes. -/
def packCodes (m : Nat) (qs : List Int) : Nat :=
  (List.range 32).foldl (fun v i => v + wrap m (qs.getD i 0) * 2 ^ (m * i)) 0

/-- The scale and the mantissas a block delivers, from its words and its split-form scale byte (R70, R74, R244). -/
def blockOut (r : BitVec 512) (ws : List Nat) (sc : Nat) : Byte × Nat :=
  let m := recN r 34 1
  match recN r 33 1 with
  | 0 => (substE8 (BitVec.ofNat 8 sc), substBlock m (joinWords ws))
  | 1 => (substE8 (BitVec.ofNat 8 (ws.getD 0 0 % 256)), substBlock m (joinWords (ws.drop 1)))
  | f =>
    let q := quantBlock m (blockVals f (joinWords ws))
    (BitVec.ofNat 8 q.1, packCodes m q.2)

/-- A data entry, and a scale with its tag, entered into a target's FIFOs (R256). -/
def Mx.enter (w : Bool) (m : Nat) (v : Nat) (sc : Option Byte) (x : Mx) : Mx :=
  let seq := if w then x.wCount else x.xCount
  let x := match sc with
    | none => x
    | some b => x.pushScales w [⟨b, seq⟩]
  if w then { x with wData := x.wData ++ [⟨m, seq, v⟩], wCount := (seq + 1) % 2 ^ 24 }
  else { x with xData := x.xData ++ [⟨m, seq, v⟩], xCount := (seq + 1) % 2 ^ 24 }

/-- Whether the target's FIFOs have room for one more block (R244, R265). -/
def Mx.room (w : Bool) (m : Nat) (noScale : Bool) (x : Mx) : Bool :=
  decide (fifoBytes (if w then x.wData else x.xData) + 4 * m ≤ dataFifo) &&
    (noScale || decide ((x.scales w).length < scaleFifo))

/-- One block of a stream delivered (R244). -/
def CopyCtx.block (c : CopyCtx) (s : State) (i : Nat) : CopyOut :=
  let r := c.cmd.record
  let n := i / blockCount r
  let row : Int := (n / recN r 38 2 : Nat)
  let col : Int := (n % recN r 38 2 : Nat)
  let w := recN r 32 1 == 1
  let src := addrPlus (recSrc r) (row * recI r 40 + col * (blockBytes r : Nat))
  let scAt := addrPlus (BitVec.ofNat 64 (recN r 48 8)) (row * recI r 44 + col)
  let split := recN r 33 1 == 0 && !recFlag r 4
  let mx := (s.core c.core).mx
  if mx.holder ≠ some c.cmd.team || !mx.room w (recN r 34 1) (recFlag r 4) then .stall
  else
    let words := (List.range (blockBytes r / 4)).map fun j => addrPlus src (4 * j : Nat)
    match words.findSome? fun a => c.hinder s a 4 true false with
    | some x => x
    | none =>
      match if split then c.hinder s scAt 1 true false else none with
      | some x => x
      | none =>
        match c.barSusp with
        | some x => x
        | none =>
          let x := loadBlockWords (c.who src) src (blockBytes r / 4) s
          let y := if split then x.2.load (c.who scAt) scAt 1 else (0, x.2)
          let o := blockOut r x.1 y.1
          .moved (c.count (blockCount r) (y.2.setCore c.core fun k =>
            { k with mx := k.mx.enter w (recN r 34 1) o.2 (if recFlag r 4 then none else some o.1) })) (blockCount r)

/-! ### A turn of a command -/

/-- The command list of an engine. -/
def Core.copies (q : Nat) (c : Core) : List CopyCmd := if q = 0 then c.copy0 else c.copy1

/-- The command list of an engine replaced. -/
def Core.setCopies (q : Nat) (l : List CopyCmd) (c : Core) : Core := if q = 0 then { c with copy0 := l } else { c with copy1 := l }

/-- A command of an engine changed. -/
def State.setCopy (core q idx : Nat) (g : CopyCmd → CopyCmd) (s : State) : State :=
  s.setCore core fun c => c.setCopies q ((c.copies q).modify idx g)

/-- A command that has ended leaves its queue. -/
def State.endCopy (core q idx : Nat) (s : State) : State :=
  s.setCore core fun c => c.setCopies q ((c.copies q).eraseIdx idx)

/-- A command that ends with a fault (R246), which its progress record shows (R247). -/
def State.copyFault (core q idx : Nat) (x : CopyCmd) (sub : Nat) (s : State) : State :=
  ((s.endCopy core q idx).setTeam x.team fun tm => { tm with faulted := tm.faulted ++ [(q, { x with fault := some sub })] }).engineFault
    x.wave x.team ⟨0x21, sub, q, x.batch⟩

/-- The checks made before a record accesses anything, in order (R246); then, for a peer store, its link (R360). -/
def CopyCtx.reject (c : CopyCtx) (s : State) : Option Nat :=
  let r := c.cmd.record
  if recOp r < 0x10 ∨ 0x15 < recOp r then some 1
  else if recOp r = 0x13 ∧ (s.core c.core).mx.holder ≠ some c.cmd.team ∧
      (Tab.find c.cmd.team (s.core c.core).mxSpilt).isNone then some 7
  else if !(headerOk r && bodyOk r) then some 2
  else
    match rangesBad c.tm r with
    | some x => some x
    | none => if recOp r = 0x14 ∧ s.peerUsable c.part (recN r 32 2) = false then some 6 else none

/-- The completion word (R20, R245), and the end of the command: who reads the word finds every payload byte. On a
stash-mapped page without write permission it is a payload's PERMISSION: log entry 98. -/
def CopyCtx.complete (c : CopyCtx) (q idx : Nat) (s : State) : State :=
  let r := c.cmd.record
  let at0 := apertureOf (recN r 4 4)
  if !recFlag r 0 then s.endCopy c.core q idx
  else
    match c.hinder s at0 4 false true with
    | some (.bad sub) => s.copyFault c.core q idx c.cmd sub
    | some (.susp p) => s.setCopy c.core q idx fun x => { x with susp := some p }
    | some .broken => s.foundFault c.part
    | some _ => s
    | none => ((s.store (c.who at0) at0 4 (recN r 8 4)).noEarly c.cmd.team).endCopy c.core q idx

/-- The lines of global memory that the payload words moved cover whole are free of poison (R370). -/
def CopyCtx.cleanse (c : CopyCtx) (s : State) : State :=
  if recOp c.cmd.record == 0x13 || recOp c.cmd.record == 0x14 || s.poison.isEmpty then s
  else
    s.clearPoison c.part (((List.range (c.cmd.next / 4)).map (4 * ·) ++ c.cmd.ahead).map fun j =>
      ⟨0, (wordAt c.cmd.record j 0).2, 4, 4, false, true⟩)

/-- A command whose next word has been moved ahead goes past it. -/
def CopyCmd.skip (x : CopyCmd) : CopyCmd := { x with next := x.next + 4, ahead := x.ahead.erase x.next }

/-- Up to n units of a checked command, in canonical order but for the words moved ahead; then its completion (R245 to R248). -/
def copyRun (core q idx : Nat) : Nat → State → State
  | n, s =>
    match ((s.core core).copies q)[idx]? with
    | none => s
    | some x =>
      match Tab.find x.team s.teams with
      | none => s
      | some tm =>
        let c : CopyCtx := ⟨core, s.teamPart tm, tm, x⟩
        if payload x.record ≤ x.next then c.complete q idx (c.cleanse s)
        else
          match n with
          | 0 => c.cleanse s
          | n + 1 =>
            if x.ahead.contains x.next then copyRun core q idx n (s.setCopy core q idx CopyCmd.skip) else
            match if recOp x.record = 0x13 then c.block s x.next else c.word s x.next with
            | .moved t k => copyRun core q idx n (t.setCopy core q idx fun x => { x with next := x.next + k })
            | .stall => c.cleanse s
            | .susp p => (c.cleanse s).setCopy core q idx fun x => { x with susp := some p }
            | .bad sub => (c.cleanse s).copyFault core q idx x sub
            | .broken => (c.cleanse s).foundFault c.part

/-- Whether an earlier stream of the engine to the same target has not entered its last entry (R244). -/
def streamBlocked (l : List CopyCmd) (idx : Nat) (x : CopyCmd) : Bool :=
  recOp x.record == 0x13 && (l.take idx).any fun y =>
    recOp y.record == 0x13 && recN y.record 32 1 == recN x.record 32 1 && decide (y.next < payload y.record)

/-- Whether a command may run: its partition runs, it is not suspended, and it is among those that the engine runs at once
(R222, R245, R355, R370). DESIGN CHOICE: those are the first of the queue, the suspended and the stalled ones among them,
which keep their places. Log entry 107. -/
def State.copyMayRun (s : State) (p idx : Nat) (x : CopyCmd) : Bool :=
  !(s.part p).faulting && !s.quiesced p && x.susp.isNone && decide (idx < s.poolFree 0 p fun _ => 0)

/-- Whether every earlier command of an engine has begun: the engine takes its queue in entry order (R19). -/
def State.begun (s : State) (l : List CopyCmd) (idx : Nat) : Bool :=
  (l.take idx).all fun y => y.checked || (Tab.find y.team s.teams).isNone

/-- The words of a command below a canonical index that are still to be moved. -/
def CopyCmd.below (x : CopyCmd) (i : Nat) : List Nat :=
  ((List.range (i / 4)).map (4 * ·)).filter fun j => decide (x.next ≤ j) && !x.ahead.contains j

/-- Whether the word at a canonical index waits for one before it: for one that lands on its destination word, so that the
higher remains (R242), or one whose page is not pinned, so that no byte at or above NEXT is written (R248). -/
def CopyCtx.behind (c : CopyCtx) (s : State) (i : Nat) : Bool :=
  let at0 := fun (j : Nat) =>
    let a := (wordAt c.cmd.record j 0).2
    s.locOf (c.who a) a
  (c.cmd.below i).any fun j =>
    (recOp c.cmd.record != 0x14 && at0 j == at0 i) ||
      match c.word s j with
      | .susp _ => true
      | _ => false

/-- The word of a running command at a canonical index moved and counted ahead of those before it (R92, R245): nothing where
it cannot be moved yet, or is no word still to be moved; a stream's blocks are moved in order (R244). Log entry 18. -/
def copyAheadTurn (core q idx i : Nat) (s : State) : State :=
  match ((s.core core).copies q)[idx]? with
  | none => s
  | some x =>
    match Tab.find x.team s.teams with
    | none => s
    | some tm =>
      let p := s.teamPart tm
      let c : CopyCtx := ⟨core, p, tm, x⟩
      if !x.checked || !s.copyMayRun p idx x || recOp x.record == 0x13 || i % 4 != 0 || decide (i < x.next) ||
          decide (payload x.record ≤ i) || x.ahead.contains i || c.behind s i then s
      else
        match c.word s i with
        | .moved t _ => t.setCopy core q idx fun x => { x with ahead := i :: x.ahead }
        | _ => s

/-- A turn of the command at a place of an engine's queue, if its opcode is the one given, or belongs to no copy record and is
rejected (R58): a command is checked and begins once every earlier one of the queue has begun (R19); of those that have, at most
the partition's copy slots run at once (R245, R355), and any of them may go first (log entry 91). -/
def copyTurn (op core q idx n : Nat) (s : State) : State :=
  match ((s.core core).copies q)[idx]? with
  | none => s
  | some x =>
    match Tab.find x.team s.teams with
    | none => s
    | some tm =>
      let p := s.teamPart tm
      let c : CopyCtx := ⟨core, p, tm, x⟩
      let mine := recOp x.record == op || decide (recOp x.record < 0x10 ∨ 0x15 < recOp x.record)
      if !mine || !s.copyMayRun p idx x then s
      else if x.checked then
        if streamBlocked ((s.core core).copies q) idx x then s else copyRun core q idx n s
      else if !s.begun ((s.core core).copies q) idx then s
      else
        match c.reject s with
        | some sub => s.copyFault core q idx x sub
        | none => s.setCopy core q idx fun x => { x with checked := true }

/-- CP_LIN (R242). -/
def execCpLin (core q idx n : Nat) (s : State) : Out := .next (copyTurn 0x10 core q idx n s)

/-- CP_TILE (R242). -/
def execCpTile (core q idx n : Nat) (s : State) : Out := .next (copyTurn 0x11 core q idx n s)

/-- CP_GATH (R242). -/
def execCpGath (core q idx n : Nat) (s : State) : Out := .next (copyTurn 0x12 core q idx n s)

/-- CP_STRM (R244). -/
def execCpStrm (core q idx n : Nat) (s : State) : Out := .next (copyTurn 0x13 core q idx n s)

/-- CP_PEER (R249). -/
def execCpPeer (core q idx n : Nat) (s : State) : Out := .next (copyTurn 0x14 core q idx n s)

/-- CP_FILL (R242). -/
def execCpFill (core q idx n : Nat) (s : State) : Out := .next (copyTurn 0x15 core q idx n s)

/-- COPY_RESUME (R248): a suspended copy goes on at NEXT once its page is pinned again. -/
def execCopyResume (core q idx : Nat) (s : State) : Out :=
  match ((s.core core).copies q)[idx]? with
  | none => .next s
  | some x =>
    match x.susp, Tab.find x.team s.teams with
    | some p, some tm =>
      if (tm.page (4096 * p)).pinned then .next (s.setCopy core q idx fun x => { x with susp := none }) else .next s
    | _, _ => .next s

/-! ### Links and rates -/

/-- PEER_ACK (R249): bytes of a launch's peer stores are acknowledged. -/
def execPeerAck (id bytes : Nat) (s : State) : Out :=
  .next (s.setLaunch id fun l => { l with peerOut := l.peerOut - bytes })

/-- Bytes of a launch's peer stores that are lost (R249): a loss found once the launch stands at stage 5 fixes its status
(R385). -/
def Launch.lose (bytes : Nat) (l : Launch) : Launch :=
  if bytes ≤ l.peerOut ∧ 0 < bytes then
    let l := { l with peerOut := l.peerOut - bytes, peerLost := true }
    if 5 ≤ l.stage then l.fixError 0x22 0x22 else l
  else l

/-- FLIT_RESEND (R361): a flit is sent again; one that still fails after 8 tries is lost, with its bytes. -/
def execFlitResend (id bytes tries : Nat) (s : State) : Out :=
  .next (s.setLaunch id fun l => if 8 ≤ tries then l.lose bytes else l)

/-- A peer's refusal of the translation of bytes of a launch's peer stores: they are lost (R249). -/
def peerRefusalTurn (id bytes : Nat) (s : State) : State := s.setLaunch id (·.lose bytes)

/-- LINK_DOWN (R361, R370): a sub-link goes down, a link loss of its owner. -/
def execLinkDown (port lane : Nat) (s : State) : Out :=
  match s.subLink port lane with
  | none => .next s
  | some p => .next ({ s with linkDown := (8 * port + lane) :: s.linkDown }.foundFault p)

/-- A rate halved, to no less than 1/64 of peak (R250). -/
def Rate.halve (r : Rate) : Rate := if 2 ^ (r.2 + 1) < 64 * r.1 then (r.1, r.2 + 1) else (1, 6)

/-- A rate raised by 1/16 of peak, to no more than peak (R250). -/
def Rate.raise (r : Rate) : Rate :=
  let e := max 4 r.2
  let n := r.1 * 2 ^ (e - r.2) + 2 ^ (e - 4)
  if 2 ^ e ≤ n then Rate.peak else (n, e)

/-- CONGESTION_MARK (R250): the permitted rates of the core's copy engines and of the partition's host link halve. -/
def execCongestionMark (part core : Nat) (s : State) : Out :=
  if s.layout.getD (clusterOf core) 255 = part then
    .next ((s.setCore core fun c => { c with rate := c.rate.halve }).setPart part fun p => { p with hostRate := p.hostRate.halve })
  else .next s

/-- The number that names the rate controller of a partition's host link among those of its cores. Log entry 90. -/
def hostController : Nat := 256

/-- RATE_RAISE (R250): after 4,096 cycles without a mark a controller's permitted rate rises by 1/16 of peak: that of a core's
copy engines, or that of the partition's host link. Log entry 90. -/
def execRateRaise (part core : Nat) (s : State) : Out :=
  if core = hostController then .next (s.setPart part fun p => { p with hostRate := p.hostRate.raise })
  else if s.layout.getD (clusterOf core) 255 = part then .next (s.setCore core fun c => { c with rate := c.rate.raise })
  else .next s

/-- The physical address of a byte that a peer store may write in the receiving partition (R249); its translation is refused
otherwise. -/
def State.peerPa (s : State) (p : Nat) (a : Dword) : Option Nat :=
  match classify a with
  | .global va =>
    match s.translate p va with
    | some (e, pa) => if e.w then some pa else none
    | none => none
  | _ => none

/-- A byte of a peer store written in the receiving partition; a stop that blocks it makes a partition fault (R353). -/
def State.peerByte (p : Nat) (a : Dword) (b : Byte) (s : State) : State :=
  match s.peerPa p a with
  | none => s
  | some pa => if s.ownsStop p pa then s.homeWrite p pa [b] else s.foundFault p

/-- The bytes of a peer store written one by one in the receiving partition. -/
def peerWrite (p : Nat) : Dword → List Byte → State → State
  | _, [], s => s
  | a, b :: bs, s => peerWrite p (a + 1) bs (s.peerByte p a b)

/-- The addresses of the bytes of a store. -/
def byteAddrs (addr : Dword) (n : Nat) : List Dword := (List.range n).map fun i => addr + BitVec.ofNat 64 i

/-- The lines that an arrived store writes whole are free of poison (R370). -/
def State.peerCleanse (p : Nat) (addr : Dword) (n : Nat) (s : State) : State :=
  s.clearPoison p (((byteAddrs addr n).filter fun a => ((s.peerPa p a).map (s.ownsStop p)).getD false).map fun a =>
    ⟨0, a, 1, 1, false, true⟩)

/-- PEER_STORE_ARRIVAL (R249): a peer's store arrives over a sub-link, is translated in the sub-link's partition and written;
it is acknowledged, or its translation refused. -/
def execPeerStoreArrival (port lane : Nat) (addr : BitVec 64) (data : List (BitVec 8)) (s : State) : Out :=
  match s.subLink port lane with
  | none => .next s
  | some p =>
    if s.feature 4 then
      .next { (peerWrite p addr data s).peerCleanse p addr data.length with
        peerAnswer := some (8 * port + lane, (byteAddrs addr data.length).all fun a => (s.peerPa p a).isSome) }
    else .next s

end Sys2Proof.Machine
end

