-- ==== Sys2Proof/Machine/Debug.lean ====
section
/-! DEFINITION. The debugger's actions on a launch's debug context and on halted teams (R225 to R229, R196). -/

namespace Sys2Proof.Machine

open Sys2Proof

/-- The pending trap of a debug halt taken up at step 2 of R209; of a wave that is in a handler by then, a DOUBLE_TRAP (R212). -/
def State.proceedHalt (h : Halt) (s : State) : State :=
  match h.pending with
  | none => s
  | some t =>
    match Tab.find h.wave s.waves with
    | none => s
    | some w => if w.handlerFlag then s.fatal w 0x20 t else s.proceedTrap h.wave h.frag t

/-- DEBUG_CONTINUE (R209, R225): a halted team resumes; a trap pending behind the halt proceeds with step 2 of R209. -/
def execDebugContinue (team : Nat) (s : State) : Out :=
  match (Tab.find team s.teams).bind (·.halt) with
  | none => .next s
  | some h =>
    .next (((s.setTeam team fun t => { t with halt := none, step := none }).restartWaits team).proceedHalt h)

/-- A step ordered on a halted team (R228); a trap pending behind the halt proceeds first. -/
def State.orderStep (team w : Nat) (i : Option Nat) (s : State) : State :=
  match (Tab.find team s.teams).bind (·.halt) with
  | none => s
  | some h =>
    ((s.setTeam team fun t => { t with halt := some { h with pending := none }, step := some (w, i) }).restartWaits
      team).proceedHalt h

/-- The key of a team's wave, by its number in the team. -/
def State.waveOf (s : State) (team w : Nat) : Option Nat :=
  (s.waves.find? fun e => e.2.team == team && e.2.num == w).map (·.1)

/-- WAVE_STEP (R228): one instruction of a wave, from the fragment that R140 chooses. -/
def execWaveStep (team w : Nat) (s : State) : Out :=
  match s.waveOf team w with
  | none => .next s
  | some _ => .next (s.orderStep team w none)

/-- The place of a fragment in Leyth's order (R229, R289): in a generator region the set of the current mode comes first; then the
lowest lane. -/
def Wave.laneRank (w : Wave) (i : Nat) : Nat :=
  ((w.frags[i]?).map fun f => lowLane f.mask + if w.landing.inReg && f.cons != w.landing.mode then 32 else 0).getD 0

/-- The fragments of a wave as Leyth numbers them (R229, R289): those that are parked as well. -/
def Wave.byLane (w : Wave) : List Nat := (List.range w.frags.length).mergeSort fun a b => decide (w.laneRank a ≤ w.laneRank b)

/-- FRAGMENT_STEP (R228): one instruction of a fragment. -/
def execFragmentStep (team w frag : Nat) (s : State) : Out :=
  match (s.waveOf team w).bind fun k => Tab.find k s.waves with
  | none => .next s
  | some v =>
    match v.byLane[frag]? with
    | none => .next s
    | some i => .next (s.orderStep team w (some i))

/-- The fragments as they would be without a lane-step that is about to take one apart (R312): those there are, unless earlier
steps have left them otherwise; not in a handler, nor in consumer mode, where no branch is marked. -/
def Wave.addKin (w : Wave) : List Kin :=
  if !w.counts || !w.kin.isEmpty then w.kin else (w.frags.filter fun f => !f.cons).map fun f => ⟨f.mask, f.tokens, []⟩

/-- A lane taken out of its fragment as a new one, with the token set, priority, repeat state, LAUNCH progress and the
breakpoints that have fired (R164, R226, R228, R306). A lane taken out of a fragment that stands in a held BARA executes that
BARA; one out of a fragment that has executed TRET has executed it (R217). Log entry 84. -/
def Wave.detachLane (i lane : Nat) (f : Frag) (w : Wave) : Wave :=
  let one : Word := 1#32 <<< lane
  let w' := w.setFrag i fun f => { f with mask := f.mask &&& ~~~one }
  { w' with
    kin := w.addKin
    frags := w'.frags ++ [{ f.detach one f.pc with
      launchLane := f.launchLane, rep := f.rep, bpSkip := f.bpSkip, wait := if f.wait = .tret then .tret else .none }] }

/-- LANE_STEP (R228): a lane steps as a fragment of its own; refused where a region would hold a fragment beyond 32
(R273). -/
def execLaneStep (team w lane : Nat) (s : State) : Out :=
  match s.waveOf team w with
  | none => .next s
  | some k =>
    match Tab.find k s.waves with
    | none => .next s
    | some v =>
      match v.fragAt lane, ((Tab.find team s.teams).bind (·.halt)) with
      | some i, some _ =>
        let f := v.frags.getD i (freshFrag 0 0 0 false)
        if (lanesOf f.mask).length ≤ 1 then .next (s.orderStep team w (some i))
        else if v.landing.inReg && decide (32 < v.frags.length + 1) then .next s
        else
          .next ((s.setWave k (·.detachLane i lane f)).orderStep team w (some v.frags.length))
      | _, _ => .next s

/-- LEYTH_REGISTER_WRITE (R196, R225): a write of a wave register through the Leyth port while its context is held; it makes
bindings over the register stale. -/
def execLeythRegisterWrite (wave reg lane : Nat) (v : BitVec 32) (s : State) : Out :=
  match Tab.find wave s.waves with
  | none => .next s
  | some w =>
    let held := ((s.launchOf w).map (·.dbg.taken)).getD false
    if held && decide (lane < 32) && (decide (reg < 64) || (decide (reg < 128) && w.ext)) then
      .next (s.setWave wave (·.writeRegs [(reg, lane, v)]))
    else .next s

/-- DEBUG_CONTEXT_TAKE (R225, R377): Leyth takes or gives back a launch's debug context; none is ever held without the Leyth
port. -/
def execDebugContextTake (id : Nat) (taken : Bool) (s : State) : Out :=
  if s.feature 6 then .next (s.setLaunch id fun l => { l with dbg := { l.dbg with taken := taken } })
  else .next s

end Sys2Proof.Machine
end

