-- ==== Sys2Proof/Machine/Mailbox.lean ====
section
/-! DEFINITION. The management mailbox (R371, R373, R377): when it takes a command, and how one ends. -/

namespace Sys2Proof.Machine

open Sys2Proof

/-- A command that ends with an answer. -/
def State.answers (a : Answer) (s : State) : State := { s with answer := a }

/-- Whether the mailbox takes a command now: one at a time, in order of arrival, so none while a REPART runs or another waits
(R371). -/
def State.mailboxFree (s : State) : Bool := s.repart.isNone && s.box.isEmpty

/-- A mailbox command j: left waiting while another runs (R371); REFUSED outside stage 6 (R373), or before ACCEPT but for those
that the mailbox then takes (R377). -/
def State.mailbox (j : MailCmd) (early : Bool) (g : State → State) (s : State) : State :=
  if !s.mailboxFree then { s with box := s.box ++ [j] }
  else if s.stage = 6 && (early || s.accepted.isSome) then g s
  else s.answers .refused

/-- A launch of a partition with an identifier, still in flight (R371). -/
def State.inFlight (s : State) (p : Nat) (id : Word) : Option Nat :=
  (s.launches.find? fun e => e.2.part == p && e.2.id == id && decide (e.2.stage < 6)).map (·.1)

end Sys2Proof.Machine
end

