-- ==== Sys2Proof/Machine/Preempt.lean ====
section
/-! DEFINITION. Pre-emption, and the return of what it gave up (R219 to R223). -/

namespace Sys2Proof.Machine

open Sys2Proof

/-- The resident waves: those whose context is not spilt. -/
def State.resident (s : State) : Tab Wave := s.waves.filter fun e => !e.2.spilt

/-- Whether a slot holds no resident wave. -/
def State.slotFree (s : State) (slot : Nat) : Bool := s.resident.all fun e => slotOf e.1 != slot

/-- The quadrant of a slot, over all cores. -/
def quadOf (slot : Nat) : Nat := slot / Config.slotsPerQuad

/-- Landing slots of a quadrant that resident waves hold (R271). -/
def State.landingUse (s : State) (q : Nat) : Nat :=
  (s.resident.filter fun e => quadOf (slotOf e.1) == q && e.2.landing.inReg).length

/-- Whether a spilt wave's own claimed resources are free again (R223): slot, extended row, Landing slot. -/
def State.canReturn (s : State) (k : Nat) (w : Wave) : Bool :=
  s.slotFree (slotOf k) &&
    (!w.ext || s.resident.all fun e => slotOf e.1 != partnerOf (slotOf k) || !e.2.ext) &&
    (!w.landing.inReg || decide (s.landingUse (quadOf (slotOf k)) < Config.landingSlots))

/-- The spilt waves of a team. -/
def State.spiltOf (s : State) (team : Nat) : Tab Wave := s.waves.filter fun e => e.2.team == team && e.2.spilt

/-- The unpinned pages of a team. -/
def Team.unpinned (tm : Team) : Nat := (tm.pages.filter fun q => !q.2.pinned).length

/-- Whether everything a parked team gave up is free again (R223). -/
def State.canResume (s : State) (t : Nat) (tm : Team) : Bool :=
  let sp := s.spiltOf t
  let c := s.core tm.core
  sp.all (fun e => s.canReturn e.1 e.2) &&
    sp.all (fun e => decide (s.landingUse (quadOf (slotOf e.1)) +
      (sp.filter fun x => x.2.landing.inReg && quadOf (slotOf x.1) == quadOf (slotOf e.1)).length ≤ Config.landingSlots)) &&
    ((Tab.find t c.mxSpilt).isNone || c.mx.holder.isNone) &&
    ((Tab.find (2 * tm.launch) c.banksSpilt).isNone || c.bank0.owner.isNone) &&
    ((Tab.find (2 * tm.launch + 1) c.banksSpilt).isNone || c.bank1.owner.isNone) &&
    decide (s.pinnedOn tm.core + tm.unpinned ≤ Config.scratchPages)

/-- The matrix state of a team back in its core's engine (R221, R265). -/
def Core.engineBack (t : Nat) (c : Core) : Core :=
  match Tab.find t c.mxSpilt with
  | none => c
  | some m => { c with mx := { m with fifo := m.fifo ++ c.mx.fifo }, mxSpilt := Tab.del t c.mxSpilt }

/-- A spilt bank of a launch back in its core (R221). -/
def Core.bankBack (l b : Nat) (c : Core) : Core :=
  match Tab.find (2 * l + b) c.banksSpilt with
  | none => c
  | some x => { c with banksSpilt := Tab.del (2 * l + b) c.banksSpilt }.setBank b x

/-- A core's matrix engine and banks as a resuming team t of a launch l finds them again (R221, R265). -/
def Core.giveBack (t l : Nat) (c : Core) : Core := ((c.engineBack t).bankBack l 0).bankBack l 1

/-- Every page of a team pinned (R102, R223). -/
def Team.pinAll (tm : Team) : Team := tm.mapPages fun _ pg => { pg with pinned := true }

/-- A team resumed: what was spilt is restored before its waves issue (R223). -/
def State.resumeTeam (t : Nat) (s : State) : State :=
  match Tab.find t s.teams with
  | none => s
  | some tm =>
    let back := fun (e : Nat × Wave) =>
      if e.2.team = t then (e.1, { e.2 with spilt := false, evictable := false }) else e
    let s := s.setCore tm.core (·.giveBack t tm.launch)
    let s := { s with waves := s.waves.map back }
    s.setTeam t fun tm => { tm.pinAll with parked := false }

/-- The parked teams of a launch. -/
def State.parkedOf (s : State) (l : Nat) : Tab Team := s.teams.filter fun e => e.2.launch == l && e.2.parked

/-- Teams resumed one after another, each where what it gave up is free with those before it resumed; none where one cannot
(R304). -/
def State.resumeAll : List Nat → State → Option State
  | [], s => some s
  | t :: r, s =>
    match Tab.find t s.teams with
    | none => State.resumeAll r s
    | some tm => if s.canResume t tm then State.resumeAll r (s.resumeTeam t) else none

/-- TEAM_RESUME (R223, R304): a parked team whose launch has been resumed goes on once its claimed resources are free; the teams
of a co-resident launch only all together. -/
def execTeamResume (team : Nat) (s : State) : Out :=
  match Tab.find team s.teams with
  | none => .next s
  | some tm =>
    match Tab.find tm.launch s.launches with
    | none => .next s
    | some la =>
      if !tm.parked || la.parked then .next s
      else if la.desc.cores then
        .next ((s.resumeAll ((s.parkedOf tm.launch).map (·.1))).getD s)
      else if s.canResume team tm then .next (s.resumeTeam team)
      else .next s

/-- A launch pre-empted: its teams parked, and no further group dispatched (R220). -/
def State.parkLaunch (l : Nat) (s : State) : State := (s.setLaunch l fun x => { x with parked := true }).parkTeams l

/-- Whether the team of a wave runs: it is not parked, halted or stopped. -/
def State.runs (s : State) (w : Wave) : Bool := ((s.teamOf w).map fun tm => tm.lets 64 0).getD false

/-- The wave of a slot spilt for a claim. -/
def State.spillSlot (slot : Nat) (s : State) : State :=
  match s.resident.find? fun e => slotOf e.1 == slot with
  | none => s
  | some (k, _) => s.spillWave k

/-- PREEMPT (R220, R371): 1 to 8 launches of a partition; those not in flight are skipped. -/
def execPreempt (part : Nat) (ids : List (BitVec 32)) (s : State) : Out :=
  .next (s.mailbox (.preempt part ids) false fun s =>
    if ids.isEmpty || decide (8 < ids.length) then s.answers .refused
    else ((ids.filterMap (s.inFlight part)).foldl (fun s l => s.parkLaunch l) s).answers .done)

/-- RESUME (R371): the named launches may resume; their teams follow as their resources are free (R223). -/
def execResume (part : Nat) (ids : List (BitVec 32)) (s : State) : Out :=
  .next (s.mailbox (.resume part ids) false fun s =>
    ((ids.filterMap (s.inFlight part)).foldl (fun s l => s.setLaunch l fun x => { x with parked := false }) s).answers
      .done)

end Sys2Proof.Machine
end

