-- ==== Sys2Proof/Machine/Packet.lean ====
section
/-! DEFINITION. Launches, children and packets as the packet processor sees them: the head of a host queue, the checks of
stages 1 and 2, and the stages of R12 (R12, R364 to R368). -/

namespace Sys2Proof.Machine

open Sys2Proof

/-! ### Accesses of the packet processor -/

/-- Whether an aligned unit at a global address passes a partition's tables (R98, R366). -/
def State.usable (s : State) (p : Nat) (a : Dword) (rd wr : Bool) : Bool :=
  match classify a with
  | .global va => (s.checkGlobal p va rd wr).isNone
  | _ => false

/-- The n bytes of an aligned unit at a global address, read at their home, which each request on behalf of the host reaches first
(R333, R350). Log entry 101. -/
def State.packetRead (p : Nat) (a : Dword) (n : Nat) (s : State) : Nat × State :=
  match classify a with
  | .global va =>
    match s.translate p va with
    | none => (0, s)
    | some (_, pa) =>
      let r := (s.hostAsk p pa n).homeRead pa n
      (leNat r.1, r.2)
  | _ => (0, s)

/-- The n bytes of an aligned unit at a global address, written at their home. -/
def State.packetWrite (p : Nat) (a : Dword) (n v : Nat) (s : State) : State :=
  match classify a with
  | .global va =>
    match s.translate p va with
    | none => s
    | some (_, pa) => (s.hostAsk p pa n).homeWrite p pa (leBytes n v)
  | _ => s

/-- A 64-bit address given as a number. -/
def addr (n : Nat) : Dword := BitVec.ofNat 64 n

/-! ### Launches -/

/-- A launch, child or packet as it enters stage 2 (R12). -/
def Launch.fresh (p : Nat) (id : Word) (q : Option Nat) (index : Nat) (w : Work) : Launch :=
  { part := p, id := id, queue := q, index := index, barrier := false, work := w, acq := 0, rel := 0, sig := 0,
    staddr := 0, stage := 2, desc := Desc.zero, space := (1, 1, 1), cut := none, recuts := 0, dispatched := 0,
    retired := 0, fw := 0, lastCase := 0, games := [], error := none, sigOk := false, staOk := false, stopped := false,
    parked := false, peerOut := 0, peerLost := false, dbg := Debug.fresh }

/-- The launch.id that the next launch takes (R135). Log entry 10. -/
def State.nextId (s : State) : Word := Config.launchBase + BitVec.ofNat 32 s.nextLaunch

/-- A launch entered under the next key. -/
def State.addLaunch (la : Launch) (s : State) : State :=
  { s with launches := Tab.put s.nextLaunch la s.launches, nextLaunch := s.nextLaunch + 1 }

/-- A launch that comes to stage 5, which finds a peer store lost (R12, R249, R385). -/
def Launch.toDrain (la : Launch) : Launch :=
  let la := { la with stage := 5 }
  if la.peerLost then la.fixError 0x22 0x22 else la

/-- A launch at stage 5, with an error fixed if there is one (R385). -/
def State.failLaunch (l status : Nat) (s : State) : State :=
  s.setLaunch l fun x => { x.fixError status 0 with stage := 5 }

/-! ### Packets -/

/-- The scope codes and the addresses of a packet's header, and its reserved bits (R365, R366). -/
def pktHeaderOk (r : BitVec 512) : Bool :=
  decide (recN r 1 1 < 2) && decide (recN r 2 1 ≤ 5) && decide (recN r 3 1 ≤ 5) && recZero r 4 4 &&
    recN r 8 8 % 8 == 0 && recN r 16 8 % 8 == 0

/-- The signals of a BARRIER's wait list: those not 0, in list order (R366). -/
def pktWaits (r : BitVec 512) : List Nat := ((List.range 5).map fun i => recN r (24 + 8 * i) 8).filter fun a => a != 0

/-- The body rules of each TYPE (R314, R366), given the number of the partition's dies; a misaligned DESC is left to R291. -/
def pktBodyOk (dies : Nat) (r : BitVec 512) : Bool :=
  match recOp r with
  | 1 => recZero r 44 20
  | 2 => (pktWaits r).all fun a => a % 8 == 0
  | 3 => recN r 24 8 % 4 == 0 && recN r 32 8 % 4 == 0 && recN r 40 8 % 4 == 0 && recZero r 48 16
  | 4 =>
    decide (recN r 24 1 < 16) && decide (recN r 25 1 < 2 ^ dies) && decide (1 ≤ recN r 26 2 ∧ recN r 26 2 ≤ 4096) &&
      decide (recN r 28 4 ≤ 65536) && recN r 32 8 % 16 == 0 && recN r 40 8 % 16 == 0 && recZero r 48 16
  | 5 => recN r 24 8 % 8 == 0 && recZero r 40 24
  | 6 => recZero r 32 32
  | _ => false

/-- Whether a packet is well formed (R366, R377). -/
def State.pktOk (s : State) (p : Nat) (r : BitVec 512) : Bool :=
  pktHeaderOk r && pktBodyOk (s.partDies p).length r && (recOp r != 4 || s.feature 7)

/-- What a well-formed packet is to do (R366). -/
def pktWork (r : BitVec 512) : Work :=
  match recOp r with
  | 1 => .launch (recN r 24 8) (recN r 32 4) (recN r 36 4) (recN r 40 4)
  | 2 => .barrier (pktWaits r)
  | 3 => .copy (recN r 24 8) (recN r 32 8) (recN r 40 8)
  | 4 => .tiles (recN r 24 1) (recN r 25 1) (recN r 26 2) (recN r 28 4) (recN r 32 8) (recN r 40 8)
  | 5 => .signal (recN r 24 8) (BitVec.ofNat 64 (recN r 32 8))
  | 6 => .marker (recN r 24 8)
  | _ => .bad

/-- A host queue; one not listed is as at reset. -/
def State.queue (s : State) (q : Nat) : HostQueue := Tab.getD HostQueue.fresh q s.queues

/-- A host queue changed. -/
def State.setQueue (q : Nat) (g : HostQueue → HostQueue) (s : State) : State :=
  { s with queues := Tab.put q (g (s.queue q)) s.queues }

/-- The partition whose packets a host queue serves now: its owner, unless the queue is stopped, its partition is held by a
REPART (R356) or in a partition fault, or virtual functions are not accepted (R377). -/
def State.serves (s : State) (q : Nat) : Option Nat :=
  let h := s.queue q
  match h.owner with
  | none => none
  | some p =>
    if h.err || s.affected p || (s.part p).faulting || (!s.feature 2 && p != 0) then none else some p

/-- The address of the packet at the head of a host queue, if one stands there (R364). -/
def HostQueue.head (h : HostQueue) : Option Dword :=
  if h.rdidx.toNat < h.doorbell.toNat then some (h.qbase + BitVec.ofNat 64 (64 * (h.rdidx.toNat % 2 ^ h.qsize))) else none

/-- The packets of a host queue that have left stage 1 and not completed. -/
def State.packetsOf (s : State) (q : Nat) : Tab Launch := s.launches.filter fun e => e.2.queue == some q

/-- A packet at the head of its queue, read (R364). -/
structure Pkt where
  q : Nat
  p : Nat
  r : BitVec 512
deriving DecidableEq, Repr

/-- A turn on the packet at the head of a host queue, if it has the TYPE given, or a TYPE of no packet (R12 stage 1, R364, R366):
every earlier packet with the barrier bit has completed, and every earlier packet for a MARKER. The continuation decides for a
well-formed packet whether it leaves stage 1; one that is not well formed leaves it at once. -/
def packetTurn (type q : Nat) (good : Pkt → State → State) (bad : Pkt → State → State) (s : State) : State :=
  match s.serves q, (s.queue q).head with
  | some p, some a =>
    if !s.usable p a true false then s
    else if s.packetBreaks p a true then s.foundFault p
    else
      let x := s.packetRead p a 64
      let k : Pkt := ⟨q, p, BitVec.ofNat 512 x.1⟩
      let others := s.packetsOf q
      let mine := recOp k.r == type || decide (recOp k.r < 1 ∨ 6 < recOp k.r)
      if !mine || (others.any fun e => e.2.barrier) || (recOp k.r == 6 && !others.isEmpty) then s
      else if s.pktOk p k.r then good k x.2
      else bad k x.2
  | _, _ => s

/-- A packet leaves stage 1 (R364): RDIDX advances, and it is in flight at stage 2. -/
def State.leave (k : Pkt) (w : Work) (s : State) : State :=
  let la := Launch.fresh k.p s.nextId (some k.q) (s.queue k.q).rdidx.toNat w
  (s.addLaunch { la with
    barrier := (recN k.r 1 1).testBit 0, acq := recN k.r 2 1, rel := recN k.r 3 1, sig := recN k.r 8 8,
    staddr := recN k.r 16 8 }).setQueue k.q fun h => { h with rdidx := h.rdidx + 1 }

/-- The checks of stage 2 on STADDR, SIG and a SIGNAL's TARGET (R366): what fails is not accessed, and the packet completes with
BAD_PACKET; otherwise it goes on at a stage. -/
def State.stage2 (l stage : Nat) (s : State) : State :=
  match Tab.find l s.launches with
  | none => s
  | some la =>
    let sig := la.sig % 8 == 0 && s.usable la.part (addr la.sig) true true
    let sta := la.staddr % 8 == 0 && s.usable la.part (addr la.staddr) false true
    let tgt := match la.work with
      | .signal t _ => s.usable la.part (addr t) true true
      | _ => true
    let s := s.setLaunch l fun x => { x with sigOk := la.sig != 0 && sig, staOk := la.staddr != 0 && sta, stage := stage }
    if (la.sig != 0 && !sig) || (la.staddr != 0 && !sta) || !tgt then s.failLaunch l 0x35 else s

/-- A packet that leaves stage 1 with an error, and performs no work (R366, R368). -/
def State.leaveFailed (k : Pkt) (status : Nat) (s : State) : State :=
  let l := s.nextLaunch
  ((s.leave k .bad).failLaunch l status).stage2 l 5

/-- A packet that completes with BAD_PACKET (R366). -/
def State.leaveBad (k : Pkt) (s : State) : State := s.leaveFailed k 0x35

/-! ### Stages 3 to 5 -/

/-- The window that can be evaluated now, if there is one (R298): its groups, and the groups finished that stay. -/
def Cut.ripe (c : Cut) (d : Desc) : Option (List GroupRec × List GroupRec) :=
  if d.pin || c.closed then none
  else if d.dcut then
    let mine := fun (g : GroupRec) =>
      decide (c.base + c.windowAt ≤ g.num ∧ g.num < c.base + c.windowAt + d.window)
    if (c.finished.filter mine).length = d.window then
      some (c.finished.filter mine, c.finished.filter fun g => !mine g)
    else none
  else if d.window ≤ c.finished.length then some (c.finished.take d.window, c.finished.drop d.window)
  else none

/-- A launch has nothing more to cut (R12 stage 3): every run is empty and no window waits for its evaluation (R298), or no
further group is dispatched (R212). Log entry 76. -/
def Launch.cutDone (la : Launch) : Bool :=
  la.stopped ||
    match la.cut with
    | none => true
    | some c =>
      if la.desc.cores then decide (0 < la.dispatched)
      else (c.runs.all fun r => decide (r.2.2 ≤ r.2.1)) && (c.ripe la.desc).isNone

/-- The teams of a launch. -/
def State.teamsOf (s : State) (l : Nat) : Tab Team := s.teams.filter fun e => e.2.launch == l

/-- A launch moved on from stages 3 and 4 where their conditions hold (R12). -/
def State.settleLaunch (l : Nat) (s : State) : State :=
  match Tab.find l s.launches with
  | none => s
  | some la =>
    match la.work with
    | .launch _ _ _ _ =>
      if la.stage < 3 ∨ 4 < la.stage then s
      else if !la.cutDone then s
      else s.setLaunch l fun x => if (s.teamsOf l).isEmpty then x.toDrain else { x with stage := 4 }
    | _ => s

end Sys2Proof.Machine
end

