-- ==== Sys2Proof/Machine/Rv.lean ====
section
/-! DEFINITION. The base RISC-V instructions of a handler (R328, R329): RV64IMAC, Zicsr, Zba and Zbb over one context. Their
meanings are those of the RISC-V standard, which the spec names: PRESUMED, log entry 6. -/

namespace Sys2Proof.Machine

open Sys2Proof

/-! ### Registers of a context -/

/-- Register x r of a context; x0 is 0. -/
def HCtx.x (h : HCtx) (r : BitVec 5) : Dword := if r = 0 then 0 else Tab.getD 0 r.toNat h.regs

/-- Register x r written; x0 discards. -/
def HCtx.setX (h : HCtx) (r : BitVec 5) (v : Dword) : HCtx :=
  if r = 0 then h else { h with regs := Tab.setD 0 r.toNat v h.regs }

/-- A 12-bit immediate, sign-extended. -/
def sext12 (i : BitVec 12) : Dword := i.signExtend 64

/-- The low word of a value, sign-extended. -/
def sextW (v : Dword) : Dword := (v.setWidth 32).signExtend 64

/-- The low word of a value, zero-extended. -/
def zextW (v : Dword) : Dword := (v.setWidth 32).setWidth 64

/-! ### Arithmetic -/

/-- Signed division toward zero: -1 for divisor 0, the dividend on overflow. -/
def rvDiv (w : Nat) (a b : Int) : Int :=
  if b = 0 then -1 else if a = -(2 ^ (w - 1) : Int) ∧ b = -1 then a else a.tdiv b

/-- The remainder that belongs to `rvDiv`: the dividend for divisor 0, 0 on overflow. -/
def rvRem (w : Nat) (a b : Int) : Int :=
  if b = 0 then a else if a = -(2 ^ (w - 1) : Int) ∧ b = -1 then 0 else a.tmod b

/-- Unsigned division: all ones for divisor 0. -/
def rvDivu (w a b : Nat) : Nat := if b = 0 then 2 ^ w - 1 else a / b

/-- The unsigned remainder: the dividend for divisor 0. -/
def rvRemu (a b : Nat) : Nat := if b = 0 then a else a % b

/-- A word result, sign-extended. -/
def rvW (v : Word) : Dword := v.signExtend 64

/-- One as a truth value. -/
def rvBool (b : Bool) : Dword := if b then 1 else 0

/-- A register-register operation. -/
def rvAlu (o : RvAlu) (a b : Dword) : Dword :=
  let aw : Word := a.setWidth 32
  let bw : Word := b.setWidth 32
  let sh := b.toNat % 64
  let shw := b.toNat % 32
  match o with
  | .add => a + b
  | .sub => a - b
  | .sll => a <<< sh
  | .slt => rvBool (a.slt b)
  | .sltu => rvBool (a.ult b)
  | .xor => a ^^^ b
  | .srl => a >>> sh
  | .sra => a.sshiftRight sh
  | .or => a ||| b
  | .and => a &&& b
  | .addw => rvW (aw + bw)
  | .subw => rvW (aw - bw)
  | .sllw => rvW (aw <<< shw)
  | .srlw => rvW (aw >>> shw)
  | .sraw => rvW (aw.sshiftRight shw)
  | .mul => a * b
  | .mulh => BitVec.ofInt 64 (a.toInt * b.toInt / 2 ^ 64)
  | .mulhsu => BitVec.ofInt 64 (a.toInt * (b.toNat : Int) / 2 ^ 64)
  | .mulhu => BitVec.ofNat 64 (a.toNat * b.toNat / 2 ^ 64)
  | .div => BitVec.ofInt 64 (rvDiv 64 a.toInt b.toInt)
  | .divu => BitVec.ofNat 64 (rvDivu 64 a.toNat b.toNat)
  | .rem => BitVec.ofInt 64 (rvRem 64 a.toInt b.toInt)
  | .remu => BitVec.ofNat 64 (rvRemu a.toNat b.toNat)
  | .mulw => rvW (aw * bw)
  | .divw => rvW (BitVec.ofInt 32 (rvDiv 32 aw.toInt bw.toInt))
  | .divuw => rvW (BitVec.ofNat 32 (rvDivu 32 aw.toNat bw.toNat))
  | .remw => rvW (BitVec.ofInt 32 (rvRem 32 aw.toInt bw.toInt))
  | .remuw => rvW (BitVec.ofNat 32 (rvRemu aw.toNat bw.toNat))
  | .adduw => zextW a + b
  | .sh1add => (a <<< 1) + b
  | .sh2add => (a <<< 2) + b
  | .sh3add => (a <<< 3) + b
  | .sh1adduw => (zextW a <<< 1) + b
  | .sh2adduw => (zextW a <<< 2) + b
  | .sh3adduw => (zextW a <<< 3) + b
  | .slliuw => zextW a <<< sh
  | .andn => a &&& ~~~b
  | .orn => a ||| ~~~b
  | .xnor => ~~~(a ^^^ b)
  | .max => if a.slt b then b else a
  | .maxu => if a.ult b then b else a
  | .min => if a.slt b then a else b
  | .minu => if a.ult b then a else b
  | .rol => a.rotateLeft sh
  | .ror => a.rotateRight sh
  | .rolw => rvW (aw.rotateLeft shw)
  | .rorw => rvW (aw.rotateRight shw)

/-- Leading zeros of a w-bit number. -/
def rvClz (w v : Nat) : Nat := if v = 0 then w else w - 1 - Nat.log2 v

/-- Trailing zeros of a w-bit number. -/
def rvCtz (w v : Nat) : Nat := ((List.range w).find? fun i => v.testBit i).getD w

/-- Ones of a w-bit number. -/
def rvPop (w v : Nat) : Nat := ((List.range w).filter fun i => v.testBit i).length

/-- The bytes of a value changed in place. -/
def rvBytes (g : Nat → Byte) : Dword :=
  BitVec.ofNat 64 ((List.range 8).foldl (fun v i => v + (g i).toNat * 2 ^ (8 * i)) 0)

/-- A one-operand operation of Zbb. -/
def rvUn (o : RvUn) (a : Dword) : Dword :=
  match o with
  | .clz => BitVec.ofNat 64 (rvClz 64 a.toNat)
  | .ctz => BitVec.ofNat 64 (rvCtz 64 a.toNat)
  | .cpop => BitVec.ofNat 64 (rvPop 64 a.toNat)
  | .clzw => BitVec.ofNat 64 (rvClz 32 (a.toNat % 2 ^ 32))
  | .ctzw => BitVec.ofNat 64 (rvCtz 32 (a.toNat % 2 ^ 32))
  | .cpopw => BitVec.ofNat 64 (rvPop 32 (a.toNat % 2 ^ 32))
  | .sextb => (a.setWidth 8).signExtend 64
  | .sexth => (a.setWidth 16).signExtend 64
  | .zexth => (a.setWidth 16).setWidth 64
  | .orcb => rvBytes fun i => if bits a (8 * i) 8 = 0 then 0 else 0xFF
  | .rev8 => rvBytes fun i => bits a (8 * (7 - i)) 8

/-- A branch condition. -/
def rvTest (c : RvCond) (a b : Dword) : Bool :=
  match c with
  | .eq => a == b
  | .ne => a != b
  | .lt => a.slt b
  | .ge => !a.slt b
  | .ltu => a.ult b
  | .geu => !a.ult b

/-- An atomic memory operation, on values of w bits given as numbers. -/
def rvAmoOp (o : RvAmo) (w old v : Nat) : Nat :=
  let less := decide (toSigned w old < toSigned w v)
  match o with
  | .swap => v
  | .add => (old + v) % 2 ^ w
  | .xor => old ^^^ v
  | .and => old &&& v
  | .or => old ||| v
  | .min => if less then old else v
  | .max => if less then v else old
  | .minu => min old v
  | .maxu => max old v

/-! ### Data memory (R328) -/

/-- Bytes of an access. -/
def sizeBytes (z : RvSize) : Nat :=
  match z with
  | .b => 1
  | .bu => 1
  | .h => 2
  | .hu => 2
  | .w => 4
  | .wu => 4
  | .d => 8

/-- A loaded value, extended. -/
def rvExtend (z : RvSize) (v : Nat) : Dword :=
  match z with
  | .b => (BitVec.ofNat 8 v).signExtend 64
  | .h => (BitVec.ofNat 16 v).signExtend 64
  | .w => (BitVec.ofNat 32 v).signExtend 64
  | _ => BitVec.ofNat 64 v

/-- Whether a context may access n aligned bytes at an address (R328): aligned, in the shared part or in its own private part. -/
def dmemOk (ctx : Nat) (a : Dword) (n : Nat) : Bool :=
  a.toNat % n == 0 && (decide (a.toNat < 0x8000) ||
    decide (0x8000 + 4096 * ctx ≤ a.toNat ∧ a.toNat < 0x8000 + 4096 * (ctx + 1)))

/-- Bytes of data memory as a number. -/
def Cluster.dread (c : Cluster) (a n : Nat) : Nat := leNat ((List.range n).map fun i => Tab.getD 0 (a + i) c.dmem)

/-- A context loses its reservation to a write of n bytes at a. -/
def HCtx.lose (a n : Nat) (h : HCtx) : HCtx :=
  match h.resv with
  | none => h
  | some (b, m) => if b < a + n ∧ a < b + m then { h with resv := none } else h

/-- Bytes of data memory written: reservations over them are lost. -/
def Cluster.dwrite (a : Nat) (bs : List Byte) (c : Cluster) : Cluster :=
  { c with
    dmem := (List.range bs.length).foldl (fun m i => Tab.setD 0 (a + i) (bs.getD i 0) m) c.dmem
    ctxs := c.ctxs.map fun e => (e.1, e.2.lose a bs.length) }

/-! ### One instruction -/

/-- What a base instruction answers: its cluster and the context, which goes on at its PC; or an exception (R330). -/
inductive RvOut
  | goes (c : Cluster) (h : HCtx)
  | exc

/-- The value of a CSR (R329), given the class's BUDGET. -/
def csrValue (c : Cluster) (h : HCtx) (budget n : Nat) : Option Dword :=
  match n with
  | 0xC00 => some c.cycle
  | 0xC02 => some (BitVec.ofNat 64 h.instret)
  | 0xCC0 => some (BitVec.ofNat 64 h.alcyc)
  | 0xCC1 => some (rvBool h.alres)
  | 0xCC2 => some (BitVec.ofNat 64 budget)
  | _ => none

/-- A CSR read into a register; a write, or a CSR not listed, is illegal (R329). -/
def rvCsr (c : Cluster) (h : HCtx) (budget : Nat) (writes : Bool) (rd : BitVec 5) (csr : BitVec 12) (next : Dword) : RvOut :=
  if writes then .exc
  else
    match csrValue c h budget csr.toNat with
    | none => .exc
    | some v => .goes c { h.setX rd v with pc := next }

/-- The meaning of a base instruction of a length at a context's PC (R328). -/
def rvStep (c : Cluster) (ctx : Nat) (h : HCtx) (budget len : Nat) (i : Rv) : RvOut :=
  let next := h.pc + BitVec.ofNat 64 len
  let put := fun (rd : BitVec 5) (v : Dword) => RvOut.goes c { h.setX rd v with pc := next }
  match i with
  | .lui rd imm => put rd ((imm ++ 0#12 : BitVec 32).signExtend 64)
  | .auipc rd imm => put rd (h.pc + (imm ++ 0#12 : BitVec 32).signExtend 64)
  | .jal rd off => .goes c { h.setX rd next with pc := h.pc + off.signExtend 64 }
  | .jalr rd rs1 imm => .goes c { h.setX rd next with pc := (h.x rs1 + sext12 imm) &&& ~~~1#64 }
  | .branch k rs1 rs2 off =>
    .goes c { h with pc := if rvTest k (h.x rs1) (h.x rs2) then h.pc + off.signExtend 64 else next }
  | .load z rd rs1 imm =>
    let a := h.x rs1 + sext12 imm
    if dmemOk ctx a (sizeBytes z) then put rd (rvExtend z (c.dread a.toNat (sizeBytes z))) else .exc
  | .store z rs2 rs1 imm =>
    let a := h.x rs1 + sext12 imm
    if dmemOk ctx a (sizeBytes z) then
      .goes (c.dwrite a.toNat (leBytes (sizeBytes z) (h.x rs2).toNat)) { h.lose a.toNat (sizeBytes z) with pc := next }
    else .exc
  | .opImm o rd rs1 imm => put rd (rvAlu o (h.x rs1) (sext12 imm))
  | .op o rd rs1 rs2 => put rd (rvAlu o (h.x rs1) (h.x rs2))
  | .un o rd rs1 => put rd (rvUn o (h.x rs1))
  | .fence => .goes c { h with pc := next }
  | .ecall => .exc
  | .ebreak => .exc
  | .lr dbl rd rs1 =>
    let n := if dbl then 8 else 4
    let a := h.x rs1
    if dmemOk ctx a n then
      let v := c.dread a.toNat n
      .goes c { h.setX rd (if dbl then BitVec.ofNat 64 v else rvExtend .w v) with
        pc := next, resv := some (a.toNat, n) }
    else .exc
  | .sc dbl rd rs1 rs2 =>
    let n := if dbl then 8 else 4
    let a := h.x rs1
    if !dmemOk ctx a n then .exc
    else if h.resv = some (a.toNat, n) then
      .goes (c.dwrite a.toNat (leBytes n (h.x rs2).toNat)) { h.setX rd 0 with pc := next, resv := none }
    else .goes c { h.setX rd 1 with pc := next, resv := none }
  | .amo o dbl rd rs1 rs2 =>
    let n := if dbl then 8 else 4
    let a := h.x rs1
    if dmemOk ctx a n then
      let old := c.dread a.toNat n
      let v := rvAmoOp o (8 * n) old ((h.x rs2).toNat % 2 ^ (8 * n))
      .goes (c.dwrite a.toNat (leBytes n v))
        { (h.setX rd (if dbl then BitVec.ofNat 64 old else rvExtend .w old)).lose a.toNat n with pc := next }
    else .exc
  | .csrReg o rd rs1 csr => rvCsr c h budget (o == .rw || rs1 != 0) rd csr next
  | .csrImm o rd zimm csr => rvCsr c h budget (o == .rw || zimm != 0) rd csr next

end Sys2Proof.Machine
end

