-- ==== Sys2Proof/Machine/Alcove.lean ====
section
/-! DEFINITION. The Alcove cores (R328 to R346): registrations, triggers, the start of handlers, the extension instructions,
budgets and aborts. -/

namespace Sys2Proof.Machine

open Sys2Proof

/-! ### Events of the slices (R333) -/

/-- MISS (R333): a request of a kind (0 core, 1 copy engine, 2 AL.FETCH, 3 host) reaches the line's home slice, where it
misses unless the line or its read is there. -/
def execMiss (line kind core : Nat) (s : State) : Out := .next (s.request kind core .normal line)

/-- FILL (R333): a requested line arrives at its home slice, at one of them where several partitions have asked for it (log entry
113); which of equal victims makes room for it is a free value. Log entry 57. -/
def execFill (line : Nat) (s : State) : Out :=
  .next (s.onOne (s.slicesWith (·.requested) line) fun cl s => let f := s.free; f.2.setCluster cl (·.arrive f.1.toNat line))

/-- EVICT (R333): the home slice of a line in a full set, one of them where several partitions hold it (log entry 113), chooses it
as a victim, where no other goes before it. Log entry 57. -/
def execEvict (line : Nat) (s : State) : Out :=
  .next (s.onOne (s.slicesWith SliceLine.placed line) fun cl s => s.setCluster cl (·.victim line))

/-! ### Messages and the start of handlers (R334, R335) -/

/-- The subcode that rejects a message (R58, R335). -/
def messageBad (c : Cluster) (window : Nat) (r : BitVec 512) : Option Nat :=
  if recOp r ≠ 0x30 then some 1
  else if decide (16 ≤ recN r 1 1) || decide (2 ≤ recN r 2 1) || !recZero r 3 5 || recN r 8 4 % 4 != 0 ||
      decide (window < recN r 8 4 + 4) then some 2
  else if !ctlEn (c.ctl 3) then some 8
  else
    match Tab.find (48 + recN r 1 1) c.regs with
    | none => some 8
    | some (x, _) => if regValid x then none else some 8

/-- ALCOVE_MESSAGE (R335, R340): the record at the head of queue 3 is validated, and raises its MSG handler; a message that waits
there for its retry goes on as it is. One that waits to start keeps the next from the head. -/
def execAlcoveMessage (cl : Nat) (s : State) : Out :=
  let c := s.cluster cl
  match c.queue with
  | [] => .next s
  | .again t :: rest =>
    if (c.classQ.any fun t => t.cls == .msg) || (s.part (s.ownerOf cl)).faulting then .next s
    else .next (s.setCluster cl fun c => { c with queue := rest, classQ := c.classQ ++ [t] })
  | .fresh x :: rest =>
    match Tab.find x.team s.teams with
    | none => .next (s.setCluster cl fun c => { c with queue := rest })
    | some tm =>
      if (c.classQ.any fun t => t.cls == .msg) || (s.part (s.ownerOf cl)).faulting then .next s
      else
        match messageBad c tm.window x.record with
        | some sub =>
          .next ((s.setCluster cl fun c => { c with queue := rest }).engineFault x.wave x.team ⟨0x21, sub, 3, 0⟩)
        | none =>
          let e := ((Tab.find (48 + recN x.record 1 1) c.regs).map fun y => regEntry y.1).getD 0
          let id := ((Tab.find tm.launch s.launches).map (·.id)).getD 0
          .next (s.setCluster cl fun c => { c with
            queue := rest
            classQ := c.classQ ++ [⟨.msg, e, 0, 0, id.setWidth 64, BitVec.ofNat 64 (recN x.record 8 4), some x⟩] })

/-- The contexts that a class holds. -/
def Cluster.held (c : Cluster) (k : Nat) : Nat := (c.ctxs.filter fun e => e.2.trig.cls.num == k).length

/-- Whether a class may take a context (R331, R334): below its CAP, from its own reservation or beside those of the others. -/
def Cluster.mayStart (c : Cluster) (k : Nat) : Bool :=
  let kept := (List.range 4).foldl (fun n j => if j = k then n else n + (ctlRsv (c.ctl j) - c.held j)) 0
  decide (c.held k < ctlCap (c.ctl k)) && decide (c.ctxs.length + kept < 8)

/-- A context at the start of a handler (R328). -/
def HCtx.start (ctx : Nat) (t : Trigger) : HCtx :=
  { regs := [(2, BitVec.ofNat 64 (0x8000 + 4096 * (ctx + 1)))], pc := BitVec.ofNat 64 (0x100000 + t.entry), trig := t,
    alcyc := 0, instret := 0, alres := false, resv := none }

/-- The first trigger of a class taken out of the class queues. -/
def takeTrig (k : Nat) : List Trigger → Option (Trigger × List Trigger)
  | [] => none
  | t :: r =>
    if t.cls.num = k then some (t, r)
    else
      match takeTrig k r with
      | none => none
      | some (u, r') => some (u, t :: r')

/-! ### The end of an invocation (R340 to R343) -/

/-- What the write of a word for an invocation comes to: none is made; it would be a partition fault (R344, R353, R370); it is
made. -/
inductive SendOut
  | absent
  | blocked
  | sent (s : State)

/-- The write of a word at a team address for an invocation (R340, R342): none where the address is no word of the window, or a
stash-mapped line there cannot be owned (log entry 58). Who reads the word finds every earlier AL.STW (R345). -/
def State.sendTo (p team t : Nat) (v : Word) (s : State) : SendOut :=
  match Tab.find team s.teams with
  | none => .absent
  | some tm =>
    if t % 4 ≠ 0 || decide (tm.window < t + 4) || (s.checkStash p tm t).isSome then .absent
    else if s.breaks p tm ⟨0, apertureOf t, 4, 4, false, true⟩ then .blocked
    else
      let s := s.unloose (s.locOf { part := p, core := tm.core, team := team } (apertureOf t)) 4
      .sent ((s.writeScratch .normal team t (leBytes 4 v.toNat)).noEarly team)

/-- How an invocation ends. -/
inductive AlEnd
  | run
  | overrun
  | fault
  | blocked
deriving DecidableEq, Repr

/-- The counters at the end of an invocation (R343). -/
def Counters.ended (how : AlEnd) (alcyc : Nat) (x : Counters) : Counters :=
  let x := { x with lastCyc := BitVec.ofNat 32 alcyc, maxCyc := BitVec.ofNat 32 (max x.maxCyc.toNat alcyc) }
  match how with
  | .run => { x with runs := x.runs + 1 }
  | .overrun => { x with overruns := x.overruns + 1 }
  | .fault => { x with faults := x.faults + 1 }
  | .blocked => x

/-- An invocation leaves its context, counted. -/
def Cluster.leaveCtx (ctx : Nat) (h : HCtx) (how : AlEnd) (alcyc : Nat) (c : Cluster) : Cluster :=
  { c with ctxs := Tab.del ctx c.ctxs }.setCounter h.trig.cls.num (·.ended how alcyc)

/-- The notify write of an aborted message (R342). -/
def State.notify (cl : Nat) (t : Trigger) (s : State) : State :=
  match t.record with
  | none => s
  | some x =>
    if (recN x.record 2 1).testBit 0 then
      match s.sendTo (s.ownerOf cl) x.team (recN x.record 8 4) (BitVec.ofNat 32 (recN x.record 12 4)) with
      | .absent => s
      | .blocked => s.foundFault (s.ownerOf cl)
      | .sent s' => s'
    else s

/-- An abort (R342): the default action, the counter, the notify write, and the context is free. -/
def State.abortCtx (cl ctx : Nat) (how : AlEnd) (alcyc : Nat) (s : State) : State :=
  match Tab.find ctx (s.cluster cl).ctxs with
  | none => s
  | some h =>
    let f := s.free
    (f.2.setCluster cl fun c => (c.leaveCtx ctx h how alcyc).endTrigger f.1.toNat h.trig false).notify cl h.trig

/-- A trigger back at the tail of its class queue for a retry (R340): a message's is queue 3, where it comes behind every record
that waits; another that finds its queue full is dropped, with its default action (R334). -/
def Cluster.requeue (f : Nat) (t : Trigger) (c : Cluster) : Cluster :=
  let t' := { t with retry := t.retry + 1 }
  if t.cls = .msg then { c with queue := c.queue ++ [.again t'] }
  else if 16 ≤ c.waiting t.cls then (c.dropped t.cls).endTrigger f t false
  else { c with classQ := c.classQ ++ [t'] }

/-- AL.END n (R340): the action, or a retry. -/
def State.endCtx (cl ctx n alcyc : Nat) (h : HCtx) (s : State) : State :=
  let f := s.free
  f.2.setCluster cl fun c =>
    let c := c.leaveCtx ctx h .run alcyc
    if n = 2 ∧ h.trig.retry < 3 then c.requeue f.1.toNat h.trig else c.endTrigger f.1.toNat h.trig (n == 1)

/-! ### Cycles and budgets (R329, R341) -/

/-- The BUDGET of a context's class. -/
def Cluster.budget (c : Cluster) (h : HCtx) : Nat := ctlBudget (c.ctl h.trig.cls.num)

/-- Cycles that pass for an Alcove: its counter and every invocation but one count them. -/
def Cluster.pass (ctx n : Nat) (c : Cluster) : Cluster :=
  { c with
    cycle := c.cycle + BitVec.ofNat 64 n
    ctxs := c.ctxs.map fun e => if e.1 = ctx then e else (e.1, { e.2 with alcyc := min (c.budget e.2) (e.2.alcyc + n) }) }

/-- The invocations but one that have used their budget. -/
def Cluster.overdue (ctx : Nat) (c : Cluster) : List Nat :=
  (c.ctxs.filter fun e => e.1 != ctx && decide (c.budget e.2 ≤ e.2.alcyc)).map (·.1)

/-- Cycles that pass for an Alcove while the context given counts its own: the other invocations that reach their budget are
aborted (R341). -/
def State.passCycles (cl ctx n : Nat) (s : State) : State :=
  let s := s.setCluster cl (·.pass ctx n)
  ((s.cluster cl).overdue ctx).foldl (fun s j => match Tab.find j (s.cluster cl).ctxs with
    | none => s
    | some h => s.abortCtx cl j .overrun h.alcyc) s

/-- BUDGET_OVERRUN (R341, R342): the cycles that an invocation waits bring it to its BUDGET. -/
def execBudgetOverrun (cl ctx : Nat) (s : State) : Out :=
  match Tab.find ctx (s.cluster cl).ctxs with
  | none => .next s
  | some h =>
    let b := (s.cluster cl).budget h
    .next ((s.passCycles cl ctx (b - h.alcyc)).abortCtx cl ctx .overrun b)

/-- HANDLER_START (R334): the first queued trigger of a class takes the lowest free context; where no invocation runs, a free
number of cycles has passed since the Alcove's last (R329). Log entry 13. -/
def execHandlerStart (cl cls : Nat) (s : State) : Out :=
  let c := s.cluster cl
  match takeTrig cls c.classQ, (List.range 8).find? fun i => (Tab.find i c.ctxs).isNone with
  | some (t, rest), some i =>
    if c.mayStart cls && !(s.part (s.ownerOf cl)).faulting && !s.quiesced (s.ownerOf cl) then
      let f := s.free
      .next (f.2.setCluster cl fun c => { c with
        cycle := if c.ctxs.isEmpty then c.cycle + f.1.setWidth 64 else c.cycle
        classQ := rest, ctxs := Tab.put i (HCtx.start i t) c.ctxs })
    else .next s
  | _, _ => .next s

/-! ### The frame of a handler's instruction -/

/-- What an instruction of a handler answers. -/
inductive AlOut
  | goes (h : HCtx) (s : State)
  | ends (n : Nat)
  | exc
  | blocked

/-- An instruction of an invocation run (R330, R341): it takes one cycle and a free number more, as many as keep it within the
budget, which pass for the other invocations too; an invocation that has then used its budget is aborted. The free cycles that
would pass the budget are those of a BUDGET_OVERRUN. -/
def runHandler (cl ctx : Nat) (body : HCtx → State → AlOut) (s : State) : State :=
  match Tab.find ctx (s.cluster cl).ctxs with
  | none => s
  | some h =>
    let budget := (s.cluster cl).budget h
    if budget ≤ h.alcyc then s.abortCtx cl ctx .overrun h.alcyc
    else
      let cost := fun (slack : Nat) => 1 + min (Config.freeCycles s.frees) (budget - h.alcyc - slack)
      let tick := fun (n : Nat) (s : State) => ({ s with frees := s.frees + 1 } : State).passCycles cl ctx n
      let s := s.setCluster cl fun c => { c with issued := ctx }
      match body h s with
      | .exc => (tick (cost 1) s).abortCtx cl ctx .fault (h.alcyc + cost 1)
      | .blocked => ((tick (cost 1) s).abortCtx cl ctx .blocked (h.alcyc + cost 1)).foundFault (s.ownerOf cl)
      | .ends n => (tick (cost 1) s).endCtx cl ctx n (h.alcyc + cost 1) h
      | .goes h' t =>
        let c := h.alcyc + cost 2
        let t := tick (cost 2) (t.setCluster cl fun k =>
          { k with ctxs := Tab.put ctx { h' with alcyc := c, instret := h.instret + 1 } k.ctxs })
        if budget ≤ c then t.abortCtx cl ctx .overrun c else t

/-- The context whose turn it is in the round of an Alcove (R328): the next after the one that issued last. -/
def Cluster.nextCtx (c : Cluster) : Option Nat :=
  ((List.range 8).map fun i => (c.issued + 1 + i) % 8).find? fun i => (Tab.find i c.ctxs).isSome

/-- The context going on after a 4-byte instruction. -/
def HCtx.on (h : HCtx) : HCtx := { h with pc := h.pc + 4 }

/-! ### The extension instructions (R337 to R340) -/

/-- What a global address of a handler comes to (R338, R344): the physical address, an exception, or a blocked access. -/
inductive AlAddr
  | phys (pa : Nat)
  | exc
  | blocked

/-- The translation of a handler's address (R338, R344): a stop that forbids the access blocks it. -/
def State.alAddr (s : State) (p : Nat) (ea : Dword) (rd wr : Bool) : AlAddr :=
  if !s.usable p ea rd wr then .exc
  else
    match classify ea with
    | .global va =>
      match s.translate p va with
      | none => .exc
      | some (_, pa) => if s.ownsStop p pa then .phys pa else .blocked
    | _ => .exc

/-- Whether a line is present for a handler of a cluster (R338). -/
def State.presentAt (s : State) (cl line : Nat) : Bool :=
  s.homeOf (s.ownerOf cl) line == cl && (s.cluster cl).present line

/-- The body of AL.LDW (R338): a poisoned line that is read is a partition fault (R370). -/
def alLdwBody (cl : Nat) (rd rs1 : BitVec 5) (imm : BitVec 12) (h : HCtx) (s : State) : AlOut :=
  let ea := h.x rs1 + sext12 imm
  if ea.toNat % 8 ≠ 0 then .exc
  else
    match s.alAddr (s.ownerOf cl) ea true false with
    | .exc => .exc
    | .blocked => .blocked
    | .phys pa =>
      if s.presentAt cl (lineOf pa) then
        if s.poison.contains (lineOf pa) then .blocked else
        let r := s.homeRead pa 8
        .goes { (h.setX rd (BitVec.ofNat 64 (leNat r.1))).on with alres := false } r.2
      else .goes { (h.setX rd 0).on with alres := true } s

/-- The body of AL.STW (R338). -/
def alStwBody (cl : Nat) (rs2 rs1 : BitVec 5) (imm : BitVec 12) (h : HCtx) (s : State) : AlOut :=
  let ea := h.x rs1 + sext12 imm
  if ea.toNat % 8 ≠ 0 then .exc
  else
    match s.alAddr (s.ownerOf cl) ea false true with
    | .exc => .exc
    | .blocked => .blocked
    | .phys pa =>
      if s.presentAt cl (lineOf pa) then
        .goes { h.on with alres := false } ((s.homeWrite (s.ownerOf cl) pa (leBytes 8 (h.x rs2).toNat)).markWrote cl (lineOf pa))
      else .goes { h.on with alres := true } s

/-- The body of AL.FETCH (R339). -/
def alFetchBody (cl : Nat) (rd rs1 : BitVec 5) (imm : BitVec 12) (h : HCtx) (s : State) : AlOut :=
  let p := s.ownerOf cl
  if rd ≠ 0 then .exc
  else
    match s.alAddr p (h.x rs1 + sext12 imm) true false with
    | .exc => .goes h.on s
    | .blocked => .blocked
    | .phys pa => .goes h.on (s.setCluster (s.homeOf p (lineOf pa)) (·.miss (lineOf pa) .normal 2))

/-- The body of AL.DROP (R339). -/
def alDropBody (cl : Nat) (rd rs1 : BitVec 5) (imm : BitVec 12) (h : HCtx) (s : State) : AlOut :=
  if rd ≠ 0 then .exc
  else
    match s.alAddr (s.ownerOf cl) (h.x rs1 + sext12 imm) true false with
    | .exc => .goes h.on s
    | .blocked => .blocked
    | .phys pa =>
      if s.presentAt cl (lineOf pa) then
        .goes h.on (s.setCluster cl (·.setLine (lineOf pa) fun l => { l with next := true }))
      else .goes h.on s

/-- The value of AL.ARG n (R336). -/
def argValue (ctx : Nat) (t : Trigger) (n : Nat) : Dword :=
  match n, t.record with
  | 0, _ => BitVec.ofNat 64 (t.cls.num + t.retry * 2 ^ 8 + ctx * 2 ^ 16)
  | 1, _ => t.arg1
  | 2, _ => t.arg2
  | k, some x => if k ≤ 8 then BitVec.ofNat 64 (recN x.record (16 + 8 * (k - 3)) 8) else 0
  | _, none => 0

/-- The body of AL.ARG (R336, R337). -/
def alArgBody (ctx : Nat) (rd rs1 : BitVec 5) (imm : BitVec 12) (h : HCtx) (s : State) : AlOut :=
  if rs1 ≠ 0 || decide (15 < imm.toNat) then .exc else .goes (h.setX rd (argValue ctx h.trig imm.toNat)).on s

/-- The body of AL.END (R337, R340). -/
def alEndBody (rd rs1 : BitVec 5) (imm : BitVec 12) (_ : HCtx) (_ : State) : AlOut :=
  if rd ≠ 0 || rs1 ≠ 0 || decide (2 < imm.toNat) then .exc else .ends imm.toNat

/-- The body of AL.SEND (R340). -/
def alSendBody (cl : Nat) (rs2 rs1 : BitVec 5) (imm : BitVec 12) (h : HCtx) (s : State) : AlOut :=
  let t := (h.x rs1 + sext12 imm).toNat % 2 ^ 32
  match h.trig.record with
  | none => .goes { h.on with alres := true } s
  | some x =>
    match s.sendTo (s.ownerOf cl) x.team t ((h.x rs2).setWidth 32) with
    | .absent => .goes { h.on with alres := true } s
    | .blocked => .blocked
    | .sent s' => .goes { h.on with alres := false } s'

/-- The body of a base instruction (R328, R330). -/
def baseBody (cl ctx len : Nat) (i : Rv) (h : HCtx) (s : State) : AlOut :=
  let c := s.cluster cl
  match rvStep c ctx h (c.budget h) len i with
  | .exc => .exc
  | .goes c' h' => .goes h' (s.setCluster cl fun _ => c')

/-- AL_LDW (R338). -/
def execAlLdw (cl ctx : Nat) (rd rs1 : BitVec 5) (imm : BitVec 12) (s : State) : Out :=
  .next (runHandler cl ctx (alLdwBody cl rd rs1 imm) s)

/-- AL_FETCH (R339). -/
def execAlFetch (cl ctx : Nat) (rd rs1 : BitVec 5) (imm : BitVec 12) (s : State) : Out :=
  .next (runHandler cl ctx (alFetchBody cl rd rs1 imm) s)

/-- AL_DROP (R339). -/
def execAlDrop (cl ctx : Nat) (rd rs1 : BitVec 5) (imm : BitVec 12) (s : State) : Out :=
  .next (runHandler cl ctx (alDropBody cl rd rs1 imm) s)

/-- AL_ARG (R336). -/
def execAlArg (cl ctx : Nat) (rd rs1 : BitVec 5) (imm : BitVec 12) (s : State) : Out :=
  .next (runHandler cl ctx (alArgBody ctx rd rs1 imm) s)

/-- AL_END (R340). -/
def execAlEnd (cl ctx : Nat) (rd rs1 : BitVec 5) (imm : BitVec 12) (s : State) : Out :=
  .next (runHandler cl ctx (alEndBody rd rs1 imm) s)

/-- AL_STW (R338). -/
def execAlStw (cl ctx : Nat) (rs2 rs1 : BitVec 5) (imm : BitVec 12) (s : State) : Out :=
  .next (runHandler cl ctx (alStwBody cl rs2 rs1 imm) s)

/-- AL_SEND (R340). -/
def execAlSend (cl ctx : Nat) (rs2 rs1 : BitVec 5) (imm : BitVec 12) (s : State) : Out :=
  .next (runHandler cl ctx (alSendBody cl rs2 rs1 imm) s)

/-- HANDLER_INSTRUCTION (R328): a base RISC-V instruction of a handler. -/
def execHandlerInstruction (cl ctx len : Nat) (i : Rv) (s : State) : Out :=
  .next (runHandler cl ctx (baseBody cl ctx len i) s)

/-! ### Fetch (R328, R330) -/

/-- The instruction at a context's PC: an exception outside instruction memory. -/
def Cluster.fetch (cl ctx : Nat) (h : HCtx) (c : Cluster) : HandlerDecoded :=
  let a := h.pc.toNat
  let off := a - 0x100000
  let w : Word := BitVec.ofNat 32 (leNat ((List.range 4).map fun i => Tab.getD 0 (off + i) c.imem))
  let len := if bits w 0 2 = 3 then 4 else 2
  if a < 0x100000 ∨ 0x120000 < a + len then .illegal else decodeHandler cl ctx w

/-- The invocation of a context ends with an exception (R330). -/
def State.handlerFault (cl ctx : Nat) (s : State) : State := runHandler cl ctx (fun _ _ => .exc) s

/-! ### The mailbox command ALCOVE (R331, R332, R371) -/

/-- Every cluster of a partition changed. -/
def State.eachCluster (p : Nat) (g : Cluster → Cluster) (s : State) : State :=
  (s.partClusters p).foldl (fun s c => s.setCluster c g) s

/-- Whether a write to the registers of a partition's Alcoves is within its limits on every one of them; after a REPART they
may differ (R331, R332, R345). -/
def State.onEvery (s : State) (p : Nat) (ok : Cluster → Bool) : Bool :=
  ok Cluster.fresh && (s.partClusters p).all fun c => ok (s.cluster c)

/-- Whether a class control register is within R331. -/
def controlOk (c : Cluster) (cls : Nat) (v : Word) : Bool :=
  let others := (List.range 4).foldl (fun n j => if j = cls then n else n + ctlRsv (c.ctl j)) 0
  decide (cls < 4 ∧ ctlCap v ≤ 8 ∧ ctlRsv v ≤ ctlCap v ∧ others + ctlRsv v ≤ 8) &&
    (!ctlEn v || decide (1 ≤ ctlBudget v ∧ ctlBudget v ≤ 4096))

/-- The physical ranges behind n pages of 64 KiB; none where one is unmapped (R332). -/
def State.ranges (s : State) (p : Nat) : Nat → Nat → Option (List (Nat × Nat × Nat))
  | 0, _ => some []
  | n + 1, va =>
    match if classify (addr va) = .global va then s.translate p va else none with
    | none => none
    | some (_, pa) => (State.ranges s p n (va + 65536)).map fun r => (va, pa, 65536) :: r

/-- Whether a registration is within R332, but for the mapping of its pages. -/
def regOk (c : Cluster) (cls idx : Nat) (r : BitVec 256) : Bool :=
  let apart := fun (j : Nat) =>
    match Tab.find (16 * cls + j) c.regs with
    | none => true
    | some (x, _) => j == idx || !regValid x || decide (regBase r + regLen r ≤ regBase x ∨ regBase x + regLen x ≤ regBase r)
  decide (cls < 4 ∧ idx < 16) && regEntry r % 2 == 0 && decide (regEntry r < 131072) &&
    (if cls = 3 then regBase r == 0 && regLen r == 0
     else regBase r % 65536 == 0 && regLen r % 65536 == 0 && (!regValid r || (List.range 16).all apart))

/-- The bits of a registration that are kept: the others are reserved and read 0 (R332). -/
def regMask : BitVec 256 := BitVec.ofNat 256 (2 ^ 256 - 2 ^ 96 + 2 ^ 31)

/-- ALCOVE (R331, R332, R371, R377): a class register or a registration of a partition's Alcoves. -/
def execAlcove (part : Nat) (cmd : AlcoveCmd) (s : State) : Out :=
  .next (s.mailbox (.alcove part cmd) false fun s =>
    if !s.feature 5 then s.answers .refused
    else
      match cmd with
      | .control cls v =>
        if s.onEvery part fun c => controlOk c cls v then
          (s.eachCluster part fun c => { c with control := Tab.put cls (v &&& 0x8FF01FFF#32) c.control }).answers .done
        else s.answers .refused
      | .register cls idx r =>
        if !s.onEvery part fun c => regOk c cls idx r then s.answers .refused
        else
          match if regValid r then s.ranges part (regLen r / 65536) (regBase r) else some [] with
          | none => s.answers .refused
          | some g =>
            (s.eachCluster part fun c => { c with regs := Tab.put (16 * cls + idx) (r &&& regMask, g) c.regs }).answers .done)

end Sys2Proof.Machine
end

