-- ==== Sys2Proof/Machine/Tiles.lean ====
section
/-! DEFINITION. The tile dispatcher (R314 to R323): jobs, decomposition into tiles, residency, TLPOP and TLDONE. -/

namespace Sys2Proof.Machine

open Sys2Proof

/-! ### Jobs -/

/-- The key of slot j of a partition's jobs. -/
def jobKey (p j : Nat) : Nat := 16 * p + j

/-- A tile changed. -/
def Job.setTile (n : Nat) (g : Tile → Tile) (j : Job) : Job := { j with tiles := j.tiles.modify n g }

/-- Whether every tile of a job is retired (R322). -/
def Job.over (j : Job) : Bool := j.tiles.all (·.retired)

/-- A job whose tiles are all retired comes to stage 5; it keeps its slot until it completes (R314, R321, R322). -/
def State.settleJob (key : Nat) (s : State) : State :=
  match Tab.find key s.jobs with
  | none => s
  | some j => if j.over then s.setLaunch j.launch Launch.toDrain else s

/-- The slots of a job that has completed are free (R314). -/
def State.freeJob (l : Nat) (s : State) : State := { s with jobs := s.jobs.filter fun e => e.2.launch != l }

/-- The height code of R254 and the height of the next tile of a record with rows left (R317). -/
def nextTile (left : Nat) : Nat × Nat :=
  match (List.range 6).reverse.find? fun c => decide (8 * 2 ^ c ≤ left) with
  | some c => (c, 8 * 2 ^ c)
  | none => (0, 8)

/-- The tiles of a record (R317). Each tile but the last takes its whole height, so the number bounds the tiles. -/
def recTiles (recIx expert : Nat) : Nat → Nat → Nat → List Tile
  | 0, _, _ => []
  | n + 1, off, left =>
    if left = 0 then []
    else
      let c := nextTile left
      let v := min c.2 left
      ⟨recIx, expert, off, c.1, v, none, false⟩ :: recTiles recIx expert n (off + v) (left - v)

/-- The number of tiles of a count of rows (R317). -/
def tileCount (count : Nat) : Nat :=
  count / 256 + ((List.range 5).filter fun b => (count / 8).testBit b).length + (if count % 8 = 0 then 0 else 1)

/-- The tiles of the records, as (EXPERT, OFFSET, COUNT), in record order (R317). -/
def decompose (rs : List (Nat × Nat × Nat)) : List Tile :=
  (List.range rs.length).flatMap fun i =>
    let r := rs.getD i (0, 0, 0)
    recTiles i r.1 (tileCount r.2.2) r.2.1 r.2.2

/-- n 16-byte units read one after another. -/
def State.readUnits (p : Nat) (a : Dword) : Nat → State → List Nat × State
  | 0, s => ([], s)
  | n + 1, s =>
    let x := s.packetRead p a 16
    let q := State.readUnits p (a + 16) n x.2
    (x.1 :: q.1, q.2)

/-- Whether n 16-byte units can be read. -/
def State.unitsOk (s : State) (p : Nat) (a : Dword) (n : Nat) : Bool :=
  (List.range n).all fun i => s.usable p (a + BitVec.ofNat 64 (16 * i)) true false

/-- Whether one of n 16-byte units is a partition fault to read. -/
def State.unitsBreak (s : State) (p : Nat) (a : Dword) (n : Nat) : Bool :=
  (List.range n).any fun i => s.packetBreaks p (a + BitVec.ofNat 64 (16 * i)) true

/-- Whether a record is within R316. -/
def recordOk (nexp v : Nat) : Bool :=
  v / 2 ^ 96 == 0 && decide (v % 2 ^ 32 < nexp) && decide (v / 2 ^ 32 % 2 ^ 32 + v / 2 ^ 64 % 2 ^ 32 ≤ 2 ^ 32)

/-- EXPERT, OFFSET and COUNT of a record (R315). -/
def recordFields (v : Nat) : Nat × Nat × Nat := (v % 2 ^ 32, v / 2 ^ 32 % 2 ^ 32, v / 2 ^ 64)

/-- What the dispatcher's read of a fill signal makes of an expert (R318): ready at 0, failed below 0 or unreadable. -/
def State.poll (p : Nat) (e : Expert) (s : State) : Expert × State :=
  if e.ready || e.failed then (e, s)
  else if e.fillsig = 0 then ({ e with ready := true }, s)
  else if !s.usable p (addr e.fillsig) true false then ({ e with failed := true }, s)
  else
    let x := s.packetRead p (addr e.fillsig) 8
    ({ e with ready := x.1 == 0, failed := decide (2 ^ 63 ≤ x.1) }, x.2)

/-- The experts that records name, with their table entries, polled at acceptance (R318). -/
def pollAll (p : Nat) (table : List Nat) : List Nat → State → Tab Expert × State
  | [], s => ([], s)
  | e :: r, s =>
    let v := table.getD e 0
    let x := s.poll p ⟨BitVec.ofNat 64 v, v / 2 ^ 64, false, false⟩
    let q := pollAll p table r x.2
    (Tab.put e x.1 q.1, q.2)

/-- Whether an expert's fill signal is one the dispatcher can read at acceptance (R316). -/
def State.fillsigOk (s : State) (p v : Nat) : Bool :=
  let f := v / 2 ^ 64
  f == 0 || (f % 8 == 0 && s.usable p (addr f) true false)

/-- Whether the read of an expert's fill signal is a partition fault (R353, R370). -/
def State.fillsigBreaks (s : State) (p v : Nat) : Bool := v / 2 ^ 64 != 0 && s.packetBreaks p (addr (v / 2 ^ 64)) true

/-- A job of a launch in its slot and in a dispatcher slot, which it keeps until it completes (R314, R355). -/
def State.putJob (p j : Nat) (x : Job) (s : State) : State := { s with jobs := Tab.put (jobKey p j) x s.jobs }

/-- A job that completes with BAD_JOB (R316): it holds its slot without a tile until then. -/
def State.badJob (l p j dies : Nat) (s : State) : State := (s.putJob p j ⟨l, dies, [], []⟩).failLaunch l 0x32

/-- A job one of whose reads is a partition fault (R353, R370): it holds its slot until it completes, as a part of that
partition's work. -/
def State.brokenJob (l p j dies : Nat) (s : State) : State := (s.putJob p j ⟨l, dies, [], []⟩).foundFault p

/-- Acceptance of a job at stage 2 (R314 to R318): BAD_JOB, a partition fault, or the job in its slot at stage 4. A job that meets
BAD_JOB and a partition fault in one check completes with BAD_JOB, and no fault is found. Log entry 111. -/
def State.acceptJob (l j dies nexp nrec : Nat) (rec exp : Dword) (s : State) : State :=
  match Tab.find l s.launches with
  | none => s
  | some la =>
    let p := la.part
    if !(s.unitsOk p rec nrec && s.unitsOk p exp nexp) then s.badJob l p j dies
    else if s.unitsBreak p rec nrec || s.unitsBreak p exp nexp then s.brokenJob l p j dies
    else
      let x := s.readUnits p rec nrec
      let t := x.2.readUnits p exp nexp
      let s := t.2
      let rs := x.1.map recordFields
      let es := (rs.map (·.1)).dedup
      if !(x.1.all (recordOk nexp)) || decide (2 ^ 20 < rs.foldl (fun n r => n + tileCount r.2.2) 0) ||
          !(es.all fun e => s.fillsigOk p (t.1.getD e 0)) then s.badJob l p j dies
      else if es.any fun e => s.fillsigBreaks p (t.1.getD e 0) then s.brokenJob l p j dies
      else
        let y := pollAll p t.1 es s
        let s := y.2
        let s := if y.1.any fun e => e.2.failed then s.setLaunch l (·.fixError 0x33 0) else s
        let s := s.setLaunch l fun x => { x with stage := 4 }
        (s.putJob p j ⟨l, dies, decompose rs, y.1⟩).settleJob (jobKey p j)

/-- The dispatcher slots a partition's jobs hold (R314). -/
def State.jobsOf (s : State) (p : Nat) : Nat := (s.jobs.filter fun e => decide (e.1 / 16 = p)).length

/-- Whether the slot that a TILES packet names holds a job that has not completed (R314). -/
def State.slotBusy (s : State) (k : Pkt) : Bool :=
  recOp k.r == 4 && decide (recN k.r 24 1 < 16) && (Tab.find (jobKey k.p (recN k.r 24 1)) s.jobs).isSome

/-- Whether a TILES packet finds no free dispatcher slot (R314, R355). -/
def State.noJobSlot (s : State) (k : Pkt) : Bool := decide (recN k.r 24 1 < 16) && s.poolFree 5 k.p s.jobsOf == 0

/-- TILES_PACKET (R314): waits at stage 1 for its slot and for a dispatcher slot, also where it is malformed, unless J names
no slot. -/
def execTilesPacket (q : Nat) (s : State) : Out :=
  .next (packetTurn 4 q (fun k s =>
    match pktWork k.r with
    | .tiles j dies nexp nrec rec exp =>
      if s.slotBusy k || s.noJobSlot k then s
      else
        let l := s.nextLaunch
        let s := (s.leave k (pktWork k.r)).stage2 l 4
        if ((Tab.find l s.launches).map (·.stage)) = some 4 then s.acceptJob l j dies nexp nrec (addr rec) (addr exp) else s
    | _ => s) (fun k s => if recOp k.r == 4 && (s.slotBusy k || s.noJobSlot k) then s else s.leaveBad k) s)

/-- FILL_SIGNAL_POLL (R318): the dispatcher reads the fill signal of an expert of a job that is not yet ready. -/
def execFillSignalPoll (id expert : Nat) (s : State) : Out :=
  match s.jobs.find? fun e => e.2.launch == id with
  | none => .next s
  | some (key, j) =>
    match Tab.find expert j.experts with
    | none => .next s
    | some e =>
      if e.ready || e.failed then .next s
      else if s.usable (key / 16) (addr e.fillsig) true false && s.packetBreaks (key / 16) (addr e.fillsig) true then
        .next (s.foundFault (key / 16))
      else
        let x := s.poll (key / 16) e
        let s := { x.2 with jobs := Tab.upd key (fun j => { j with experts := Tab.put expert x.1 j.experts }) x.2.jobs }
        .next (if x.1.failed then s.setLaunch id (·.fixError 0x33 0) else s)

/-! ### TLPOP and TLDONE -/

/-- The tiles that pops can take, by sequence number (R319). -/
def Job.offerable (j : Job) : List Nat :=
  (List.range j.tiles.length).filter fun n =>
    match j.tiles[n]? with
    | none => false
    | some t => t.team.isNone && !t.retired && ((Tab.find t.expert j.experts).map fun e => e.ready || e.failed).getD false

/-- The tiles not yet delivered. -/
def Job.undelivered (j : Job) : Nat := (j.tiles.filter fun t => t.team.isNone && !t.retired).length

/-- An END descriptor (R320). -/
def endTile (job : Word) (fail : Bool) : List Word := [job, 0, if fail then 3 else 1, 0, 0, 0, 0, 0]

/-- The descriptor of a tile (R320). -/
def tileWords (job : Word) (j : Job) (n : Nat) : List Word :=
  match j.tiles[n]? with
  | none => endTile job false
  | some t =>
    let e := Tab.getD ⟨0, 0, false, false⟩ t.expert j.experts
    let flags := (if e.failed then 2 else 0) + (if t.valid < 8 * 2 ^ t.mh then 4 else 0)
    [job, BitVec.ofNat 32 t.recIx, BitVec.ofNat 32 (flags + t.mh * 2 ^ 8 + t.valid * 2 ^ 16), BitVec.ofNat 32 t.off,
      BitVec.ofNat 32 t.expert, BitVec.ofNat 32 n, e.waddr.setWidth 32, (e.waddr >>> 32).setWidth 32]

/-- The eight words of a descriptor written to a lane. -/
def wrTile (d l : Nat) (ws : List Word) : List RegW := (List.range 8).map fun i => (d + i, l, ws.getD i 0)

/-- The body of TLPOP (R321), an acquire of the fragment (R84). -/
def tlpopBody (c : Ctx) (s : State) : Act :=
  if c.lanes.isEmpty then .next s
  else
    let jw := c.w.reg c.f.a.toNat c.low
    let p := s.partOf c.w
    let give := fun (ds : Nat → List Word) (s : State) => Act.next ((s.writeRegs c (c.lanes.zipIdx.flatMap fun x =>
      wrTile c.f.d.toNat x.1 (ds (if c.f.u then 0 else x.2)))).owe c.k)
    let acquire := fun (s : State) => s.setFrag c.k c.i fun f => { f with early := [] }
    if 15 < jw.toNat then give (fun _ => endTile jw true) s
    else
      match Tab.find (jobKey p jw.toNat) s.jobs with
      | none => .wait .retry s
      | some j =>
        let die := s.dieNum p (clusterOf (coreOf c.k) / Config.clustersPerDie)
        if j.dies ≠ 0 ∧ j.dies.testBit die = false then give (fun _ => endTile jw true) s
        else
          let n := c.actors.length
          let off := j.offerable
          if off.length < n ∧ off.length < j.undelivered then .wait .retry s
          else
            let took := off.take n
            let j' := took.foldl (fun j i => j.setTile i fun t => { t with team := some c.w.team }) j
            give (fun i => match took[i]? with
              | some n => tileWords jw j n
              | none => endTile jw false) (acquire { s with jobs := Tab.put (jobKey p jw.toNat) j' s.jobs })

/-- The retirement of a tile, and the job's end with its last (R322). -/
def State.retireTile (key n : Nat) (s : State) : State :=
  State.settleJob key { s with jobs := Tab.upd key (·.setTile n fun t => { t with retired := true }) s.jobs }

/-- The body of TLDONE (R322): a .device release first. -/
def tldoneBody (c : Ctx) (s : State) : Act :=
  if c.lanes.isEmpty then .next s
  else
    let s := c.release 4 s
    let jv := (c.w.reg c.f.a.toNat c.low).toNat
    let n := (c.w.reg c.f.b.toNat c.low).toNat
    let key := jobKey (s.partOf c.w) jv
    let give := fun (v : Word) (s : State) => Act.next (s.writeRegs c (c.lanes.map fun l => (c.f.d.toNat, l, v)))
    match if 15 < jv then none else Tab.find key s.jobs with
    | none => give 1 s
    | some j =>
      match j.tiles[n]? with
      | none => give 1 s
      | some t =>
        if t.team.isNone || t.retired then give 1 s
        else
          let s := s.retireTile key n
          give (if ((Tab.find key s.jobs).map Job.over).getD false then 2 else 0) s

/-- The tiles that a retiring team still holds, as jobs and sequence numbers (R323). -/
def State.heldTiles (s : State) (team : Nat) : List (Nat × Nat) :=
  s.jobs.flatMap fun e => (List.range e.2.tiles.length).filterMap fun n =>
    match e.2.tiles[n]? with
    | none => none
    | some t => if t.team = some team ∧ t.retired = false then some (e.1, n) else none

/-- The tiles of a retiring team abandoned (R323). -/
def State.abandonTiles (team : Nat) (s : State) : State :=
  (s.heldTiles team).foldl (fun s x =>
    match Tab.find x.1 s.jobs with
    | none => s
    | some j => (s.setLaunch j.launch (·.fixError 0x34 0)).retireTile x.1 x.2) s

/-- TLPOP (R321). -/
def execTlpop (f : XF) (s : State) : Out := runWave (.ofX 0x2F0 f) tlpopBody s

/-- TLDONE (R322). -/
def execTldone (f : XF) (s : State) : Out := runWave (.ofX 0x2F1 f) tldoneBody s

end Sys2Proof.Machine
end

