-- ==== Sys2Proof/Machine/Cut.lean ====
section
/-! DEFINITION. The geometry of cuts (R290 to R301): descriptors, allowed shapes, groups in cut order, the classes of minority
maps, the remainder and the choice of the next cut. -/

namespace Sys2Proof.Machine

open Sys2Proof

/-! ### Descriptors (R290, R291) -/

/-- n bytes of a 128-byte descriptor from byte lo on. -/
def descN (d lo n : Nat) : Nat := d / 2 ^ (8 * lo) % 2 ^ (8 * n)

/-- The size entries of an axis from byte lo on. -/
def descSizes (d lo : Nat) : List Nat := (List.range 8).map fun i => descN d (lo + 2 * i) 2

/-- The fields of a descriptor (R290). -/
def descOf (d : Nat) : Desc :=
  let flags := descN d 24 1
  { entry := BitVec.ofNat 64 (descN d 0 8), trapVec := BitVec.ofNat 64 (descN d 8 8), fixed := descN d 16 4,
    perItem := descN d 20 4, dcut := flags.testBit 0, cores := flags.testBit 1, mxuse := flags.testBit 2,
    quotas := if flags.testBit 3 then some ((List.range 4).map fun q => descN d (28 + q) 1) else none,
    order := flags / 16 % 4, window := descN d 25 1,
    xs := (descSizes d 40).take (descN d 36 1), ys := (descSizes d 56).take (descN d 37 1),
    zs := (descSizes d 72).take (descN d 38 1), lo := descN d 32 2, hi := descN d 34 2, pin := descN d 39 1 == 1 }

/-- A shape, its item count, and its waves. -/
abbrev Shape := Nat × Nat × Nat

/-- Items of a shape. -/
def items (s : Shape) : Nat := s.1 * s.2.1 * s.2.2

/-- Waves of a number of items (R10). -/
def wavesOf (n : Nat) : Nat := (n + 31) / 32

/-- The capacities of the queues (R234). -/
def queueSize (q : Nat) : Nat := [256, 256, 32, 64].getD q 0

/-- The largest exact quotas per wave (R234). -/
def quotaMax (q : Nat) : Nat := [64, 64, 32, 16].getD q 0

/-- Whether a shape is allowed, its sizes being listed (R293). -/
def Desc.fits (d : Desc) (s : Shape) : Bool :=
  decide (d.lo ≤ items s ∧ items s ≤ d.hi ∧ d.fixed + d.perItem * items s ≤ 1048576) &&
    match d.quotas with
    | none => true
    | some qs => (List.range 4).all fun q => decide (wavesOf (items s) * qs.getD q 0 ≤ queueSize q)

/-- The allowed shapes (R293). -/
def Desc.shapes (d : Desc) : List Shape :=
  (d.xs.flatMap fun x => d.ys.flatMap fun y => d.zs.map fun z => (x, y, z)).filter d.fits

/-- The size rules of one axis (R290, R291): its count, its listed sizes, and its unused entries. -/
def axisOk (d lo n : Nat) : Bool :=
  decide (1 ≤ n ∧ n ≤ 8) && ((descSizes d lo).take n).all (fun x => decide (1 ≤ x ∧ x ≤ 512)) &&
    ((descSizes d lo).drop n).all fun x => x == 0

/-- Whether a descriptor passes R291, its DESC being aligned and readable. -/
def descOk (d : Nat) : Bool :=
  let e := descOf d
  descN d 88 40 == 0 && decide (descN d 39 1 ≤ 1) && descN d 26 2 == 0 && decide (descN d 24 1 < 64) &&
    descN d 0 8 % 4 == 0 && e.order != 3 && decide (1 ≤ e.window ∧ e.window ≤ 64) &&
    axisOk d 40 (descN d 36 1) && axisOk d 56 (descN d 37 1) && axisOk d 72 (descN d 38 1) &&
    decide (1 ≤ e.lo ∧ e.lo ≤ e.hi ∧ e.hi ≤ 512) &&
    e.fixed % 16 == 0 && e.perItem % 16 == 0 && decide (e.fixed ≤ 1048576 ∧ e.perItem ≤ 65536) &&
    (match e.quotas with
      | none => descN d 28 4 == 0
      | some qs => (List.range 4).all fun q => decide (qs.getD q 0 ≤ quotaMax q)) &&
    (!e.pin || (descN d 36 1 == 1 && descN d 37 1 == 1 && descN d 38 1 == 1)) && (!e.cores || e.pin) &&
    !e.shapes.isEmpty

/-- Whether the space can be launched under a descriptor (R292, R304). -/
def spaceOk (e : Desc) (s : Shape) : Bool :=
  decide (items s ≤ 2 ^ 40) &&
    (!e.cores || (s.1 % e.xs.headD 1 == 0 && s.2.1 % e.ys.headD 1 == 0 && s.2.2 % e.zs.headD 1 == 0))

/-- The better of a list by an order given as a list of numbers, the first of those that are greatest. -/
def bestBy (key : Shape → List Nat) : List Shape → Option Shape
  | [] => none
  | s :: r =>
    match bestBy key r with
    | none => some s
    | some t => some (if key s < key t then t else s)

/-- The shape of greatest item count, ties by sx, then sy (R296, R300). -/
def mostItems : List Shape → Option Shape := bestBy fun s => [items s, s.1, s.2.1]

/-! ### Cells and groups (R294, R295) -/

/-- The number of cells of a region's grid along each axis (R295). -/
def Region.grid (r : Region) (s : Shape) : Shape :=
  ((r.qx + s.1 - 1) / s.1, (r.qy + s.2.1 - 1) / s.2.1, (r.qz + s.2.2 - 1) / s.2.2)

/-- The groups of a region. -/
def Region.groups (r : Region) (s : Shape) : Nat := items (r.grid s)

/-- The groups of a cut. -/
def Cut.groups (c : Cut) : Nat := c.regions.foldl (fun n r => n + r.groups c.shape) 0

/-- Length of the overlap of [a, a + w) with [0, n). -/
def overlap (n a w : Nat) : Nat := min n (a + w) - a

/-- The cell at a place of the z traversal below a corner, in a box of side 2^k (R295): eight boxes half as wide, visited in key
order, each with as many cells as lie in the grid. -/
def zCell (g : Shape) : Nat → Shape → Nat → Shape
  | 0, a, _ => a
  | k + 1, a, n =>
    let h := 2 ^ k
    let corner := fun (i : Nat) => (a.1 + h * (i % 2), a.2.1 + h * (i / 2 % 2), a.2.2 + h * (i / 4))
    let count := fun (i : Nat) =>
      let b := corner i
      overlap g.1 b.1 h * overlap g.2.1 b.2.1 h * overlap g.2.2 b.2.2 h
    let go := (List.range 8).foldl (fun (x : Option Nat × Nat) i =>
      match x.1 with
      | some _ => x
      | none => if x.2 < count i then (some i, x.2) else (none, x.2 - count i)) (none, n)
    zCell g k (corner (go.1.getD 7)) go.2

/-- How many cells of a grid come before a cell in the z traversal, below a corner (R295). -/
def zRank (g c : Shape) : Nat → Shape → Nat
  | 0, _ => 0
  | k + 1, a =>
    let h := 2 ^ k
    let corner := fun (i : Nat) => (a.1 + h * (i % 2), a.2.1 + h * (i / 2 % 2), a.2.2 + h * (i / 4))
    let count := fun (i : Nat) =>
      let b := corner i
      overlap g.1 b.1 h * overlap g.2.1 b.2.1 h * overlap g.2.2 b.2.2 h
    let i := c.1 / h % 2 + 2 * (c.2.1 / h % 2) + 4 * (c.2.2 / h % 2)
    ((List.range i).foldl (fun n j => n + count j) 0) + zRank g c k (corner i)

/-- The bits that hold every cell number of a grid. -/
def gridBits (g : Shape) : Nat := Nat.log2 (max g.1 (max g.2.1 g.2.2)) + 1

/-- The cell at a place of a region's traversal (R295). -/
def cellAt (order : Nat) (g : Shape) (n : Nat) : Shape :=
  match order with
  | 0 => (n % g.1, n / g.1 % g.2.1, n / g.1 / g.2.1)
  | 1 => (n / g.2.1 % g.1, n % g.2.1, n / g.2.1 / g.1)
  | _ => zCell g (gridBits g) (0, 0, 0) n

/-- The place of a cell in a region's traversal. -/
def cellRank (order : Nat) (g c : Shape) : Nat :=
  match order with
  | 0 => c.1 + g.1 * (c.2.1 + g.2.1 * c.2.2)
  | 1 => c.2.1 + g.2.1 * (c.1 + g.1 * c.2.2)
  | _ => zRank g c (gridBits g) (0, 0, 0)

/-- The group of a cell: its origin and its clipped shape (R294). -/
def Region.group (r : Region) (s c : Shape) : Shape × Shape :=
  ((r.ox + c.1 * s.1, r.oy + c.2.1 * s.2.1, r.oz + c.2.2 * s.2.2),
    (min s.1 (r.qx - c.1 * s.1), min s.2.1 (r.qy - c.2.1 * s.2.1), min s.2.2 (r.qz - c.2.2 * s.2.2)))

/-- The group at a position of cut order: origin and shape (R295). -/
def groupAt (s : Shape) (order : Nat) : List Region → Nat → Option (Shape × Shape)
  | [], _ => none
  | r :: rs, n =>
    if n < r.groups s then some (r.group s (cellAt order (r.grid s) n)) else groupAt s order rs (n - r.groups s)

/-! ### Cuts (R295, R296, R301) -/

/-- The runs of g groups over d dies (R301). -/
def dealt (d g : Nat) : Tab (Nat × Nat) :=
  let n := (g + d - 1) / d
  (List.range d).map fun i => (i, (min g (i * n), min g ((i + 1) * n)))

/-- A cut as it begins, its groups dealt to a number of dies. -/
def Cut.start (regions : List Region) (s : Shape) (order base dies : Nat) : Cut :=
  let c : Cut := { regions := regions, shape := s, order := order, base := base, runs := [], sent := 0, finished := [],
                   windowAt := 0, closed := false }
  { c with runs := dealt dies c.groups }

/-- The first cut of a launch (R296). -/
def firstCut (e : Desc) (sp : Shape) (dies : Nat) : Cut :=
  Cut.start [⟨0, 0, 0, sp.1, sp.2.1, sp.2.2⟩] ((mostItems e.shapes).getD (1, 1, 1)) e.order 0 dies

/-- A die whose run is empty takes the later half, rounded down, of the longest remaining run of another die, the lower one of
several (R301); the whole run of a die number that a REPART has left the partition without. Log entry 100. It takes it as it pops
a group, and not as its run becomes empty. Log entry 118. -/
def takeRun (dies d : Nat) (runs : Tab (Nat × Nat)) : Tab (Nat × Nat) :=
  let len := fun (r : Nat × Nat) => r.2 - r.1
  if 0 < len (Tab.getD (0, 0) d runs) then runs
  else
    let best := runs.foldl (fun (b : Option (Nat × Nat × Nat)) e =>
      match b with
      | none => some e
      | some x => if len x.2 < len e.2 then some e else b) none
    match best with
    | none => runs
    | some x =>
      let k := if dies ≤ x.1 then len x.2 else len x.2 / 2
      if k = 0 then runs
      else Tab.put d (x.2.2 - k, x.2.2) (Tab.put x.1 (x.2.1, x.2.2 - k) runs)

/-! ### The game record (R297) -/

/-- The class of a group's minority map (R297, R300). -/
inductive MapClass | clean | column | row | scattered
deriving DecidableEq, Repr

/-- A bit of a group's minority map at a relative place. -/
def GroupRec.bit (g : GroupRec) (x y z : Nat) : Bool := g.minority.contains (x + g.shape.1 * (y + g.shape.2.1 * z))

/-- The relative places of a shape. -/
def places (s : Shape) : List Shape :=
  (List.range s.1).flatMap fun x => (List.range s.2.1).flatMap fun y => (List.range s.2.2).map fun z => (x, y, z)

/-- The class of a map (R297). -/
def GroupRec.cls (g : GroupRec) : MapClass :=
  let ps := places g.shape
  let b := fun (p : Shape) => g.bit p.1 p.2.1 p.2.2
  if ps.all fun p => !b p then .clean
  else if ps.all b then .scattered
  else if ps.all fun p => b p == b (p.1, 0, 0) then .column
  else if ps.all fun p => b p == b (0, p.2.1, 0) then .row
  else .scattered

/-- The boundaries of a column map, or, along y, of a row map (R297). -/
def GroupRec.bounds (y : Bool) (g : GroupRec) : List Nat :=
  if y then
    ((List.range g.shape.2.1).filter fun p => p != 0 && g.bit 0 p 0 != g.bit 0 (p - 1) 0).map fun p => g.origin.2.1 + p
  else
    ((List.range g.shape.1).filter fun p => p != 0 && g.bit p 0 0 != g.bit (p - 1) 0 0).map fun p => g.origin.1 + p

/-! ### The remainder (R299) -/

/-- A box of cells of a region: first cell and extent. -/
structure CellBox where
  at0 : Shape
  ext : Shape
deriving DecidableEq, Repr

/-- Whether a box of cells holds a cell. -/
def CellBox.has (b : CellBox) (c : Shape) : Bool :=
  decide (b.at0.1 ≤ c.1 ∧ c.1 < b.at0.1 + b.ext.1 ∧ b.at0.2.1 ≤ c.2.1 ∧ c.2.1 < b.at0.2.1 + b.ext.2.1 ∧
    b.at0.2.2 ≤ c.2.2 ∧ c.2.2 < b.at0.2.2 + b.ext.2.2)

/-- The cells of a box. -/
def CellBox.cells (b : CellBox) : List Shape :=
  (places b.ext).map fun p => (b.at0.1 + p.1, b.at0.2.1 + p.2.1, b.at0.2.2 + p.2.2)

/-- The slab beside a box along an axis (1 x, 2 y, 3 z), one cell thick. -/
def CellBox.slab (b : CellBox) (ax : Nat) : CellBox :=
  match ax with
  | 1 => ⟨(b.at0.1 + b.ext.1, b.at0.2.1, b.at0.2.2), (1, b.ext.2.1, b.ext.2.2)⟩
  | 2 => ⟨(b.at0.1, b.at0.2.1 + b.ext.2.1, b.at0.2.2), (b.ext.1, 1, b.ext.2.2)⟩
  | _ => ⟨(b.at0.1, b.at0.2.1, b.at0.2.2 + b.ext.2.2), (b.ext.1, b.ext.2.1, 1)⟩

/-- A box one cell longer along an axis. -/
def CellBox.longer (b : CellBox) (ax : Nat) : CellBox :=
  match ax with
  | 1 => { b with ext := (b.ext.1 + 1, b.ext.2.1, b.ext.2.2) }
  | 2 => { b with ext := (b.ext.1, b.ext.2.1 + 1, b.ext.2.2) }
  | _ => { b with ext := (b.ext.1, b.ext.2.1, b.ext.2.2 + 1) }

/-- A box grown along an axis while every cell of the next slab satisfies a predicate (R299). The number bounds the cells. -/
def CellBox.grow (p : Shape → Bool) (ax : Nat) : Nat → CellBox → CellBox
  | 0, b => b
  | n + 1, b => if (b.slab ax).cells.all p then CellBox.grow p ax n (b.longer ax) else b

/-- The axes of R299 by order: x, y, z for row and z; y, x, z for col. -/
def growAxes (order : Nat) : List Nat := if order = 1 then [2, 1, 3] else [1, 2, 3]

/-- The first place from n on, of at most k, whose cell satisfies a predicate. -/
def firstPlace (order : Nat) (g : Shape) (p : Shape → Bool) : Nat → Nat → Option Nat
  | 0, _ => none
  | k + 1, n => if p (cellAt order g n) then some n else firstPlace order g p k (n + 1)

/-- The boxes of a region's undispatched cells (R299); the first number bounds the boxes. -/
def regionBoxes (order : Nat) (g : Shape) (free : Shape → Bool) : Nat → List CellBox → List CellBox
  | 0, bs => bs
  | k + 1, bs =>
    let p := fun (c : Shape) => decide (c.1 < g.1 ∧ c.2.1 < g.2.1 ∧ c.2.2 < g.2.2) && free c && bs.all fun b => !b.has c
    match firstPlace order g p (items g) 0 with
    | none => bs
    | some n =>
      let b := (growAxes order).foldl (fun b ax => CellBox.grow p ax (max g.1 (max g.2.1 g.2.2)) b)
        ⟨cellAt order g n, (1, 1, 1)⟩
      regionBoxes order g free k (bs ++ [b])

/-- The item box of a box of cells, clipped to its region (R299). -/
def Region.itemBox (r : Region) (s : Shape) (b : CellBox) : Region :=
  let ox := b.at0.1 * s.1
  let oy := b.at0.2.1 * s.2.1
  let oz := b.at0.2.2 * s.2.2
  ⟨r.ox + ox, r.oy + oy, r.oz + oz, min (b.ext.1 * s.1) (r.qx - ox), min (b.ext.2.1 * s.2.1) (r.qy - oy),
    min (b.ext.2.2 * s.2.2) (r.qz - oz)⟩

/-- The remainder of a list of regions whose first position is given, for a set of undispatched positions (R299): the number
bounds the boxes. -/
def remainderOf (s : Shape) (order : Nat) (free : Nat → Bool) : List Region → Nat → Nat → List Region
  | [], _, _ => []
  | r :: rs, at0, k =>
    let g := r.grid s
    let bs := (regionBoxes order g (fun c => free (at0 + cellRank order g c)) k []).map (r.itemBox s)
    bs ++ remainderOf s order free rs (at0 + r.groups s) (k - bs.length)

/-- Whether a position of a cut is not dispatched. -/
def Cut.free (c : Cut) (n : Nat) : Bool := c.runs.any fun r => decide (r.2.1 ≤ n ∧ n < r.2.2)

/-- The remainder of a cut, as many as 17 boxes of it (R299). -/
def Cut.remainder (c : Cut) : List Region := remainderOf c.shape c.order c.free c.regions 0 17

/-! ### The choice of R300 -/

/-- The case of a window (R300, R307): 1 clean, 2 column, 3 row, 4 scattered. -/
def windowCase (gs : List GroupRec) : Nat :=
  let cs := (gs.map (·.cls)).filter fun c => c != .clean
  if cs.isEmpty then 1 else if cs.all (· == .column) then 2 else if cs.all (· == .row) then 3 else 4

/-- The mean per item of a measurement of whole groups, rounded down (R300). -/
def perItem (f : GroupRec → Nat) (gs : List GroupRec) : Nat :=
  (gs.foldl (fun n g => n + f g) 0) / (gs.foldl (fun n g => n + items g.shape) 0)

/-- The footprint of a window (R300). -/
def windowFoot (gs : List GroupRec) : Nat := perItem (fun g => g.foot * items g.shape) gs

/-- Whether a size is aligned to the boundaries inside the boxes of a remainder (R300). -/
def alignedTo (y : Bool) (rem : List Region) (bs : List Nat) (n : Nat) : Bool :=
  rem.all fun q =>
    let o := if y then q.oy else q.ox
    let e := if y then q.qy else q.qx
    bs.all fun b => !decide (o < b ∧ b < o + e) || (b - o) % n == 0

/-- The size of a shape along x, or along y. -/
def along (y : Bool) (s : Shape) : Nat := if y then s.2.1 else s.1

/-- The choice of shape and order for a column window, or for a row window (R300). -/
def chooseAligned (y : Bool) (shapes : List Shape) (rem : List Region) (gs : List GroupRec) (s : Shape) (o : Nat) :
    Shape × Nat :=
  let bs := (gs.filter fun g => g.cls == (if y then .row else .column)).flatMap (·.bounds y)
  let ok := shapes.filter fun t => alignedTo y rem bs (along y t)
  match bestBy (fun t => [along y t, items t, along (!y) t]) ok with
  | none => (s, o)
  | some t => (t, if y then 0 else 1)

/-- The least item count of a list of shapes. -/
def leastItems : List Shape → Nat
  | [] => 0
  | [s] => items s
  | s :: r => min (items s) (leastItems r)

/-- The shape of least item count, ties by sx, then sy (R300). -/
def fewestItems (shapes : List Shape) : Option Shape := mostItems (shapes.filter fun s => items s == leastItems shapes)

/-- Whether the greatest cycles per item of a window is more than twice the least (R300). -/
def unevenCycles (gs : List GroupRec) : Bool :=
  gs.any fun a => gs.any fun b => decide (2 * b.cycles * items a.shape < a.cycles * items b.shape)

/-- The choice for a clean or scattered window (R300). -/
def chooseBySize (d : Desc) (gs : List GroupRec) (s : Shape) (o : Nat) : Shape × Nat :=
  let fw := windowFoot gs
  if 65536 < fw * items s then
    match mostItems (d.shapes.filter fun t => decide (fw * items t ≤ 65536)) with
    | some t => (t, o)
    | none => ((fewestItems d.shapes).getD s, o)
  else if d.dcut then (s, o)
  else if unevenCycles gs then ((mostItems (d.shapes.filter fun t => decide (2 * items t ≤ items s))).getD s, o)
  else if 2 * fw < perItem (·.l2) gs then (s, 2)
  else (s, o)

/-- The shape and the order that an evaluation chooses (R300). -/
def chooseNext (d : Desc) (rem : List Region) (gs : List GroupRec) (s : Shape) (o : Nat) : Shape × Nat :=
  match windowCase gs with
  | 2 => chooseAligned false d.shapes rem gs s o
  | 3 => chooseAligned true d.shapes rem gs s o
  | _ => chooseBySize d gs s o

/-- The positions of a cut that may be dispatched now end here (R298): under DCUT, the end of the window not yet evaluated. -/
def Cut.limit (c : Cut) (d : Desc) : Nat :=
  if d.dcut && !d.pin && !c.closed then min c.groups (c.windowAt + d.window) else c.groups

end Sys2Proof.Machine
end

