-- ==== Sys2Proof/Machine/Matrix.lean ====
section
/-! DEFINITION. The matrix engine (R252 to R265): the checks of a record, the tile check, and the five commands. -/

namespace Sys2Proof.Machine

open Sys2Proof

/-- Tile height M of a height code (R254). -/
def tileM (mh : Nat) : Nat := 8 * 2 ^ mh

/-- Fold width F of a height code (R254). -/
def foldF (mh : Nat) : Nat := 16384 / tileM mh

/-- A word of an accumulator buffer; an unlisted one is +0. -/
def Mx.acc (x : Mx) (buf i : Nat) : Word := Tab.getD 0 i (if buf = 0 then x.buf0 else x.buf1)

/-- A word of an accumulator buffer written. -/
def Mx.putAcc (buf i : Nat) (v : Word) (x : Mx) : Mx :=
  if buf = 0 then { x with buf0 := Tab.setD 0 i v x.buf0 } else { x with buf1 := Tab.setD 0 i v x.buf1 }

/-- Field rules of MX.MUL (R260). -/
def mulOk (r : BitVec 512) : Bool :=
  let mh := recN r 2 1
  decide (recN r 1 1 < 4) && decide (mh ≤ 5) && decide (2 ≤ recN r 3 1 ∧ recN r 3 1 ≤ 8) &&
    decide (2 ≤ recN r 4 1 ∧ recN r 4 1 ≤ 8) && recZero r 5 1 && decide (tileM mh * recN r 6 2 ≤ 4096) &&
    decide (recN r 8 2 * recN r 6 2 ≤ 4096) && decide (1 ≤ recN r 8 2 ∧ recN r 8 2 ≤ foldF mh) && recZero r 10 2 &&
    recZero r 15 1 && recZero r 19 1 && recZero r 20 44

/-- Bytes of a row of MX.DRAIN or MX.LOADC (R262). -/
def rowBytes (r : BitVec 512) : Nat := (if recN r 3 1 = 0 then 4 else 2) * recN r 8 2

/-- Field rules of MX.DRAIN and MX.LOADC (R262). -/
def drainOk (r : BitVec 512) : Bool :=
  let mh := recN r 2 1
  decide (recN r 1 1 < 2) && decide (mh ≤ 5) &&
    (recN r 3 1 == 0 || (recN r 3 1 == 1 && recOp r == 0x22 && recN r 8 2 % 2 == 0)) &&
    decide (1 ≤ recN r 4 2 ∧ recN r 4 2 ≤ tileM mh) && recZero r 6 2 &&
    decide (1 ≤ recN r 8 2 ∧ recN r 8 2 ≤ foldF mh) && recZero r 10 2 && mul4 (recN r 12 4) &&
    decide (rowBytes r ≤ recN r 12 4) && mul4 (recN r 16 4) && recZero r 20 44

/-- Field rules of a matrix record (R259 to R263). -/
def matrixFieldsOk (r : BitVec 512) : Bool :=
  match recOp r with
  | 0x20 => decide (recN r 1 1 < 16) && recZero r 2 62
  | 0x21 => mulOk r
  | 0x24 => recZero r 1 3 && recN r 4 4 % 16 == 0 && recZero r 8 56
  | _ => drainOk r

/-- The end of the scratchpad range a record names (R262, R263). -/
def rangeEnd (r : BitVec 512) : Nat :=
  match recOp r with
  | 0x24 => recN r 4 4 + 16
  | 0x20 => 0
  | 0x21 => 0
  | _ => recN r 16 4 + (recN r 4 2 - 1) * recN r 12 4 + rowBytes r

/-- The team addresses of the aligned words that MX.DRAIN writes or MX.LOADC reads (R262). -/
def drainWords (r : BitVec 512) : List Nat :=
  (List.range (recN r 4 2)).flatMap fun i =>
    (List.range ((rowBytes r + 3) / 4)).map fun j => recN r 16 4 + i * recN r 12 4 + 4 * j

/-- A record's PERMISSION check (R103, R258): the barrier object on a plain page; a drained line that cannot be owned. -/
def matrixPermBad (s : State) (p : Nat) (tm : Team) (r : BitVec 512) : Bool :=
  match recOp r with
  | 0x24 => (tm.page (recN r 4 4)).bound.isSome
  | 0x22 => (drainWords r).any fun t => (s.checkStash p tm t).isSome
  | _ => false

/-- The checks of a record at the head of the FIFO, in order (R258). -/
def matrixReject (s : State) (core : Nat) (p : Nat) (tm : Team) (x : Cmd) : Option Nat :=
  let r := x.record
  if (s.core core).mx.holder ≠ some x.team then some 7
  else if recOp r < 0x20 ∨ 0x24 < recOp r then some 1
  else if !matrixFieldsOk r then some 2
  else if tm.window < rangeEnd r then some 5
  else if matrixPermBad s p tm r then some 4
  else none

/-- The engine changed. -/
def State.setMx (core : Nat) (g : Mx → Mx) (s : State) : State := s.setCore core fun c => { c with mx := g c.mx }

/-- The head command ends with a fault (R258, R261). -/
def State.matrixFault (core : Nat) (x : Cmd) (code sub : Nat) (s : State) : State :=
  (s.setMx core Mx.advance).engineFault x.wave x.team ⟨code, sub, 2, 0⟩

/-- What the tile check of MX.MUL finds (R261). -/
inductive TileCheck
  | waits
  | fails
  | passes
deriving DecidableEq, Repr

/-- Whether the first entry of a data FIFO has a sequence number; none while the FIFO is empty. -/
def headIs (seq : Nat) (es : List DataEntry) : Option Bool := es.head?.map fun e => e.seq == seq

/-- Whether the first n scales carry the sequence numbers of the first n data entries. -/
def tagsMatch (n : Nat) (es : List DataEntry) (sc : List ScaleEntry) : Bool :=
  (List.range n).all fun k => (es[k]?).map (·.seq) == (sc[k]?).map (·.tag)

/-- The tile check of MX.MUL (R261), in its order. -/
def tileCheck (x : Mx) (r : BitVec 512) : TileCheck :=
  let kb := recN r 6 2
  let nx := tileM (recN r 2 1) * kb
  let nw := recN r 8 2 * kb
  let int := (recN r 1 1).testBit 1
  match headIs (recN r 12 3) x.xData with
  | none => .waits
  | some false => .fails
  | some true =>
    match headIs (recN r 16 3) x.wData with
    | none => .waits
    | some false => .fails
    | some true =>
      if x.xData.length < nx ∨ x.wData.length < nw then .waits
      else if (x.xData.take nx).any (fun e => e.m != recN r 3 1) || (x.wData.take nw).any (fun e => e.m != recN r 4 1) then
        .fails
      else if int then .passes
      else if x.xScale.length < nx ∨ x.wScale.length < nw then .waits
      else if tagsMatch nx x.xData x.xScale && tagsMatch nw x.wData x.wScale then .passes
      else .fails

/-- The exact sum of a pair of blocks (R78, R260). -/
def blockDot (a b : DataEntry) : Int :=
  (List.range 32).foldl (fun z p => z + blockCode a.m a.bits p * blockCode b.m b.bits p) 0

/-- An empty data entry and scale, for indexes that the tile check rules out. -/
def noEntry : DataEntry := ⟨2, 0, 0⟩

/-- One element of an MX.MUL (R260): the blocks of its row and column in ascending order. -/
def mulElement (x : MxTile) (r : BitVec 512) (i j : Nat) (a : Word) : Word :=
  let kb := recN r 6 2
  (List.range kb).foldl (fun a b =>
    let xe := x.xData.getD (i * kb + b) noEntry
    let we := x.wData.getD (j * kb + b) noEntry
    let z := blockDot xe we
    if (recN r 1 1).testBit 1 then a + BitVec.ofInt 32 z
    else
      let xs := ((x.xScale.getD (i * kb + b) ⟨0, 0⟩).scale.toNat : Int) - 127 - (recN r 3 1 - 1 : Nat)
      let ws := ((x.wScale.getD (j * kb + b) ⟨0, 0⟩).scale.toNat : Int) - 127 - (recN r 4 1 - 1 : Nat)
      BitVec.ofNat 32 (scaledAcc a.toNat z (xs + ws))) a

/-- The entries an MX.MUL takes out of the FIFOs (R257). -/
def Mx.tileOf (r : BitVec 512) (x : Mx) : MxTile :=
  let nx := tileM (recN r 2 1) * recN r 6 2
  let nw := recN r 8 2 * recN r 6 2
  let int := (recN r 1 1).testBit 1
  ⟨x.xData.take nx, x.wData.take nw, if int then [] else x.xScale.take nx, if int then [] else x.wScale.take nw⟩

/-- The engine with the tile of an MX.MUL popped (R257): the command is in progress (R265). -/
def Mx.popTile (r : BitVec 512) (x : Mx) : Mx :=
  let t := x.tileOf r
  { x with xData := x.xData.drop t.xData.length, wData := x.wData.drop t.wData.length,
           xScale := x.xScale.drop t.xScale.length, wScale := x.wScale.drop t.wScale.length, tile := some t }

/-- The accumulators after an MX.MUL of a tile (R260). -/
def Mx.mulTile (r : BitVec 512) (t : MxTile) (x : Mx) : Mx :=
  let f := foldF (recN r 2 1)
  let buf := recN r 1 1 % 2
  let es := (List.range (tileM (recN r 2 1))).flatMap fun i => (List.range (recN r 8 2)).map fun j => (i, j)
  es.foldl (fun y e => y.putAcc buf (e.1 * f + e.2) (mulElement t r e.1 e.2 (x.acc buf (e.1 * f + e.2)))) x

/-- An MX.MUL whose tile has passed its check (R260): the tile popped and multiplied. -/
def Mx.mul (r : BitVec 512) (x : Mx) : Mx := (x.popTile r).mulTile r (x.tileOf r)

/-- MX.ZERO (R259). -/
def Mx.zero (r : BitVec 512) (x : Mx) : Mx :=
  let fl := recN r 1 1
  let x := if fl.testBit 1 then x else if fl % 2 = 0 then { x with buf0 := [] } else { x with buf1 := [] }
  let x := if fl.testBit 2 then { x with xData := [], xScale := [] } else x
  if fl.testBit 3 then { x with wData := [], wScale := [] } else x

/-- The 4 bytes that MX.DRAIN writes at word j of row i (R262). -/
def drainWord (x : Mx) (r : BitVec 512) (i j : Nat) : Nat :=
  let f := foldF (recN r 2 1)
  let buf := recN r 1 1 % 2
  let a := fun k => (x.acc buf (i * f + k)).toNat
  let h := fun k => bf16.enc 0 0 (f32.dec (a k))
  if recN r 3 1 = 0 then a j else h (2 * j) + h (2 * j + 1) * 2 ^ 16

/-- The scratchpad after an MX.DRAIN (R262): its accesses pin the pages (R102). DESIGN CHOICE: all its words are written in
one turn, which no wave's access divides; R264 and R80 order them word by word only. Log entry 106. -/
def State.drain (who : Who) (x : Mx) (r : BitVec 512) (s : State) : State :=
  (List.range (recN r 4 2)).foldl (fun s i =>
    (List.range (rowBytes r / 4)).foldl (fun s j =>
      s.storeLoose (engineKey who.core, 0xFFFFFFFF) who (apertureOf (recN r 16 4 + i * recN r 12 4 + 4 * j)) 4 (drainWord x r i j)) s) s

/-- The accumulators after an MX.LOADC (R262): each word as the engine has read it already, or as it stands now (R80, R110). -/
def State.loadc (who : Who) (core : Nat) (r : BitVec 512) (s : State) : State :=
  let f := foldF (recN r 2 1)
  (List.range (recN r 4 2)).foldl (fun s i =>
    (List.range (recN r 8 2)).foldl (fun s j =>
      let v := match Tab.find (i * recN r 8 2 + j) (s.core core).mx.ahead with
        | some w => (w.toNat, s)
        | none => s.load who (apertureOf (recN r 16 4 + i * recN r 12 4 + 4 * j)) 4
      v.2.setMx core (·.putAcc (recN r 1 1 % 2) (i * f + j) (BitVec.ofNat 32 v.1))) s) s

/-- The word at a place of an MX.LOADC read ahead of the others (R383). -/
def State.loadcAhead (who : Who) (core i : Nat) (r : BitVec 512) (s : State) : State :=
  if decide (recN r 4 2 * recN r 8 2 ≤ i) || (Tab.find i (s.core core).mx.ahead).isSome then s
  else
    let v := s.load who (apertureOf (recN r 16 4 + i / recN r 8 2 * recN r 12 4 + 4 * (i % recN r 8 2))) 4
    v.2.setMx core fun m => { m with ahead := Tab.put i (BitVec.ofNat 32 v.1) m.ahead }

/-- The head command's effect, once it has passed its checks; a command that cannot go on yet leaves the engine as it
is. -/
def matrixAct (core : Nat) (who : Who) (x : Cmd) (s : State) : State :=
  let r := x.record
  let m := (s.core core).mx
  match recOp r with
  | 0x20 => s.setMx core fun m => (m.zero r).advance
  | 0x21 =>
    match m.tile with
    | some t => s.setMx core fun m => (m.mulTile r t).advance
    | none =>
      if recN r 6 2 = 0 then s.setMx core Mx.advance
      else
        match tileCheck m r with
        | .waits => s
        | .fails => s.matrixFault core x 0x09 0
        | .passes => s.setMx core fun m => (m.mul r).advance
  | 0x22 => (s.drain who m r).setMx core Mx.advance
  | 0x23 => (s.loadc who core r).setMx core Mx.advance
  | _ =>
    let t := recN r 4 4
    let s := ((s.release (clusterOf core) 1).firm (engineKey core) 0xFFFFFFFF).pin x.team t
    if (s.bar x.team t).holds then (s.arrive core x.team t .matrix).setMx core fun m => { m with headHeld := true }
    else s.arrive core x.team t .matrix

/-- The team addresses that a record's command accesses, whose pages it pins (R102). -/
def recordAddrs (r : BitVec 512) : List Nat :=
  match recOp r with
  | 0x24 => [recN r 4 4]
  | 0x22 => drainWords r
  | 0x23 => drainWords r
  | _ => []

/-- A step of the engine on its head record, if it has the opcode given, or belongs to no matrix record and is rejected; no
command of a parked team is taken, but one in progress is finished (R220, R265); a command whose pages cannot be pinned yet waits
(R102). -/
def matrixTurn (op core : Nat) (g : Who → Cmd → State → State) (s : State) : State :=
  match (s.core core).mx.fifo with
  | [] => s
  | x :: _ =>
    match Tab.find x.team s.teams with
    | none => s.setMx core Mx.advance
    | some tm =>
      let p := s.teamPart tm
      let mine := recOp x.record == op || decide (recOp x.record < 0x20 ∨ 0x24 < recOp x.record)
      if !mine || (tm.parked && (s.core core).mx.tile.isNone) || (s.part p).faulting || (s.core core).mx.headHeld then s
      else
        match matrixReject s core p tm x with
        | some sub => s.matrixFault core x 0x21 sub
        | none =>
          if (recOp x.record == 0x22 || recOp x.record == 0x23) && (drainWords x.record).any fun t =>
              s.breaks p tm ⟨0, apertureOf t, 4, 4, recOp x.record == 0x23, recOp x.record == 0x22⟩ then s.foundFault p
          else if !s.canPin x.team (recordAddrs x.record) then s
          else g { part := p, core := core, team := x.team, me := some (engineKey core, 0xFFFFFFFF) } x s

/-- MX_ZERO (R259). -/
def execMxZero (core : Nat) (s : State) : Out := .next (matrixTurn 0x20 core (matrixAct core) s)

/-- MX_MUL (R260): once its tile passes the check of R261. -/
def execMxMul (core : Nat) (s : State) : Out := .next (matrixTurn 0x21 core (matrixAct core) s)

/-- MX_MUL_TILE_CHECK (R261): the head's tile is checked; a mismatch ends the command, a pass pops the tile, and the command is in
progress (R265). -/
def execMxMulTileCheck (core : Nat) (s : State) : Out :=
  .next (matrixTurn 0x21 core (fun _ x s =>
    if recN x.record 6 2 = 0 || (s.core core).mx.tile.isSome then s
    else
      match tileCheck (s.core core).mx x.record with
      | .waits => s
      | .fails => s.matrixFault core x 0x09 0
      | .passes => s.setMx core (·.popTile x.record)) s)

/-- MX_DRAIN (R262). -/
def execMxDrain (core : Nat) (s : State) : Out := .next (matrixTurn 0x22 core (matrixAct core) s)

/-- MX_LOADC (R262). -/
def execMxLoadc (core : Nat) (s : State) : Out := .next (matrixTurn 0x23 core (matrixAct core) s)

/-- The MX.LOADC at the head of a core's FIFO, once it has passed its checks, reads the word at a place among its words ahead
of its run (R262, R383). -/
def loadAheadTurn (core i : Nat) (s : State) : State :=
  matrixTurn 0x23 core (fun who x s => if recOp x.record = 0x23 then s.loadcAhead who core i x.record else s) s

/-- MX_ARRIVE (R263). -/
def execMxArrive (core : Nat) (s : State) : Out := .next (matrixTurn 0x24 core (matrixAct core) s)

end Sys2Proof.Machine
end

