-- ==== Sys2Proof/Machine/Cutter.lean ====
section
/-! DEFINITION. The cutter and the life of a launch (R12 to R15, R221, R290 to R307, R367): LAUNCH and CUTQ, acceptance,
dispatch with what it claims, retirement, evaluation of windows, completion. -/

namespace Sys2Proof.Machine

open Sys2Proof

/-! ### LAUNCH and CUTQ -/

/-- The 32 bytes of a lane's launch record (R306). -/
def launchRec (w : Wave) (a l : Nat) : BitVec 512 :=
  BitVec.ofNat 512 ((List.range 8).foldl (fun v j => v + (w.reg (a + j) l).toNat * 2 ^ (32 * j)) 0)

/-- The child that a launch record describes (R306). -/
def childOf (p : Nat) (id : Word) (index : Nat) (r : BitVec 512) : Launch :=
  let w := if recZero r 30 2 then .launch (recN r 0 8) (recN r 8 4) (recN r 12 4) (recN r 16 4) else .bad
  { Launch.fresh p id none index w with sig := recN r 20 8, acq := recN r 28 1, rel := recN r 29 1 }

/-- The children of a partition that have not completed: entries of its device-launch pool (R306, R355). Log entry 11. -/
def State.childrenOf (s : State) (p : Nat) : Nat := (s.launches.filter fun e => e.2.queue.isNone && e.2.part == p).length

/-- Whether a LAUNCH finds an entry of the device-launch pool (R306, R355, R356). -/
def State.childRoom (s : State) (p : Nat) : Bool := !s.affected p && decide (0 < s.poolFree 6 p s.childrenOf)

/-- Whether a LAUNCH of a partition that issued before the one with a ticket still waits (R306), one that a step on a halted team
has issued among them (R228); none that a halt has stopped, which will issue anew. Log entry 102. -/
def State.launchBefore (s : State) (p ticket : Nat) : Bool :=
  s.waves.any fun e => s.partOf e.2 == p && !e.2.spilt &&
    e.2.frags.zipIdx.any fun x =>
      x.1.launchLane.isSome && x.1.wait == .retry && decide (x.1.ticket < ticket) && s.letsFrag e.2 x.2

/-- The ticket of a LAUNCH that has waited since it issued, if it has (R306). -/
def Ctx.launchTicket (c : Ctx) : Option Nat := if c.fr.launchLane.isSome && c.fr.wait == .retry then some c.fr.ticket else none

/-- A LAUNCH that waits with the lane to go on with, and its ticket, which it takes as it issues (R306). -/
def launchWait (c : Ctx) (l : Nat) (s : State) : Act :=
  let p := s.partOf c.w
  let t := c.launchTicket.getD (s.part p).tickets
  let s := if c.launchTicket.isSome then s else s.setPart p fun x => { x with tickets := x.tickets + 1 }
  .wait .retry (s.setFrag c.k c.i fun f => { f with launchLane := some l, ticket := t })

/-- The lanes of a LAUNCH launched in order (R306): the lane that finds no entry waits, its number kept as the progress. -/
def launchLanes (c : Ctx) : List Nat → State → Act
  | [], s => .next s
  | l :: r, s =>
    let s := c.release 4 s
    let p := s.partOf c.w
    if s.childRoom p then
      let id := s.nextId
      let ms := if c.f.u then c.lanes else [l]
      let s := s.addLaunch (childOf p id s.nextLaunch (launchRec c.w c.f.a.toNat l))
      launchLanes c r (s.writeRegs c (ms.map fun m => (c.f.d.toNat, m, id)))
    else launchWait c l s

/-- The body of LAUNCH (R306): behind every LAUNCH of the partition that issued before it. -/
def launchBody (c : Ctx) (s : State) : Act :=
  let ls := c.actors.filter fun l => decide (c.fr.launchLane.getD 0 ≤ l)
  let p := s.partOf c.w
  match ls with
  | [] => .next s
  | l :: _ =>
    if s.launchBefore p (c.launchTicket.getD (s.part p).tickets) then launchWait c l s
    else launchLanes c ls s

/-- The summary word of a launch's game record (R307). -/
def cutqValue (la : Launch) (sel : Nat) : Nat :=
  match sel, la.cut with
  | 0, some c => c.order * 2 ^ 27 + (c.shape.2.2 - 1) * 2 ^ 18 + (c.shape.2.1 - 1) * 2 ^ 9 + (c.shape.1 - 1)
  | 1, _ => la.recuts
  | 2, _ => la.dispatched
  | 3, _ => la.retired
  | 4, _ => la.fw
  | 5, some c => c.regions.length * 2 ^ 8 + la.lastCase
  | _, _ => 0

/-- The body of CUTQ (R307). -/
def cutqBody (c : Ctx) (s : State) : Act :=
  match s.launchOf c.w with
  | none => .next s
  | some la => .next (s.writeRegs c (c.lanes.flatMap fun l => wrVal 1 c.f.d.toNat l (cutqValue la c.uimm)))

/-! ### Acceptance (R12 stage 2) -/

/-- The descriptor of a launch read and validated, and the launch handed to the cutters, or on to stage 5 (R14, R290 to R292). -/
def State.acceptDesc (l p desc : Nat) (sp : Shape) (s : State) : State :=
  if desc % 128 ≠ 0 || !s.usable p (addr desc) true false then s.failLaunch l 0x30
  else if s.packetBreaks p (addr desc) true then s.foundFault p
  else
    let x := s.packetRead p (addr desc) 128
    let s := x.2
    let e := descOf x.1
    if !descOk x.1 || !spaceOk e sp then s.failLaunch l 0x30
    else
      let cut := firstCut e sp (s.partDies p).length
      s.setLaunch l fun x => { x with
        desc := e, space := sp, stage := if items sp = 0 then 5 else 3,
        cut := if items sp = 0 then none else some (if e.cores then { cut with runs := [] } else cut) }

/-- The checks of a child's record (R306, R377). -/
def childBad (s : State) (la : Launch) (sig : Bool) : Bool :=
  la.work == .bad || decide (5 < la.acq) || decide (5 < la.rel) || (la.sig != 0 && !sig) || !s.feature 8

/-- LAUNCH_ACCEPTANCE (R12, R306, R366): the launch or child is taken at stage 2. -/
def execLaunchAcceptance (id : Nat) (s : State) : Out :=
  match Tab.find id s.launches with
  | none => .next s
  | some la =>
    if la.stage ≠ 2 || s.affected la.part || (s.part la.part).faulting then .next s
    else
      match la.queue, la.work with
      | some _, .launch d ex ey ez =>
        let t := s.stage2 id 2
        .next (if ((Tab.find id t.launches).map (·.stage)) = some 2 then t.acceptDesc id la.part d (ex, ey, ez) else t)
      | some _, _ => .next s
      | none, w =>
        let sig := la.sig % 8 == 0 && s.usable la.part (addr la.sig) true true
        let t := s.setLaunch id fun x => { x with sigOk := la.sig != 0 && sig }
        .next (if childBad s la sig then t.failLaunch id 0x30
          else match w with
            | .launch d ex ey ez => t.acceptDesc id la.part d (ex, ey, ez)
            | _ => t.failLaunch id 0x30)

/-! ### Dispatch (R11, R221, R235, R252) -/

/-- Whether the wave of a slot can be spilt for a claim (R129, R221). -/
def State.slotClaimable (s : State) (slot : Nat) : Bool := s.resident.any fun e => slotOf e.1 == slot && s.claimable e.2

/-- The slot a wave takes in a quadrant of a core (R11): the lowest free one, else the lowest that can be claimed. Log entry
12. -/
def State.pickSlot (s : State) (core q : Nat) (taken : List Nat) : Option Nat :=
  let ss := ((List.range Config.slotsPerQuad).map fun i => Config.slotsPerCore * core + Config.slotsPerQuad * q + i).filter
    fun x => !taken.contains x
  match ss.find? s.slotFree with
  | some x => some x
  | none => ss.find? s.slotClaimable

/-- The slots of a team of n waves (R11). -/
def State.pickSlots (s : State) (core n : Nat) : Option (List Nat) :=
  (List.range n).foldl (fun acc w =>
    match acc with
    | none => none
    | some ss => (s.pickSlot core (w % 4) ss).map fun x => ss ++ [x]) (some [])

/-- Whether a core's matrix engine is free for a team, or can be claimed from a parked one once no command is in progress
(R220, R221, R252, R265). -/
def State.engineFree (s : State) (core : Nat) : Bool :=
  let m := (s.core core).mx
  match m.holder with
  | none => true
  | some h => ((Tab.find h s.teams).map (·.parked)).getD false && m.tile.isNone

/-- Whether a core's queues can reserve the quotas of n waves (R235). -/
def State.quotaRoom (s : State) (p core n : Nat) (e : Desc) : Bool :=
  match e.quotas with
  | none => true
  | some qs => (List.range 4).all fun q =>
      decide (n * qs.getD q 0 ≤ s.poolFree (q + 1) p (onlyUse p (s.queueUse core q)))

/-- The window of a group of n items, in whole pages (R101). -/
def Desc.pages (e : Desc) (n : Nat) : Nat := (e.fixed + e.perItem * n + 4095) / 4096

/-- What a dispatch takes: a slot for each wave, and pages of others to unpin. -/
structure Plan where
  slots : List Nat
  pages : List (Nat × Nat)
deriving DecidableEq, Repr

/-- How a core can take a group of n items, if it can (R11, R235, R252). -/
def State.plan (s : State) (la : Launch) (core n : Nat) : Option Plan :=
  match s.pickSlots core (wavesOf n) with
  | none => none
  | some ss =>
    let lack := s.pinnedOn core + la.desc.pages n - Config.scratchPages
    let ps := (s.claimPages core).take lack
    if ps.length < lack || (la.desc.mxuse && !s.engineFree core) || !s.quotaRoom la.part core (wavesOf n) la.desc then none
    else some ⟨ss, ps⟩

/-- A team as the holder of its core's engine (R252, R253): all that the engine held for a parked team is spilt, the remaining
records of the FIFO with it (R265). -/
def Core.takeEngine (t : Nat) (c : Core) : Core :=
  match c.mx.holder with
  | none => { c with mx := Mx.fresh (some t) }
  | some h => { c with mxSpilt := Tab.put h c.mx c.mxSpilt, mx := Mx.fresh (some t) }

/-- A team becomes the holder of its core's engine: the records that stand in the FIFO of an engine with no holder are
rejected first (R252). -/
def State.takeEngine (core t : Nat) (s : State) : State :=
  let s := if (s.core core).mx.holder.isSome then s else (s.core core).mx.fifo.foldl (fun s x => s.matrixFault core x 0x21 7) s
  s.setCore core (·.takeEngine t)

/-- A key for the wave of a slot: one that no wave has. -/
def State.waveKey (s : State) (slot : Nat) : Nat :=
  12288 * ((List.range (s.waves.length + 1)).find? fun n => (Tab.find (12288 * n + slot) s.waves).isNone).getD 0 + slot

/-- The lanes of wave w of a team of n items (R10). -/
def itemLanes (n w : Nat) : Word := maskOf ((List.range 32).filter fun l => decide (32 * w + l < n))

/-- A wave at dispatch (R10, R131 to R137). -/
def Wave.first (team num : Nat) (pc : Dword) (m : Word) : Wave :=
  { team := team, num := num, frags := [freshFrag m pc 0 false], live := m, regs := [], ext := false, scales := [], binds := [],
    mode := 0, arrivals := [], kin := [], late := 0, sealed := 0, entries := 0, outstanding := 0, parked := none, handlerFlag := false,
    trap := TrapRegs.zero, tretLanes := 0, hostResp := 0, scratch := (0, 0, 0, 0), faults := [], landing := Landing.zero,
    evictable := false, spilt := false }

/-- A team at dispatch (R7 to R11, R22, R101). -/
def Team.first (l num core : Nat) (at0 : Nat × Nat × Nat) (origin shape : Shape) (window now : Nat) : Team :=
  { launch := l, num := num, core := core, place := at0, origin := origin, shape := shape, waves := [], window := window,
    scratch := [], gone := [],
    pages := [], holds := [], halt := none, parked := false, dead := false, faulted := [], step := none, minority := [],
    foot := [], l2 := 0, startedAt := now }

/-- The numbers of a core, its cluster and its die in a partition (R22). -/
def State.placeOf (s : State) (p core : Nat) : Nat × Nat × Nat :=
  (s.coreNum p core, s.clusterNum p (clusterOf core), s.dieNum p (clusterOf core / Config.clustersPerDie))

/-- The waves of a team entered in their slots. -/
def State.addWaves (t : Nat) (pc : Dword) (n : Nat) (slots : List Nat) (s : State) : State :=
  slots.zipIdx.foldl (fun s x =>
    let k := s.waveKey x.1
    { s.setTeam t fun tm => { tm with waves := tm.waves ++ [k] } with
      waves := Tab.put k (Wave.first t x.2 pc (itemLanes n x.2)) s.waves }) s

/-- The group at a position dispatched as a team to a core, by a plan (R302): what it claims is spilt first (R221). -/
def State.place (l : Nat) (la : Launch) (c : Cut) (pos : Nat) (g : Shape × Shape) (core : Nat) (pl : Plan) (s : State) :
    State :=
  let n := items g.2
  let t := s.nextTeam
  let s := pl.pages.foldl (fun s x => s.unpin x) (pl.slots.foldl (fun s x => s.spillSlot x) s)
  let s := if la.desc.mxuse then s.takeEngine core t else s
  let tm := Team.first l (c.base + pos) core (s.placeOf la.part core) g.1 g.2 (4096 * la.desc.pages n) (s.core core).clock.toNat
  let s := State.addWaves t la.desc.entry n pl.slots { s with teams := Tab.put t tm s.teams, nextTeam := t + 1 }
  s.setLaunch l fun x => { x with
    dispatched := x.dispatched + 1
    cut := x.cut.map fun c => { c with sent := max c.sent (pos + 1) } }

/-- Whether the cutter may dispatch groups of a launch now (R212, R220). -/
def Launch.cutting (la : Launch) : Bool := la.stage == 3 && !la.stopped && !la.parked

/-- Whether a core takes groups of a partition (R23, R356): it is the partition's, and stays its own. -/
def State.takes (s : State) (p core : Nat) : Bool :=
  decide (core < 256) && s.layout.getD (clusterOf core) 255 == p && !(s.part p).faulting &&
    match s.repart with
    | none => true
    | some r => r.new.getD (clusterOf core) 255 == p

/-- TEAM_DISPATCH (R302): a core of a die pops the head group of the die's combining queue; none while a window waits for its
evaluation (R298). -/
def execTeamDispatch (id die core : Nat) (s : State) : Out :=
  match Tab.find id s.launches with
  | none => .next s
  | some la =>
    match la.cut with
    | none => .next s
    | some c =>
      if !la.cutting || la.desc.cores || (c.ripe la.desc).isSome || !s.takes la.part core ||
          s.dieNum la.part (clusterOf core / Config.clustersPerDie) != die then .next s
      else
        let runs := takeRun (s.partDies la.part).length die c.runs
        let r := Tab.getD (0, 0) die runs
        if r.2 ≤ r.1 ∨ c.limit la.desc ≤ r.1 then .next s
        else
          match groupAt c.shape c.order c.regions r.1 with
          | none => .next s
          | some g =>
            match s.plan la core (items g.2) with
            | none => .next s
            | some pl =>
              let s := s.place id la c r.1 g core pl
              let runs := Tab.put die (r.1 + 1, r.2) runs
              let s := s.setLaunch id fun x => { x with cut := x.cut.map fun c => { c with runs := runs } }
              .next (s.settleLaunch id)

/-- The teams of a group size that an empty core holds (R11, R235, R252), but for queue 3. -/
def Desc.perCore (e : Desc) (n : Nat) (limit : Nat → Nat) : Nat :=
  let w := wavesOf n
  let bySlots := Config.slotsPerQuad / ((w + 3) / 4)
  let byPages := if e.pages n = 0 then bySlots else Config.scratchPages / e.pages n
  let byQuota := (List.range 3).foldl (fun m q =>
    match e.quotas with
    | none => m
    | some qs => if w * qs.getD q 0 = 0 then m else min m (limit q / (w * qs.getD q 0))) bySlots
  let m := min (min bySlots byPages) byQuota
  if e.mxuse then min m 1 else m

/-- The teams of a group size that an empty partition holds (R304). -/
def State.capacity (s : State) (p n : Nat) (e : Desc) : Nat :=
  let limit := fun q => s.poolFree (q + 1) p fun _ => 0
  let core := e.perCore n limit
  let cluster := match e.quotas with
    | none => Config.coresPerCluster * core
    | some qs =>
      let q3 := wavesOf n * qs.getD 3 0
      if q3 = 0 then Config.coresPerCluster * core else min (Config.coresPerCluster * core) (limit 3 / q3)
  (s.partClusters p).length * cluster

/-- Every group of a co-resident launch placed in turn on the cores given (R304); none where one of them does not fit. -/
def State.placeAll (l : Nat) (la : Launch) (c : Cut) : List (Nat × Nat) → State → Option State
  | [], s => some s
  | (core, pos) :: r, s =>
    match groupAt c.shape c.order c.regions pos with
    | none => none
    | some g =>
      if !s.takes la.part core then none
      else
        match s.plan la core (items g.2) with
        | none => none
        | some pl => State.placeAll l la c r (s.place l la c pos g core pl)

/-- A choice of cores for the groups of a co-resident launch, in cut order: groups go to a core as long as it can take them, then
to the next of the list (R304 leaves the choice open). Log entry 47. -/
def State.spread (s : State) (l : Nat) (la : Launch) (c : Cut) (n : Nat) : List Nat → List Nat → List Nat
  | [], done => done
  | core :: r, done =>
    let x := (List.range n).foldl (fun (x : State × List Nat × Bool) _ =>
      let pos := x.2.1.length
      if x.2.2 || decide (n ≤ pos) || !x.1.takes la.part core then x
      else
        match groupAt c.shape c.order c.regions pos with
        | none => (x.1, x.2.1, true)
        | some g =>
          match x.1.plan la core (items g.2) with
          | none => (x.1, x.2.1, true)
          | some pl => (x.1.place l la c pos g core pl, x.2.1 ++ [core], false)) (s, done, false)
    State.spread x.1 l la c n r x.2.1

/-- CORESIDENT_PLACEMENT (R304): every group at once on the cores given, in cut order; NO_FIT where the empty partition could not
hold them. -/
def execCoresidentPlacement (id : Nat) (cores : List Nat) (s : State) : Out :=
  match Tab.find id s.launches with
  | none => .next s
  | some la =>
    match la.cut with
    | none => .next s
    | some c =>
      if !la.cutting || !la.desc.cores || 0 < la.dispatched then .next s
      else if s.capacity la.part (items c.shape) la.desc < c.groups then .next (s.failLaunch id 0x31)
      else if cores.length ≠ c.groups then .next s
      else
        match State.placeAll id la c cores.zipIdx s with
        | none => .next s
        | some t => .next (t.settleLaunch id)

/-! ### Retirement (R13) -/

/-- Whether nothing of a team is left running: every wave has exited, or the team is stopped for good (R212), and every command
it pushed has ended (R13). -/
def State.canRetire (s : State) (t : Nat) (tm : Team) : Bool :=
  (tm.dead || s.waves.all fun e => e.2.team != t) &&
    (List.range 4).all fun q => (s.entriesOf tm.core q).all fun e => e.2 != t

/-- What a finished group adds to the game record (R297). -/
def State.groupRec (s : State) (tm : Team) : GroupRec :=
  { num := tm.num, origin := tm.origin, shape := tm.shape, minority := tm.minority,
    foot := 128 * tm.foot.length / items tm.shape, l2 := tm.l2,
    cycles := (s.core tm.core).clock.toNat - tm.startedAt }

/-- A finished group entered into its launch's game record, and, if its cut is the current one, among the groups to evaluate
(R297, R298, R311). -/
def Launch.finish (g : GroupRec) (la : Launch) : Launch :=
  { la with
    games := la.games ++ [g]
    retired := la.retired + 1
    cut := la.cut.map fun c =>
      if c.base ≤ g.num && !la.desc.pin && !c.closed then { c with finished := c.finished ++ [g] } else c }

/-- A core after a team has retired: its engine is free again, with nothing left (R253) but the records of teams that did not
hold it, to be rejected (R252). -/
def Core.release (t : Nat) (c : Core) : Core :=
  let left := (((Tab.find t c.mxSpilt).map (·.fifo)).getD []).filter fun x => x.team != t
  let c := { c with mxSpilt := Tab.del t c.mxSpilt, mx := { c.mx with fifo := c.mx.fifo ++ left } }
  if c.mx.holder = some t then { c with mx := { Mx.fresh none with fifo := c.mx.fifo.filter fun x => x.team != t } } else c

/-- The pages of a team written back (R13, R103). -/
def State.writeBackTeam (t : Nat) (tm : Team) (s : State) : State :=
  tm.pages.foldl (fun s e => s.writeBackPage t e.1) s

/-- The waves of a team gone, and what they had asked for forgotten. -/
def State.dropWaves (t : Nat) (s : State) : State :=
  let ks := (s.waves.filter fun e => e.2.team == t).map (·.1)
  let s := ks.foldl (fun s k => s.setCore (coreOf k) (·.forget k)) s
  { s with waves := s.waves.filter fun e => e.2.team != t }

/-- TEAM_RETIRE (R13). -/
def execTeamRetire (team : Nat) (s : State) : Out :=
  match Tab.find team s.teams with
  | none => .next s
  | some tm =>
    if !s.canRetire team tm then .next s
    else
      let s := ((s.writeBackTeam team tm).dropWaves team).setCore tm.core (·.release team)
      let g := s.groupRec tm
      let s := State.abandonTiles team { s with teams := Tab.del team s.teams }
      .next ((s.setLaunch tm.launch (·.finish g)).settleLaunch tm.launch)

/-! ### Evaluation (R298 to R300) -/

/-- The launch after the evaluation of a window (R299, R300): the same cut, or a new one over the remainder. -/
def Launch.evaluate (dies : Nat) (c : Cut) (gs rest : List GroupRec) (la : Launch) : Launch :=
  let rem := c.remainder
  let la := { la with fw := windowFoot gs, lastCase := if 16 < rem.length then 5 else windowCase gs }
  let go := { c with finished := rest, windowAt := c.windowAt + la.desc.window }
  if 16 < rem.length then { la with cut := some go }
  else if rem.isEmpty then { la with cut := some { go with closed := true } }
  else
    let x := chooseNext la.desc rem gs c.shape c.order
    if x = (c.shape, c.order) then { la with cut := some go }
    else { la with cut := some (Cut.start rem x.1 x.2 (c.base + c.sent) dies), recuts := la.recuts + 1 }

/-- WINDOW_EVALUATION (R298 to R300). -/
def execWindowEvaluation (id : Nat) (s : State) : Out :=
  match Tab.find id s.launches with
  | none => .next s
  | some la =>
    match la.cut with
    | none => .next s
    | some c =>
      if la.stage < 3 ∨ 4 < la.stage ∨ la.stopped then .next s
      else
        match c.ripe la.desc with
        | none => .next s
        | some (gs, rest) => .next (s.setLaunch id (·.evaluate (s.partDies la.part).length c gs rest))

/-! ### Completion (R12 stages 5 and 6, R367, R385) -/

/-- A bank that its launch has given up: unowned, slopes and intercepts +0 (R189). -/
def Bank.disown (id : Word) (b : Bank) : Bank := if b.owner = some id then { b with owner := none, slope := [], icept := [] } else b

/-- The banks of a completed launch on a core given up (R189), and its images that are not committed yet dropped (log entry
93). -/
def Core.disown (l : Nat) (id : Word) (c : Core) : Core :=
  { c with bank0 := c.bank0.disown id, bank1 := c.bank1.disown id, banksSpilt := c.banksSpilt.filter fun e => e.1 / 2 != l
           pending := c.pending.filter fun p => p.image.owner != some id }

/-- The release of every party of a launch (R84, R367): the clusters of its partition, whose writes are loose no more. Log
entry 51. -/
def State.releaseAll (p scope : Nat) (s : State) : State :=
  let t := (s.partClusters p).foldl (fun s c => s.release c scope) s
  { t with loose := t.loose.filter fun x => !x.writers.any fun y => (s.partClusters p).contains (clusterOf (coreOf y.1)) }

/-- The new value of a completion signal (R367). -/
def sigAfter (status old : Nat) : Nat :=
  if status = 0 then (old + 2 ^ 64 - 1) % 2 ^ 64 else if old < 2 ^ 63 then 2 ^ 64 - 1 else old

/-- A unit of 8 bytes that the packet processor changes (R366, R367): left out where it has become inaccessible; a partition
fault where a stop blocks it or its line is poisoned (R353, R370). -/
def State.packetUpdate (p : Nat) (a : Dword) (g : Nat → Nat) (s : State) : State :=
  if !s.usable p a true true then s
  else if s.packetBreaks p a true then s.foundFault p
  else
    let x := s.packetRead p a 8
    x.2.packetWrite p a 8 (g x.1)

/-- The status record of a completion (R367): left out where its address has become inaccessible; a partition fault where a
stop blocks it (R353). -/
def State.putStatus (la : Launch) (s : State) : State :=
  let a := addr la.staddr
  let e := la.error.getD (0, 0)
  if !la.staOk || !s.usable la.part a false true then s
  else if s.packetBreaks la.part a false then s.foundFault la.part
  else s.packetWrite la.part a 8 (e.1 + (if e.1 ≤ 0x22 then e.2.toNat else 0) * 2 ^ 32)

/-- The completion of a launch, job or packet at stage 6 (R367): status record, release, a SIGNAL's addition (R366), completion
signal. -/
def State.complete (la : Launch) (s : State) : State :=
  let p := la.part
  let st := (la.error.getD (0, 0)).1
  let s := (s.putStatus la).releaseAll p la.rel
  let s := match la.work with
    | .signal t v => if st = 0 then s.packetUpdate p (addr t) fun n => (n + v.toNat) % 2 ^ 64 else s
    | _ => s
  if la.sigOk then s.packetUpdate p (addr la.sig) (sigAfter st) else s

/-- Whether a launch or packet with everything else done may complete: every peer store acknowledged or lost (R249). -/
def Launch.drained (la : Launch) : Bool := la.stage == 5 && la.peerOut == 0

/-- A launch, job or packet completed (R12 stage 6): it is in flight no more, its job's slot is free (R314) and its banks are
given up (R189); what it leaves is its game record (R311, R313). -/
def State.endLaunch (id : Nat) (la : Launch) (s : State) : State :=
  let s := (s.complete la).freeJob id
  { s with
    launches := Tab.del id s.launches, past := Tab.put id la s.past
    cores := s.cores.map fun e => (e.1, e.2.disown id la.id) }

/-- The game record's lines of the finished groups, in the order of team.id (R311). -/
def Launch.gameLines (la : Launch) : List GroupRec := la.games.mergeSort fun a b => decide (a.num ≤ b.num)

/-- LAUNCH_COMPLETION (R12, R249, R367): stage 5 ends, and stage 6 is performed. -/
def execLaunchCompletion (id : Nat) (s : State) : Out :=
  let s := s.settleLaunch id
  match Tab.find id s.launches with
  | none => .next s
  | some la =>
    if !la.drained then .next s
    else
      .next (s.endLaunch id { la with stage := 6 })

/-- LAUNCH (R306). -/
def execLaunch (f : XF) (s : State) : Out := runWave (.ofX 0x2E0 f) launchBody s

/-- CUTQ (R307). -/
def execCutq (f : XF) (s : State) : Out := runWave (.ofX 0x2E1 f) cutqBody s

end Sys2Proof.Machine
end

