-- ==== Sys2Proof/Machine/Host.lean ====
section
/-! DEFINITION. The host's side (R363 to R371): doorbells, packets, the fault queue's answers, CXL accesses, register writes,
and the mailbox commands that set tables. -/

namespace Sys2Proof.Machine

open Sys2Proof

/-! ### Queue registers (R364) -/

/-- Whether the registers of a partition's function exist (R363, R377): without virtual functions, partition 0's alone, in the
physical function. Log entry 104. -/
def State.hasFunction (s : State) (p : Nat) : Bool := s.feature 2 || p == 0

/-- Whether the registers of a host queue can be written: it is a partition's, whose function exists (R363, R364, R377). -/
def State.reachesQueue (s : State) (q : Nat) : Bool := ((s.queue q).owner.map s.hasFunction).getD false

/-- DOORBELL (R364): a write index out of range is ignored and sets ERR. -/
def execDoorbell (q : Nat) (v : BitVec 64) (s : State) : Out :=
  let h := s.queue q
  if !s.reachesQueue q then .next s
  else if v.toNat < h.rdidx.toNat ∨ h.rdidx.toNat + 2 ^ h.qsize < v.toNat then .next (s.setQueue q fun h => { h with err := true })
  else .next (s.setQueue q fun h => { h with doorbell := v })

/-- QBASE (R364): the ring address, its low six bits as 0, and the queue goes on after an ERR. Log entry 14. -/
def execQbase (q : Nat) (v : BitVec 64) (s : State) : Out :=
  if !s.reachesQueue q then .next s
  else .next (s.setQueue q fun h => { h with qbase := v &&& ~~~63#64, err := false })

/-! ### Packets (R366, R368) -/

/-- LAUNCH_PACKET (R366): the packet leaves stage 1; LAUNCH_ACCEPTANCE takes it at stage 2. -/
def execLaunchPacket (q : Nat) (s : State) : Out :=
  .next (packetTurn 1 q (fun k s => s.leave k (pktWork k.r)) State.leaveBad s)

/-- The values of a list of signals, read in list order. -/
def readSignals (p : Nat) : List Nat → State → List Nat × State
  | [], s => ([], s)
  | a :: r, s =>
    let x := s.packetRead p (addr a) 8
    let q := readSignals p r x.2
    (x.1 :: q.1, q.2)

/-- One evaluation of a BARRIER's wait list (R368). -/
def evaluateBarrier (k : Pkt) (s : State) : State :=
  let ws := pktWaits k.r
  if !(ws.all fun a => s.usable k.p (addr a) true false) then s.leaveFailed k 0x35
  else if ws.any fun a => s.packetBreaks k.p (addr a) true then s.foundFault k.p
  else
    let x := readSignals k.p ws s
    if x.1.any fun v => decide (2 ^ 63 ≤ v) then x.2.leaveFailed k 0x36
    else if x.1.all fun v => v == 0 then (x.2.leave k (pktWork k.r)).stage2 x.2.nextLaunch 5
    else x.2

/-- BARRIER_PACKET (R366, R368): a BARRIER at the head of its queue is evaluated. -/
def execBarrierPacket (q : Nat) (s : State) : Out := .next (packetTurn 2 q evaluateBarrier State.leaveBad s)

/-- BARRIER_EVALUATION (R368): the BARRIER is evaluated again. -/
def execBarrierEvaluation (q : Nat) (s : State) : Out := .next (packetTurn 2 q evaluateBarrier State.leaveBad s)

/-- Words copied in ascending order, until one that cannot be read or written (R366): what is left, and whether it failed. -/
def copyWords (p : Nat) : Nat → Dword → Dword → State → Nat × Bool × State
  | 0, _, _, s => (0, false, s)
  | n + 1, a, b, s =>
    if !(s.usable p a true false && s.usable p b false true) then (n + 1, true, s)
    else if s.packetBreaks p a true || s.packetBreaks p b false then (n + 1, false, s.foundFault p)
    else
      let x := s.packetRead p a 4
      copyWords p n (a + 4) (b + 4) (x.2.packetWrite p b 4 x.1)

/-- The words of the next step of a COPY: those up to the end of the line it writes. Log entry 15. -/
def copyChunk (dst len : Nat) : Nat := min len (128 - dst % 128) / 4

/-- A line written whole is poisoned no more (R370). -/
def State.cleanLine (p dst n : Nat) (s : State) : State :=
  if n = 32 then
    match classify (addr dst) with
    | .global va =>
      match s.translate p va with
      | some (_, pa) => { s with poison := s.poison.filter fun l => l != lineOf pa }
      | none => s
    | _ => s
  else s

/-- One step of a COPY in flight (R366). -/
def copyStep (l : Nat) (s : State) : State :=
  match Tab.find l s.launches with
  | none => s
  | some la =>
    match la.work with
    | .copy src dst len =>
      if la.stage ≠ 4 || (s.part la.part).faulting || s.quiesced la.part then s
      else
        let n := copyChunk dst len
        let x := copyWords la.part n (addr src) (addr dst) s
        let s := x.2.2
        let moved := 4 * (n - x.1)
        if x.2.1 then s.failLaunch l 0x38
        else if 0 < x.1 then s.setLaunch l fun y => { y with work := .copy (src + moved) (dst + moved) (len - moved) }
        else
          (s.cleanLine la.part dst n).setLaunch l fun y => { y with
            work := .copy (src + moved) (dst + moved) (len - moved), stage := if len ≤ moved then 5 else 4 }
    | _ => s

/-- COPY_PACKET (R366): the packet at the head of the queue leaves stage 1; or a COPY in flight, given by its key, goes on. -/
def execCopyPacket (q : Nat) (id : Option Nat) (s : State) : Out :=
  match id with
  | some l => .next (copyStep l s)
  | none => .next (packetTurn 3 q (fun k s => (s.leave k (pktWork k.r)).stage2 s.nextLaunch 4) State.leaveBad s)

/-- SIGNAL_PACKET (R366): its addition follows its release, at completion. -/
def execSignalPacket (q : Nat) (s : State) : Out :=
  .next (packetTurn 5 q (fun k s => (s.leave k (pktWork k.r)).stage2 s.nextLaunch 5) State.leaveBad s)

/-- MARKER_PACKET (R366). -/
def execMarkerPacket (q : Nat) (s : State) : Out :=
  .next (packetTurn 6 q (fun k s => (s.leave k (pktWork k.r)).stage2 s.nextLaunch 5) State.leaveBad s)

/-! ### The fault queue (R369) -/

/-- Whether a fragment waits for an answer. -/
def Wave.awaits (w : Wave) (tag : Nat) : Bool := w.frags.any fun f => f.wait == .host tag

/-- FAULT_ANSWER (R369, R377): a response of 0, 1 or 2 reaches host.resp of the wave that asked. -/
def execFaultAnswer (part : Nat) (tag : BitVec 64) (resp : BitVec 32) (s : State) : Out :=
  match (s.part part).reqs.find? fun r => r.tag == tag.toNat with
  | none => .next s
  | some r =>
    if 2 < resp.toNat || !s.hasFunction part then .next s
    else
      let s := s.setPart part fun p => { p with reqs := p.reqs.filter fun x => x.tag != tag.toNat }
      .next (s.setWave r.wave fun w => if w.awaits r.tag then { w with hostResp := resp } else w)

/-! ### CXL (R363) -/

/-- The bytes of memory behind a stop (R2, R352, R363). -/
def stopBytes (stop : Nat) : Nat :=
  if stop < 16 then Config.stackBytes else if stop < hostStop then Config.lpddrBytes else if stop = hostStop then 2 ^ 40 else 0

/-- Whether n bytes from a physical address on lie in the memory behind its stop. -/
def behindStop (pa n : Nat) : Bool := decide (pa % 2 ^ 40 + n ≤ stopBytes (stopOf pa))

/-- The lines that n bytes written at a physical address cover whole are poisoned no more (R370). -/
def State.wholeLines (pa n : Nat) (s : State) : State :=
  { s with poison := s.poison.filter fun l => !decide (pa ≤ 128 * l ∧ 128 * (l + 1) ≤ pa + n) }

/-- CXL_MEM_ACCESS (R363, R377): the host reads or writes a partition's HBM4E memory through the range of its virtual
function, by physical address, with a request to each line's home slice (R336); an access behind another stop is blocked, a
partition fault (R353). -/
def execCxlMemAccess (part : Nat) (addr : BitVec 64) (n : Nat) (data : Option (List (BitVec 8))) (s : State) : Out :=
  let pa := addr.toNat
  if !s.feature 1 || !s.feature 2 || n = 0 || !behindStop pa n then .next s
  else
    let lines := (List.range (lineOf (pa + n - 1) + 1 - lineOf pa)).map fun i => lineOf pa + i
    let breaks := fun (l : Nat) =>
      !(decide (stopOf (128 * l) < 16) && s.ownsStop part (128 * l)) || (data.isNone && s.poison.contains l)
    if lines.any breaks then .next (s.foundFault part)
    else
      let s := s.hostAsk part pa n
      match data with
      | none =>
        let r := s.homeRead pa n
        .next { r.2 with hostRead := r.1 }
      | some bs =>
        .next ((s.homeWrite part pa (bs.take n)).wholeLines pa (bs.take n).length)

/-- CXL_CACHE_SNOOP (R349, R363): the host recalls, or takes from the device, a line that the device holds: of host memory, or of
the device's own, which the host flushes so. Log entry 112. -/
def execCxlCacheSnoop (line : Nat) (inval : Bool) (s : State) : Out :=
  if hostStop < stopOf (128 * line) then .next s
  else
    let s := s.toHome none none line inval
    .next { s with clusters := s.clusters.map fun e => (e.1, e.2.snooped line inval) }

/-- NARROW_LINE_PUBLICATION (R88): a cluster's line is published to its home slice. -/
def execNarrowLinePublication (cl line : Nat) (s : State) : Out := .next (s.publishLine cl line)

/-! ### Register writes (R226, R227, R229, R331, R354, R359, R364) -/

/-- A debug context changed, while Leyth holds it (R225). -/
def State.setDebug (l : Nat) (g : Debug → Debug) (s : State) : State :=
  s.setLaunch l fun x => if x.dbg.taken then { x with dbg := g x.dbg } else x

/-- The owner byte of a lane of a port in a layout (R356). -/
def laneOwner (layout : List Nat) (port lane : Nat) : Nat := layout.getD (88 + 8 * port + lane) 255

/-- The bits of a link register that belong to a lane (R359). -/
def laneBits (v : Dword) (i : Nat) : Dword := v &&& ((1#64 <<< i) ||| (15#64 <<< (4 * i + 8)) ||| (1#64 <<< (40 + i)))

/-- The lanes of the sub-link that starts at a lane: up to the next start (R359). -/
def subWidth (v : Dword) (lane : Nat) : Nat :=
  (((List.range 8).filter fun i => decide (lane < i) && v.getLsbD i).headD 8) - lane

/-- Whether a link register is legal under a layout (R359). -/
def linkOk (layout : List Nat) (port : Nat) (v : Dword) : Bool :=
  v.getLsbD 0 && bits v 48 16 == 0 && (List.range 8).all fun i =>
    let own := (bits v (4 * i + 8) 4).toNat
    if v.getLsbD i then
      let w := subWidth v i
      (w == 1 || w == 2 || w == 4 || w == 8) && i % w == 0 &&
        (List.range w).all fun j =>
          laneOwner layout port (i + j) == own || (!v.getLsbD (40 + i) && own == 0 && laneOwner layout port (i + j) == 255)
    else own == 0 && !v.getLsbD (40 + i)

/-- Whether a value leaves the sub-links of the partitions that the REPART does not affect as they are (R356): the bits of their
lanes, and where each ends. -/
def State.linkKept (s : State) (port : Nat) (old v : Dword) : Bool :=
  (List.range 8).all fun i =>
    let o := laneOwner s.layout port i
    o == 255 || s.affected o || (laneBits v i == laneBits old i && (i == 7 || v.getLsbD (i + 1) == old.getLsbD (i + 1)))

/-- Whether a page-table entry is one of R98: its size, its alignment, canonical, and within the memory behind a stop (R2,
R352). -/
def pteOk (e : Pte) : Bool :=
  (e.size == 65536 || e.size == 2097152 || e.size == 1073741824) && e.vbase % e.size == 0 && e.pbase % e.size == 0 &&
    decide (classify (addr e.vbase) = .global e.vbase ∧ e.vbase < 2 ^ 64) && behindStop e.pbase e.size

/-- Whether two entries map no address in common. -/
def pteApart (a b : Pte) : Bool := decide (a.vbase + a.size ≤ b.vbase ∨ b.vbase + b.size ≤ a.vbase)

/-- Bytes of a handler image written (R331). -/
def Cluster.image (off : Nat) (bs : List Byte) (c : Cluster) : Cluster :=
  { c with imem := (List.range bs.length).foldl (fun m i => Tab.setD 0 (off + i) (bs.getD i 0) m) c.imem }

/-- REGISTER_WRITE: a write that does nothing but set what is written. A place that the spec does not allow changes nothing,
nor does a value that it rejects; a watchpoint's SIZE and ADDR stand as written (R227). Log entry 96. -/
def execRegisterWrite (r : RegTarget) (s : State) : Out :=
  match r with
  | .bpAddr l i v => .next (if i < 8 then s.setDebug l fun d => { d with bpAddr := Tab.put i v d.bpAddr } else s)
  | .bpCtl l i v => .next (if i < 8 then s.setDebug l fun d => { d with bpCtl := Tab.put i v d.bpCtl } else s)
  | .wpAddr l i v => .next (if i < 8 then s.setDebug l fun d => { d with wpAddr := Tab.put i v d.wpAddr } else s)
  | .wpCtl l i v =>
    .next (if i < 8 then s.setDebug l fun d => { d with wpCtl := Tab.put i (v &&& 0xE000000F#32) d.wpCtl } else s)
  | .catchCode l code on =>
    .next (s.setDebug l fun d => { d with catches := d.catches.filter (· != code) ++ if on then [code] else [] })
  | .qsize q v =>
    .next (if s.reachesQueue q then s.setQueue q fun h => { h with qsize := (bits v 32 4).toNat } else s)
  | .linkReg port v =>
    match s.repart with
    | none => .next s
    | some x =>
      .next (if x.step = 6 ∧ port < 16 ∧ linkOk x.new port v = true ∧ s.linkKept port (Tab.getD 1#64 port s.links) v = true then
        { s with links := Tab.put port v s.links } else s)
  | .pageMap p vb size pb rd wr ex =>
    let e : Pte := ⟨vb, size, pb, rd, wr, ex⟩
    .next (if pteOk e && (s.part p).ptes.all (pteApart e) then s.setPart p fun t => { t with ptes := t.ptes ++ [e] } else s)
  | .pageUnmap p vb => .next (s.setPart p fun t => { t with ptes := t.ptes.filter fun e => e.vbase != vb })
  | .alcoveImage p off bs =>
    .next (if off + bs.length ≤ 131072 then s.eachCluster p (·.image off bs) else s)
  | .hostMem a bs => .next (if a + bs.length ≤ 2 ^ 40 then (s.homeWrite 255 (hostPa a) bs).wholeLines (hostPa a) bs.length else s)

/-! ### Mailbox commands that set tables (R371) -/

/-- The host queues that each partition owns (R355). -/
def State.queuesOf (s : State) (p : Nat) : Nat := (s.queues.filter fun e => e.2.owner == some p).length

/-- SETPOOL (R355): RSV and CAP of a partition; the RSVs of a pool never pass its size. Alcove contexts are set by class
instead (R331). -/
def execSetpool (pool part rsv cap : Nat) (s : State) : Out :=
  .next (s.mailbox (.setpool pool part rsv cap) false fun s =>
    if 8 < pool ∨ pool = 7 ∨ 16 ≤ part ∨ poolSize pool < s.reserved pool - (s.pool pool part).1 + rsv then s.answers .refused
    else { s with pools := Tab.put (16 * pool + part) (rsv, cap) s.pools }.answers .done)

/-- Whether a host queue holds no packet (R371). -/
def State.queueIdle (s : State) (q : Nat) : Bool :=
  (s.queue q).doorbell == (s.queue q).rdidx && (s.packetsOf q).isEmpty

/-- Whether the host-queue pool has a queue for a partition that is to have queue q (R355). -/
def State.queueRoom (s : State) (q part : Nat) : Bool :=
  (s.queue q).owner == some part || decide (0 < s.poolFree 8 part s.queuesOf)

/-- A SETQUEUE carried out (R371): a queue that holds a packet is not assigned. -/
def State.giveQueue (q part : Nat) (s : State) : State :=
  if s.queueIdle q then (s.setQueue q fun h => { h with owner := some part }).answers .done else s.answers .refused

/-- SETQUEUE (R355, R371): a request for which the host-queue pool has nothing waits, its partition's alone. -/
def execSetqueue (q part : Nat) (s : State) : Out :=
  .next (s.mailbox (.setqueue q part) false fun s =>
    if 65536 ≤ q ∨ 16 ≤ part ∨ s.queueIdle q = false then s.answers .refused
    else if s.queueRoom q part then s.giveQueue q part
    else { s with asks := s.asks ++ [(q, part)] })

/-- The first waiting SETQUEUE that the host-queue pool can now serve, carried out (R355). -/
def State.serveAsk (s : State) : State :=
  match s.asks.find? fun x => s.queueRoom x.1 x.2 with
  | none => s
  | some x => if s.mailboxFree then { s with asks := s.asks.erase x }.giveQueue x.1 x.2 else s

/-- The enabled sub-links of a partition on a port (R359, R360). -/
def State.partLinks (s : State) (p port : Nat) : List Nat := (List.range 8).filter fun l => s.subLink port l == some p

/-- Whether a port mask is one a partition may use (R360): on each port of it the partition owns exactly one enabled
sub-link, and all of them reach the same peer device. Log entry 60. -/
def State.maskOk (s : State) (p : Nat) (mask : BitVec 16) : Bool :=
  let ports := (List.range 16).filter fun i => mask.getLsbD i
  let ends := ports.flatMap fun i => (s.partLinks p i).map (Config.peerDevice i)
  (ports.all fun i => (s.partLinks p i).length == 1) && ends.all fun d => some d == ends.head?

/-- Whether a peer table entry, of a partition, a number and a port mask, is one that a SETLINK of a port may set (R360, R371).
Log entry 60. -/
def State.entryOk (s : State) (port : Nat) (e : Nat × Nat × BitVec 16) : Bool :=
  decide (e.1 < 16 ∧ e.2.1 < 256) && (e.2.2 == 0 || e.2.2.getLsbD port) && s.maskOk e.1 e.2.2

/-- A peer table entry set (R360). -/
def State.setPeer (e : Nat × Nat × BitVec 16) (s : State) : State :=
  s.setPart e.1 fun t => { t with peers := Tab.put e.2.1 e.2.2 t.peers }

/-- SETLINK (R360, R371, R377): peer table entries of a port. Log entry 60. -/
def execSetlink (port : Nat) (entries : List (Nat × Nat × BitVec 16)) (s : State) : Out :=
  .next (s.mailbox (.setlink port entries) false fun s =>
    if s.feature 4 && decide (port < 16) && entries.all (s.entryOk port) then
      (entries.foldl (fun s e => s.setPeer e) s).answers .done
    else s.answers .refused)

/-- FAULTQ (R369, R371): the ring of a partition's fault queue in host memory, in records. -/
def execFaultq (part : Nat) (base : BitVec 64) (size : Nat) (s : State) : Out :=
  .next (s.mailbox (.faultq part base size) false fun s =>
    (s.setPart part fun p => { p with ring := some (base.toNat, size) }).answers .done)

/-- SETWAIT (R129, R371). -/
def execSetwait (part cycles : Nat) (s : State) : Out :=
  .next (s.mailbox (.setwait part cycles) false fun s =>
    if 256 ≤ cycles ∧ cycles ≤ 2 ^ 24 then (s.setPart part fun p => { p with wait := cycles }).answers .done
    else s.answers .refused)

end Sys2Proof.Machine
end

