-- ==== Sys2Proof/Machine/Repart.lean ====
section
/-! DEFINITION. Partition faults (R370) and re-partitioning with its journal (R356 to R358). -/

namespace Sys2Proof.Machine

open Sys2Proof

/-! ### Partition faults (R370) -/

/-- The cores of a partition. -/
def State.partCores (s : State) (p : Nat) : List Nat :=
  (s.partClusters p).flatMap fun c => (List.range Config.coresPerCluster).map fun i => Config.coresPerCluster * c + i

/-- The teams of a partition. -/
def State.partTeams (s : State) (p : Nat) : List Nat :=
  (s.teams.filter fun e => ((Tab.find e.2.launch s.launches).map (·.part)) == some p).map (·.1)

/-- The engines of a core stopped, their work discarded, and its L1 invalidated. -/
def Core.stop (c : Core) : Core :=
  { c with pending := [], copy0 := [], copy1 := [], mx := Mx.fresh none, mxSpilt := [], banksSpilt := [], l1 := [] }

/-- A cluster's caches invalidated without writing back, its Alcove and its queue stopped. -/
def Cluster.stop (c : Cluster) : Cluster := { c with queue := [], ctxs := [], classQ := [], slice := [], dirty := [], wrote := [] }

/-- Memory after the invalidation of a slice without writing back: below its dirty lines stands what memory held (R370). -/
def Cluster.unwritten (m : List Host.Cell) (c : Cluster) : List Host.Cell :=
  c.slice.foldl (fun m e => match e.2.under with
    | none => m
    | some bs => memWrites m (128 * e.1) ((List.range 128).map fun i => bs.getD i 0)) m

/-- A job whose work is discarded; its slot stays taken until it completes (R314, R370). -/
def Job.stop (j : Job) : Job := { j with tiles := [], experts := [] }

/-- A launch, job or packet discarded (R370): it completes with DISCARDED unless an error is fixed already, once its peer
stores are acknowledged or lost (R249, R385). -/
def Launch.discard (la : Launch) : Launch := { la.fixError 0x37 0 with stage := 5 }

/-- The answer to a partition fault (R370). -/
def State.discard (p : Nat) (s : State) : State :=
  let ts := s.partTeams p
  let s := (s.partCores p).foldl (fun s c => s.setCore c Core.stop) s
  let s := (s.partClusters p).foldl (fun s c => { s with mem := (s.cluster c).unwritten s.mem }.setCluster c Cluster.stop) s
  let s : State := { s with
    waves := s.waves.filter fun e => !ts.contains e.2.team
    teams := s.teams.filter fun e => !ts.contains e.1
    jobs := s.jobs.map fun e => if e.1 / 16 = p then (e.1, e.2.stop) else e
    launches := s.launches.map fun e => if e.2.part = p then (e.1, e.2.discard) else e
    queues := s.queues.map fun e => if e.2.owner = some p then (e.1, { e.2 with err := true }) else e }
  s.setPart p fun t => { t with reqs := [], fault := true, faulting := false }

/-- PARTITION_FAULT (R370): found in a partition, and its line poisoned where it is an uncorrectable error; answered, but during a
REPART only once that has ended. -/
def execPartitionFault (part : Nat) (line : Option Nat) (s : State) : Out :=
  let s := match line with
    | none => s
    | some l => { s with poison := if s.poison.contains l then s.poison else s.poison ++ [l] }
  if s.repart.isSome then .next (s.foundFault part) else .next (s.discard part)

/-- The faults found during a command applied once it has ended (R370): their partitions answer them next. -/
def State.applyFaults (ps : List Nat) (s : State) : State := ps.foldl (fun s p => s.setPart p fun t => { t with faulting := true }) s

/-! ### REPART (R356) -/

/-- The owner byte of a stop or lane in a layout. -/
def ownerByte (l : List Nat) (i : Nat) : Nat := l.getD i 255

/-- Whether a layout gives a partition only what R354 allows: with anything, a cluster and a home agent. -/
def layoutOk (l : List Nat) : Bool :=
  l.length == 216 && l.all (fun b => decide (b < 16) || b == 255) &&
    l.all fun b => b == 255 || (((l.take 64).contains b) && ((l.drop 64).take 16).contains b)

/-- REPART (R356, R371, R377): accepted, it begins to drain. Its TIMEOUT ends it through REPART_TIMEOUT: time is not modelled. -/
def execRepart (layout : List Nat) (timeout : Nat) (s : State) : Out :=
  .next (s.mailbox (.repart layout timeout) false fun s =>
    let lpddr := (layout.drop 80).take 8
    if layoutOk layout = false ∨ (s.feature 3 = false ∧ lpddr.any (· != 255) = true) then s.answers .refused
    else { s with repart := some ⟨layout, 1, [], [], []⟩ })

/-- The partitions that a REPART affects (R356). -/
def State.affectedParts (s : State) : List Nat := (List.range 16).filter s.affected

/-- The launches, jobs and packets of a partition in flight. -/
def State.flying (s : State) (p : Nat) : Tab Launch := s.launches.filter fun e => e.2.part == p

/-- Whether an entry is a launch, or the child of one. -/
def Launch.isLaunch (la : Launch) : Bool :=
  match la.work with
  | .launch _ _ _ _ => true
  | _ => false

/-- The launches of the affected partitions in flight. -/
def State.affectedLaunches (s : State) : Tab Launch := (s.affectedParts.flatMap s.flying).filter fun e => e.2.isLaunch

/-- Whether a REPART ends REFUSED (R356 step 1). -/
def State.repartRefused (s : State) (new : List Nat) : Bool :=
  let ps := s.affectedParts
  let leaves := fun (p : Nat) (e : Pte) =>
    let i := 64 + stopOf e.pbase
    decide (stopOf e.pbase < hostStop) && ownerByte s.layout i == p && ownerByte new i != p
  (ps.any fun p => (s.part p).ptes.any (leaves p)) ||
    (ps.any fun p => !(new.take 64).contains p && !(s.flying p).isEmpty) || decide (142 < s.affectedLaunches.length)

/-- Whether a team still stands on a cluster that leaves its partition (R356 step 1). -/
def State.draining (s : State) (new : List Nat) : Bool :=
  s.teams.any fun e => ownerByte s.layout (clusterOf e.2.core) != ownerByte new (clusterOf e.2.core)

/-- The end of a REPART with an answer: what was held is released, and the faults found meanwhile are applied (R356, R370). -/
def State.endRepart (a : Answer) (s : State) : State :=
  { s with repart := none, answer := a }.applyFaults ((s.repart.map fun (r : Repart) => r.faults).getD [])

/-- A team's context spilt at once (R356 step 2): every wave, and every page. -/
def State.spillTeam (t : Nat) (tm : Team) (s : State) : State :=
  let s := { s with waves := s.waves.map fun e => if e.2.team = t then (e.1, { e.2.restart with spilt := true }) else e }
  (List.range (tm.window / 4096)).foldl (fun s p => s.unpin (t, p)) s

/-- The quiesce (R356 step 2): every launch of an affected partition is pre-empted, and its contexts and pages are spilt. -/
def State.quiesce (r : Repart) (s : State) : State :=
  let ls := (s.affectedLaunches.filter fun e => !e.2.parked).map (·.1)
  let s := ls.foldl (fun s l => s.parkLaunch l) s
  let ts := s.teams.filter fun e => (s.affectedParts.flatMap s.partTeams).contains e.1
  let s := ts.foldl (fun s e => s.spillTeam e.1 e.2) s
  { s with repart := some { r with step := 2, quiet := ls } }

/-- The cores of the affected partitions. -/
def State.affectedCores (s : State) : List Nat := s.affectedParts.flatMap s.partCores

/-- Whether the quiesce has ended: no matrix command is in progress, peer stores are acknowledged or lost, and Alcove
invocations have ended (R220, R346, R356 step 2). -/
def State.quietNow (s : State) : Bool :=
  (s.affectedCores.all fun c => (s.core c).mx.tile.isNone) &&
    s.affectedParts.all fun p =>
      ((s.flying p).all fun e => e.2.peerOut == 0) && (s.partClusters p).all fun c => (s.cluster c).ctxs.isEmpty

/-- A core's matrix engine spilt for its holder (R356 step 2). -/
def Core.spillEngine (c : Core) : Core :=
  match c.mx.holder with
  | none => c
  | some t => { c with mxSpilt := Tab.put t c.mx c.mxSpilt, mx := Mx.fresh none }

/-- An activation bank of a core spilt for the launch that owns it (R356 step 2), running or parked. -/
def State.spillBank (core b : Nat) (s : State) : State :=
  match s.launches.find? fun e => ((s.core core).bank b).owner == some e.2.id with
  | none => s
  | some e =>
    let s := s.setCore core fun c => { c with banksSpilt := Tab.put (2 * e.1 + b) (c.bank b) c.banksSpilt }.setBank b Bank.empty
    { s with repart := s.repart.map fun (r : Repart) => { r with banks := r.banks ++ [(core, 2 * e.1 + b)] } }

/-- A core's engine and banks spilt, its pending images committed first (R191, R356 step 2). -/
def State.spillCore (core : Nat) (s : State) : State :=
  let s := (s.core core).pending.foldl (fun s _ => s.commitOldest core) s
  ((s.spillBank core 0).spillBank core 1).setCore core Core.spillEngine

/-- A slice with every dirty line written back (R356 step 3). -/
def Cluster.writtenBack (c : Cluster) : Cluster := { c with slice := c.slice.map fun e => (e.1, { e.2 with under := none }) }

/-- The flush (R356 step 3). -/
def State.flush (s : State) : State :=
  (s.affectedParts.flatMap s.partClusters).foldl (fun s c => (s.publishAll c).setCluster c Cluster.writtenBack) s

/-- Whether a record is complete: its DIGEST matches its contents (R357). -/
def JRecord.complete (r : JRecord) : Bool := r.digest == sha512 (journalBytes r.seq r.old r.new r.qlist)

/-- The free record slot of the journal (R357). -/
def State.freeSlot (s : State) : JRecord := if s.commit.1 = 0 then s.slot1 else s.slot0

/-- The free record slot written. -/
def State.setFreeSlot (r : JRecord) (s : State) : State := if s.commit.1 = 0 then { s with slot1 := r } else { s with slot0 := r }

/-- The record of a REPART, with its DIGEST (R357). -/
def State.record (s : State) (r : Repart) : JRecord :=
  .sealed (s.commit.2 + 1) s.layout r.new ((r.quiet.filterMap fun l => Tab.find l s.launches).map (·.id))

/-- A link register that fits a layout (R359): as it was at the lanes that are kept, elsewhere the widest sub-links that have one
owner, enabled where there is an owner. Log entry 16. -/
def linkFor (keep : Nat → Bool) (v : Dword) (layout : List Nat) (port : Nat) : Dword :=
  let same := fun (i w : Nat) =>
    (List.range w).all fun j => !keep (i + j) && laneOwner layout port (i + j) == laneOwner layout port i
  let inner := fun (i : Nat) => [2, 4, 8].any fun w => i % w != 0 && same (i / w * w) w
  (List.range 8).foldl (fun x i =>
    if keep i then x ||| laneBits v i
    else if inner i then x
    else
      let o := laneOwner layout port i
      x ||| (1#64 <<< i) ||| (if o = 255 then 0 else (BitVec.ofNat 64 o <<< (4 * i + 8)) ||| (1#64 <<< (40 + i)))) 0

/-- Whether the sub-link of a lane has no lane that changes its owner: its bits are not written (R356). -/
def laneKept (old new : List Nat) (v : Dword) (port i : Nat) : Bool :=
  let start := fun (i : Nat) => ((List.range (i + 1)).filter v.getLsbD).getLastD 0
  (List.range 8).all fun j => start j != start i || laneOwner old port j == laneOwner new port j

/-- The link register of a port once a new layout is in force (R356, R359): as it is where it fits, else with only the
sub-links changed that have a lane with a new owner. -/
def linkTo (old new : List Nat) (port : Nat) (v : Dword) : Dword :=
  if linkOk new port v then v
  else
    let x := linkFor (laneKept old new v port) v new port
    if linkOk new port x then x else linkFor (fun _ => false) 0 new port

/-- The connection register of a stop as a layout has it: none for a stop with no owner (R353). -/
def connTo (owner epoch i : Nat) (t : Tab (Nat × Nat)) : Tab (Nat × Nat) :=
  if owner = 255 then Tab.del i t else Tab.put i (epoch % 65536, owner) t

/-- The connection registers of stops as a layout has them (R353, R356, R358). -/
def connsTo (layout : List Nat) (epoch : Nat) (is : List Nat) (t : Tab (Nat × Nat)) : Tab (Nat × Nat) :=
  is.foldl (fun t i => connTo (ownerByte layout i) epoch i t) t

/-- Memory behind the stops that change owner written to zero (R356 step 5). -/
def State.zeroStops (new : List Nat) (s : State) : State :=
  let changed := fun (a : Nat) =>
    decide (stopOf a < hostStop) && ownerByte s.layout (64 + stopOf a) != ownerByte new (64 + stopOf a)
  { s with mem := s.mem.filter fun e => !changed e.1, poison := s.poison.filter fun l => !changed (128 * l) }

/-- A cluster that moves: its Alcove's memories, registers and counters cleared (R346). -/
def Cluster.moved (c : Cluster) : Cluster := { Cluster.fresh with cycle := c.cycle, releases := c.releases }

/-- A core that moves: nothing of its old partition's launches is left in it. -/
def Core.moved (c : Core) : Core := { Core.fresh with clock := c.clock, fstep := c.fstep, vmv := c.vmv }

/-- Phase two (R356 step 5), but for the commit word: stops, memory, link registers, homes, and the tables of partitions that come
into being or end. -/
def State.phaseTwo (new : List Nat) (s : State) : State :=
  let diff := fun (i : Nat) => ownerByte s.layout i != ownerByte new i
  let epoch := s.commit.2 + 1
  let moved := (List.range Config.clusters).filter diff
  let ps := s.affectedParts
  let s := s.zeroStops new
  let s := ps.foldl (fun s p => (s.partClusters p).foldl (fun s c => s.setCluster c fun k => { k with slice := [] }) s) s
  let s := moved.foldl (fun s c => (List.range Config.coresPerCluster).foldl
    (fun s i => s.setCore (Config.coresPerCluster * c + i) Core.moved) (s.setCluster c Cluster.moved)) s
  let gone := fun (p : Nat) => !(s.layout.take 64).contains p || !(new.take 64).contains p
  { s with
    conns := connsTo new epoch ((List.range 216).filter diff) s.conns
    links := (List.range 16).foldl (fun t q =>
      if linkOk new q (Tab.getD 1#64 q t) then t else Tab.put q (linkTo s.layout new q (Tab.getD 1#64 q t)) t) s.links
    parts := s.parts.filter fun e => !(ps.contains e.1 && gone e.1)
    pools := s.pools.filter fun e => !(ps.contains (e.1 % 16) && gone (e.1 % 16)) }

/-- A spilt bank back in its core, where nothing else is in its place. -/
def Core.returnBank (key : Nat) (c : Core) : Core :=
  if (c.bank (key % 2)).owner.isNone then c.bankBack (key / 2) (key % 2) else c

/-- Launches resumed, and every bank that the REPART has spilt back where it stood, those of launches that stay parked among them
(R189, R223, R356 step 6). -/
def State.unpark (ls : List Nat) (s : State) : State :=
  let bs := (s.repart.map fun (r : Repart) => r.banks).getD []
  let s := bs.foldl (fun s b => s.setCore b.1 (·.returnBank b.2)) s
  ls.foldl (fun s l => s.setLaunch l fun x => { x with parked := false }) s

/-- The commit word written, the launches resumed and the queues released (R356 steps 5 and 6). -/
def State.commitRepart (new : List Nat) (quiet : List Nat) (s : State) : State :=
  { s.unpark quiet with layout := new, commit := (1 - s.commit.1, s.commit.2 + 1) }.endRepart .committed

/-- REPART_DRAIN_END (R356): the REPART goes on by one step, where the one before it has ended. -/
def execRepartDrainEnd (s : State) : Out :=
  match s.repart with
  | none => .next s
  | some r =>
    match r.step with
    | 1 =>
      if s.draining r.new then .next s
      else if s.repartRefused r.new then .next (s.endRepart .refused)
      else .next (s.quiesce r)
    | 2 =>
      if s.quietNow then
        let s := (s.affectedCores.foldl (fun s c => s.spillCore c) s).flush
        .next { s with repart := s.repart.map fun (r : Repart) => { r with step := 3 } }
      else .next s
    | 3 => .next { s.setFreeSlot { s.record r with digest := JRecord.blank.digest } with repart := some { r with step := 4 } }
    | 4 => .next { s.setFreeSlot (s.record r) with repart := some { r with step := 5 } }
    | 5 => .next { s.phaseTwo r.new with repart := some { r with step := 6 } }
    | _ => .next (s.commitRepart r.new r.quiet)

/-- REPART_TIMEOUT (R356): a drain that takes longer than its TIMEOUT ends REFUSED. -/
def execRepartTimeout (s : State) : Out :=
  match s.repart with
  | none => .next s
  | some r => if r.step = 1 then .next (s.endRepart .refused) else .next s

/-- The launches that a roll back resumes (R358): those of the partly written record, or else every launch of the layout's
partitions. -/
def State.rolledLaunches (s : State) : List Nat :=
  let part := (s.repart.map fun (r : Repart) => r.step == 4).getD false
  (s.launches.filter fun e =>
    if part then s.freeSlot.qlist.contains e.2.id else (s.layout.take 64).contains e.2.part).map (·.1)

/-- Roll back (R358): every stop's register from the committed layout, and launches resumed. -/
def State.rollBack (s : State) : State :=
  let a := if s.repart.isSome then .rolledBack else s.answer
  ({ s with conns := connsTo s.layout s.commit.2 (List.range 216) s.conns }.unpark s.rolledLaunches).endRepart a

/-- WATCHDOG_RESET (R358): the journal is read; a complete record one above the committed SEQ rolls forward, anything else rolls
back. -/
def execWatchdogReset (s : State) : Out :=
  let r := s.freeSlot
  if r.complete && r.seq == s.commit.2 + 1 then
    let ls := (s.launches.filter fun e => r.qlist.contains e.2.id).map (·.1)
    .next ((s.phaseTwo r.new).commitRepart r.new ls)
  else .next s.rollBack

end Sys2Proof.Machine
end

