-- ==== Sys2Proof/Machine/Boot.lean ====
section
/-! DEFINITION. Bring-up, firmware, identity, features and the control loops (R373 to R380). -/

namespace Sys2Proof.Machine

open Sys2Proof

/-! ### Features (R377) -/

/-- The feature bits offered: bits 0 to 8. -/
def offered : BitVec 128 := 0x1FF

/-- FEATURES (R377). -/
def execFeatures (s : State) : Out :=
  .next (s.mailbox .features true fun s => s.answers (.words ((List.range 4).map fun i => bits offered (32 * i) 32)))

/-- ACCEPT (R377). -/
def execAccept (v : BitVec 128) (s : State) : Out :=
  .next (s.mailbox (.accept v) true fun s =>
    if s.accepted.isSome ∨ v &&& ~~~offered ≠ 0 then s.answers .refused
    else { s with accepted := some v }.answers .done)

/-! ### Firmware (R374, R375) -/

/-- n bytes of an image from byte i on. -/
def imgBytes (img : List Byte) (i n : Nat) : List Byte := (img.drop i).take n

/-- Whether bytes are all zero. -/
def allZero (bs : List Byte) : Bool := bs.all fun b => b == 0

/-- What a signature of firmware covers: header bytes 0 to 255 and the body (R374, R376). -/
def signedPart (img : List Byte) : List Byte := img.take 256 ++ img.drop 512

/-- The security version of an image (R374). -/
def imageSvn (img : List Byte) : Nat := leNat (imgBytes img 4 4)

/-- Whether the ROM accepts an image (R374). -/
def imageOk (img : List Byte) : Bool :=
  let len := leNat (imgBytes img 8 8)
  leNat (imgBytes img 0 4) == 1 && allZero (imgBytes img 148 108) && allZero (imgBytes img 388 124) &&
    len % 4096 == 0 && decide (len ≤ 2 ^ 26) && img.length == 512 + len &&
    sha512 (imgBytes img 16 132) == Config.fusedDigest && decide (Config.minSvn ≤ imageSvn img) &&
    ecVerify (beNat (imgBytes img 16 66), beNat (imgBytes img 82 66)) (beNat (imgBytes img 256 66))
      (beNat (imgBytes img 322 66)) (beNat (sha512 (signedPart img)))

/-- The bytes of an image in flash (R374). Log entry 4. -/
def Flash.bytes (f : Flash) : List Byte :=
  match f with
  | .factory => Config.factoryImage
  | .image bs => bs

/-- Whether the image in flash boots: the one the device comes with does. Log entry 4. -/
def Flash.boots (f : Flash) : Bool :=
  match f with
  | .factory => true
  | .image bs => imageOk bs

/-- The image that stands at an address of host memory, read coherently (R363, R374, R375): a header, and the body where its
LENGTH is legal. -/
def State.hostImage (a : Nat) (s : State) : List Byte × State :=
  let h := s.homeRead (hostPa a) 512
  let len := leNat (imgBytes h.1 8 8)
  if decide (len ≤ 2 ^ 26 ∧ a + 512 + len ≤ 2 ^ 40) then h.2.homeRead (hostPa a) (512 + len) else h

/-- UPDATE (R373, R375): taken at stage 6, and from ROM while the device stays in stage 1. -/
def execUpdate (a : Nat) (s : State) : Out :=
  let go := fun (s : State) =>
    let x := s.hostImage a
    if imageOk x.1 then { x.2 with flash := Flash.image x.1 }.answers .done else x.2.answers .refused
  .next (if s.stage = 1 then go s else s.mailbox (.update a) true go)

/-! ### Identity (R376) -/

/-- The report of ATTEST but for its signature: bytes 0 to 379 (R376). -/
def reportBytes (s : State) (nonce : List Byte) : List Byte :=
  leBytes 4 1 ++ leBytes 4 (imageSvn s.running.bytes) ++ nonce ++ sha512 (signedPart s.running.bytes) ++
    leBytes 16 ((s.accepted.getD 0).toNat) ++ leBytes 8 s.commit.2 ++ (s.layout.flatMap fun b => leBytes 1 b) ++ leBytes 4 0

/-- The signature of the identity key over a digest (R376). Log entry 4. -/
def identitySign (digest : List Byte) : Nat × Nat :=
  ecSign (1 + Config.identityKey % (ecN - 1)) (1 + Config.signNonce digest % (ecN - 1)) (beNat digest)

/-- ATTEST (R376): the report for a nonce of 64 bytes, signed by the identity key. -/
def execAttest (nonce : List (BitVec 8)) (s : State) : Out :=
  .next (s.mailbox (.attest nonce) true fun s =>
    if nonce.length ≠ 64 then s.answers .refused
    else
      let r := reportBytes s nonce
      let sg := identitySign (sha512 r)
      s.answers (.bytes (r ++ beBytes 66 sg.1 ++ beBytes 66 sg.2)))

/-- IDCERT (R376). -/
def execIdcert (s : State) : Out := .next (s.mailbox .idcert true fun s => s.answers (.bytes Config.identityCert))

/-! ### Telemetry and control loops (R378 to R380) -/

/-- The telemetry word of a core (R380). -/
def coreWord (c : Core) : Word := BitVec.ofNat 32 (c.vmv % 2 ^ 12 * 2 ^ 16 + c.fstep % 2 ^ 8)

/-- The clock target and the supply of every core, with one core's target as given. -/
def State.targets (s : State) (core fstep : Nat) : List (Nat × Nat) :=
  (List.range 256).map fun c => (if c = core then fstep else (s.core c).fstep, (s.core c).vmv)

/-- The power of the package in watts with a core's clock target as given, a free value of the targets and supplies (R378).
Log entry 78. -/
def State.power (s : State) (core fstep : Nat) : Nat := Config.packagePower (s.targets core fstep) s.frees

/-- TELEMETRY (R380): a word per core, and the package power in milliwatts. -/
def execTelemetry (s : State) : Out :=
  .next (s.mailbox .telemetry false fun s =>
    { s with frees := s.frees + 1 }.answers (.words ((List.range 256).map (fun c => coreWord (s.core c)) ++
      [BitVec.ofNat 32 (1000 * s.power 0 (s.core 0).fstep)])))

/-- VOLTAGE_LOOP (R378): a core's supply becomes a free value within its range. -/
def execVoltageLoop (core : Nat) (s : State) : Out :=
  let f := s.free
  .next (if core < 256 then f.2.setCore core fun c => { c with vmv := 300 + f.1.toNat % 151 } else s)

/-- A core's clock target becomes a free value within its range, or the highest one below it that keeps the package within its
power (R378). The 1 stands where none does. -/
def State.retarget (core : Nat) (s : State) : State :=
  let f := s.free
  let most := 1 + f.1.toNat % 64
  let t := ((List.range most).reverse.find? fun i => decide (s.power core (i + 1) ≤ Config.powerLimit)).getD 0
  if core < 256 then f.2.setCore core fun c => { c with fstep := t + 1 } else s

/-- FREQUENCY_LOOP (R378, R379). -/
def execFrequencyLoop (core : Nat) (s : State) : Out := .next (s.retarget core)

/-- POWER_LOOP (R378, R379). -/
def execPowerLoop (core : Nat) (s : State) : Out := .next (s.retarget core)

/-- EQUALISATION (R378, R379): tuning changes timing only, and loses no flit. -/
def execEqualisation (_port _lane : Nat) (s : State) : Out := .next s

/-! ### The commands that wait (R371) -/

/-- A mailbox command carried out. -/
def MailCmd.run (j : MailCmd) (s : State) : Out :=
  match j with
  | .repart layout timeout => execRepart layout timeout s
  | .preempt part ids => execPreempt part ids s
  | .resume part ids => execResume part ids s
  | .setpool pool part rsv cap => execSetpool pool part rsv cap s
  | .setqueue q part => execSetqueue q part s
  | .alcove part cmd => execAlcove part cmd s
  | .setlink port es => execSetlink port es s
  | .faultq part base size => execFaultq part base size s
  | .setwait part cycles => execSetwait part cycles s
  | .features => execFeatures s
  | .accept bits => execAccept bits s
  | .attest nonce => execAttest nonce s
  | .telemetry => execTelemetry s
  | .update a => execUpdate a s
  | .idcert => execIdcert s

/-- The first of the commands that wait taken, once the one before it has ended (R371, R376). -/
def mailboxTurn (s : State) : Out :=
  match s.box with
  | [] => .next s
  | j :: rest =>
    if s.repart.isSome then .next s
    else
      match j.run { s with box := [] } with
      | .next t => .next { t with box := rest }
      | o => o

/-! ### Reset (R373) -/

/-- The device starting again with an image in flash: at stage 6 with that image running, or, where it does not boot, in stage 1.
Host memory, and the model's own counters, are no part of it. -/
def State.restart (s : State) : State :=
  { State.reset with
    mem := s.mem.filter fun e => stopOf e.1 == hostStop
    flash := s.flash, running := s.flash, stage := if s.flash.boots then 6 else 1
    agenda := s.agenda, choices := s.choices, frees := s.frees }

/-- DEVICE_RESET (R373, R375). -/
def execDeviceReset (s : State) : Out := .next s.restart

end Sys2Proof.Machine
end

