-- ==== Sys2Proof/Machine/Control.lean ====
section
/-! DEFINITION. The control instructions (R158 to R165): branches, divergence, joins, calls, repeats, exit. -/

namespace Sys2Proof.Machine

open Sys2Proof

/-- A PC-relative target (R158): PC + 4 · off. -/
def Ctx.target (c : Ctx) : Dword := c.fr.pc + BitVec.ofInt 64 (4 * c.simm)

/-- The address after the instruction (R26). -/
def Ctx.seqPc (c : Ctx) : Dword := c.fr.pc + BitVec.ofNat 64 c.ins.len

/-- The body of BRA (R159). -/
def braBody (c : Ctx) (s : State) : Act :=
  .goto c.target (s.setFrag c.k c.i (·.spin c.fr.pc c.target))

/-- The lanes of a branch on bit 0 of vA (R160). -/
def takenMask (c : Ctx) : Word :=
  maskOf ((lanesOf c.fr.mask).filter fun l => (c.w.reg c.f.a.toNat l).getLsbD 0 == (c.f.m == 0))

/-- The trap for a fragment beyond 32 inside a generator region (R273, R282). -/
def tooManyFrags (c : Ctx) (more : Nat) : Bool := c.w.landing.inReg && decide (32 < c.w.frags.length + more)

/-- The LANDING trap of a case (R282). -/
def landingTrap (c : Ctx) (sub : Nat) : Act := .trap { c.trap 0x0A with sub := sub, info := c.ins.word }

/-- The body of BRC (R160). -/
def brcBody (c : Ctx) (s : State) : Act :=
  let t := takenMask c
  let n := c.fr.mask &&& ~~~t
  let tok := c.fr.tokens ||| (1#16 <<< c.f.c.toNat)
  let s1 := s.setFrag c.k c.i fun f => { f with tokens := tok }
  let marked := fun (out : Word) (s : State) =>
    s.markFork c.k c.w (lanesOf c.fr.mask) out fun l => .brc c.f.c.toNat (t.getLsbD l)
  if n = 0 then .goto c.target (marked 0 (s1.setFrag c.k c.i (·.spin c.fr.pc c.target)))
  else if t = 0 then .next (marked 0 s1)
  else if tooManyFrags c 1 then landingTrap c 4
  else
    let small := (lanesOf t).length ≤ (lanesOf n).length
    let m := if small then t else n
    let spin := fun (yes : Bool) (f : Frag) => if yes then f.spin c.fr.pc c.target else f
    let there := if small then c.target else c.seqPc
    let here := if small then c.seqPc else c.target
    let s2 := s1.setWave c.k fun w =>
      let f := w.frags.getD c.i c.fr
      let w := w.setFrag c.i fun f => spin (!small) { f with mask := f.mask &&& ~~~m }
      { w with frags := w.frags ++ [spin small { f.detach m there with tokens := tok, rep := none }] }
    .goto here (marked m s2)

/-- The body of JOIN (R161): a .wave release, the wait, and every merge that it completes. -/
def joinBody (c : Ctx) (s : State) : Act :=
  let t := c.uimm
  let s1 := c.release 0 s
  let s2 := ((s1.setFrag c.k c.i fun f => { f with wait := .join t c.seqPc }).setWave c.k Wave.resolveJoins).deliverDue c.k
  let l := lowLane c.fr.mask
  match Tab.find c.k s2.waves with
  | none => .moved none s2
  | some w =>
    match w.fragAt l with
    | none => .moved none s2
    | some j =>
      match w.frags[j]? with
      | none => .moved none s2
      | some f =>
        if f.atJoin t && f.pc == c.fr.pc then .wait (.join t c.seqPc) s1 else .moved (some j) s2

/-- The body of CALL (R162): the link pair v46, v47 in every active lane, then the branch. -/
def callBody (c : Ctx) (s : State) : Act :=
  .goto c.target (s.writeRegs c ((lanesOf c.fr.mask).flatMap fun l => wrVal 2 46 l c.seqPc.toNat))

/-- The body of JMPX through a register pair, and of RET through v46 (R162). -/
def jumpBody (a : Ctx → Nat) (c : Ctx) (s : State) : Act :=
  let ls := lanesOf c.fr.mask
  let g := fun l => c.w.pair (a c) l
  match ls.find? fun l => bits (g l) 0 2 != 0 with
  | some l => .trap { c.trap 0x04 with lane := l, addr := g l }
  | none =>
    match groupTargets g ls with
    | [] => .next s
    | (pc, m) :: rest =>
      if !rest.isEmpty && tooManyFrags c rest.length then landingTrap c 4
      else
        let s1 := s.setWave c.k fun w =>
          let f := w.frags.getD c.i c.fr
          let w := w.setFrag c.i fun f => { f with mask := m }
          { w with frags := w.frags ++ rest.map fun x => { f.detach x.2 x.1 with rep := none } }
        .goto pc (s1.markFork c.k c.w ls (rest.foldl (fun m x => m ||| x.2) 0) fun l => .jump (g l))

/-- What reading past a REP body answers: the address after it, a failed fetch with its address, or a partition fault. -/
inductive Skip
  | past (a : Dword)
  | bad (code sub : Nat) (a : Dword)
  | broken
deriving DecidableEq, Repr

/-- The address after k instructions from a place, found from the L fields of their first words, each fetched as an
instruction word is (R26, R163). -/
def skipBody (who : Who) (held : Tab Word) : Nat → Dword → State → Skip × State
  | 0, a, s => (.past a, s)
  | k + 1, a, s =>
    let s := s.prepWord who held a
    match s.fetchWord who held a with
    | .bad c u => (.bad c u a, s)
    | .word w => if s.fetchBreaks who held a then (.broken, s) else skipBody who held k (a + BitVec.ofNat 64 (instrBytes w)) s

/-- The body of REP (R163). -/
def repBody (c : Ctx) (s : State) : Act :=
  let k := c.uimm % 16 + 1
  let n : Word := if c.f.m = 1 then c.w.reg c.f.a.toNat (lowLane c.fr.mask) else BitVec.ofNat 32 (c.uimm / 32)
  if n = 0 then
    match skipBody (c.who s) c.fr.held k c.seqPc s with
    | (.bad code sub a, _) => .trap { c.trap code with sub := sub, addr := a }
    | (.broken, s) => .wait .stall (s.foundFault (s.partOf c.w))
    | (.past a, s) => .goto a s
  else
    let pc := c.seqPc
    .moved (some c.i) (s.setFrag c.k c.i fun f =>
      f.resume pc (some { start := pc, k := k, n := n, left := n, idx := 0 }) (s.now c.k))

/-- The body of EXIT (R165): the fragment's lanes leave the live set; inside a generator region it traps (R273). -/
def exitBody (c : Ctx) (s : State) : Act :=
  if c.w.landing.inReg then landingTrap c 3
  else
    let s1 := s.setWave c.k fun w =>
      { w with live := w.live &&& ~~~c.fr.mask, frags := w.frags.eraseIdx c.i }
    .moved none (s1.settleWave c.k)

/-- The body of NOP (R165). -/
def nopBody (_ : Ctx) (s : State) : Act := .next s

/-- BRA (R159). -/
def execBra (f : XF) (s : State) : Out := runWave (.ofX 0x0C0 f) braBody s

/-- BRA_B32 (R56). -/
def execBraB32 (f : BF) (s : State) : Out := runWave (.ofB 0x70 f) braBody s

/-- BRC (R160). -/
def execBrc (f : XF) (s : State) : Out := runWave (.ofX 0x0C1 f) brcBody s

/-- JOIN (R161). -/
def execJoin (f : XF) (s : State) : Out := runWave (.ofX 0x0C2 f) joinBody s

/-- JOIN_B32 (R56). -/
def execJoinB32 (f : BF) (s : State) : Out := runWave (.ofB 0x71 f) joinBody s

/-- CALL (R162). -/
def execCall (f : XF) (s : State) : Out := runWave (.ofX 0x0C3 f) callBody s

/-- CALL_B32 (R56). -/
def execCallB32 (f : BF) (s : State) : Out := runWave (.ofB 0x72 f) callBody s

/-- RET (R162). -/
def execRet (f : XF) (s : State) : Out := runWave (.ofX 0x0C4 f) (jumpBody fun _ => 46) s

/-- RET_B32 (R56). -/
def execRetB32 (f : BF) (s : State) : Out := runWave (.ofB 0x73 f) (jumpBody fun _ => 46) s

/-- JMPX (R162). -/
def execJmpx (f : XF) (s : State) : Out := runWave (.ofX 0x0C5 f) (jumpBody fun c => c.f.a.toNat) s

/-- JMPX_B32 (R56). -/
def execJmpxB32 (f : BF) (s : State) : Out := runWave (.ofB 0x74 f) (jumpBody fun c => c.f.a.toNat) s

/-- REP (R163). -/
def execRep (f : XF) (s : State) : Out := runWave (.ofX 0x0C6 f) repBody s

/-- EXIT (R165). -/
def execExit (f : XF) (s : State) : Out := runWave (.ofX 0x0C7 f) exitBody s

/-- EXIT_B32 (R56). -/
def execExitB32 (f : BF) (s : State) : Out := runWave (.ofB 0x7A f) exitBody s

/-- NOP (R165). -/
def execNop (f : XF) (s : State) : Out := runWave (.ofX 0x0C8 f) nopBody s

/-- NOP_B32 (R56). -/
def execNopB32 (f : BF) (s : State) : Out := runWave (.ofB 0x75 f) nopBody s

end Sys2Proof.Machine
end

