-- ==== Sys2Proof/Machine/Float.lean ====
section
/-! DEFINITION. Float arithmetic, comparison, conversion, packed and dot-product instructions (R172 to R177, R179 to
R182). -/

namespace Sys2Proof.Machine

open Sys2Proof

/-- The rounding mode of an instruction whose M is a rounding field (R38): the override, or the mode register's. -/
def fieldRM (c : Ctx) : RM := if c.f.m = 0 then modeRM c else c.f.m.toNat - 1

/-- The format of the instruction's float type. -/
def fmtT (c : Ctx) : Fmt := fmtOf c.f.t.toNat

/-- A float operand from a register value: its low bits, flushed in (R63, R172). -/
def fval (c : Ctx) (v : Nat) : FVal := (fmtT c).read (modeSM c) (v % 2 ^ (fmtT c).width)

/-- A float result as it stands in a 32-bit register (R63): 8-bit and 4-bit floats sign-extended. -/
def fmtReg (f : Fmt) (v : Nat) : Nat := extend32 (decide (f.width < 16)) f.width v

/-- A float result of type T, rounded once and flushed out (R174). -/
def fres (c : Ctx) (rm : RM) (x : FVal) : Nat := fmtReg (fmtT c) ((fmtT c).enc rm (modeSM c) x)

/-- The body of a float operation of two operands with rounding M (R174). -/
def float2 (g : RM → FVal → FVal → FVal) : Ctx → State → Act :=
  laneBody (fun _ => 1) fun c l => fres c (fieldRM c) (g (fieldRM c) (fval c (c.opA 1 l)) (fval c (c.opB 1 l)))

/-- The body of FADD (R174). -/
def faddBody : Ctx → State → Act := float2 fun rm x y => x.add rm y

/-- The body of FSUB (R174). -/
def fsubBody : Ctx → State → Act := float2 fun rm x y => x.add rm y.neg

/-- The body of FMUL (R174). -/
def fmulBody : Ctx → State → Act := float2 fun _ x y => x.mul y

/-- The fused multiply-add: product and sum exact (R174). -/
def fma (rm : RM) (x y z : FVal) : FVal := (x.mul y).add rm z

/-- The body of FFMA (R174). -/
def ffmaBody : Ctx → State → Act :=
  laneBody (fun _ => 1) fun c l =>
    fres c (fieldRM c) (fma (fieldRM c) (fval c (c.opA 1 l)) (fval c (c.opB 1 l)) (fval c (c.opC 1 l)))

/-- The body of FMIN and FMAX (R175). -/
def minMaxBody (mx : Bool) : Ctx → State → Act :=
  laneBody (fun _ => 1) fun c l => fres c 0 ((fval c (c.opA 1 l)).minMax mx (fval c (c.opB 1 l)))

/-- The conditions of FCMP by M (R176). -/
def fcond (m : Nat) (x y : FVal) : Bool :=
  let un := x == .nan || y == .nan
  match m with
  | 0 => !un && x.cmp y == .eq
  | 1 => un || x.cmp y != .eq
  | 2 => !un && x.cmp y == .lt
  | 3 => !un && x.cmp y != .gt
  | 4 => !un && x.cmp y == .gt
  | 5 => !un && x.cmp y != .lt
  | _ => un

/-- The body of FCMP (R176). -/
def fcmpBody : Ctx → State → Act :=
  laneBody (fun _ => 1) fun c l => flagWord (fcond c.f.m.toNat (fval c (c.opA 1 l)) (fval c (c.opB 1 l)))

/-- The body of FCLASS (R177): it ignores the subnormal mode. -/
def fclassBody : Ctx → State → Act :=
  laneBody (fun _ => 1) fun c l =>
    2 ^ classBit (fmtT c) ((fmtT c).dec (c.opA 1 l % 2 ^ (fmtT c).width))

/-- The body of FSQRT (R174). -/
def fsqrtBody : Ctx → State → Act :=
  laneBody (fun _ => 1) fun c l => fres c (fieldRM c) (fval c (c.opA 1 l)).sqrt

/-- The body of FCVT (R180): source format in C, destination in T. -/
def fcvtBody : Ctx → State → Act :=
  laneBody (fun _ => 1) fun c l =>
    let src := fmtOf c.f.c.toNat
    fres c (fieldRM c) (src.read (modeSM c) (c.opA 1 l % 2 ^ src.width))

/-- The body of CVTIF (R180): integer source in T, float destination in C. -/
def cvtifBody : Ctx → State → Act :=
  laneBody (fun _ => 1) fun c l =>
    let dst := fmtOf c.f.c.toNat
    fmtReg dst (cvtIF dst (fieldRM c) (tyRead c.f.t (8 * tyBytes c.f.t) (c.opA (words c) l)))

/-- The integer type that C names in CVTFI (R179). -/
def cType (c : Ctx) : BitVec 3 := bits c.f.c 0 3

/-- The body of CVTFI (R180): float source in T, integer destination in C. -/
def cvtfiBody : Ctx → State → Act :=
  laneBody (fun c => tyWords (cType c)) fun c l =>
    let v := cvtFI (tyMin (cType c)) (tyMax (cType c)) (fieldRM c) (fval c (c.opA 1 l))
    wrap (32 * tyWords (cType c)) v

/-- Element j of a packed operand of two 16-bit floats (R181). -/
def half (v j : Nat) : Nat := v / 2 ^ (16 * j) % 2 ^ 16

/-- A packed result of two 16-bit elements (R181). -/
def packed2 (g : Nat → Nat) : Nat := g 0 + 2 ^ 16 * g 1

/-- One 16-bit element's result. -/
def hres (c : Ctx) (x : FVal) : Nat := (fmtT c).enc (fieldRM c) (modeSM c) x

/-- The body of PADD2 (R181). -/
def padd2Body : Ctx → State → Act :=
  laneBody (fun _ => 1) fun c l => packed2 fun j =>
    hres c ((fval c (half (c.opA 1 l) j)).add (fieldRM c) (fval c (half (c.opB 1 l) j)))

/-- The body of PMUL2 (R181). -/
def pmul2Body : Ctx → State → Act :=
  laneBody (fun _ => 1) fun c l => packed2 fun j =>
    hres c ((fval c (half (c.opA 1 l) j)).mul (fval c (half (c.opB 1 l) j)))

/-- The body of PFMA2 (R181). -/
def pfma2Body : Ctx → State → Act :=
  laneBody (fun _ => 1) fun c l => packed2 fun j =>
    hres c (fma (fieldRM c) (fval c (half (c.opA 1 l) j)) (fval c (half (c.opB 1 l) j)) (fval c (half (c.opC 1 l) j)))

/-- Byte j of a word, signed or not. -/
def byteOf (sgn : Bool) (v j : Nat) : Int :=
  let b := v / 2 ^ (8 * j) % 256
  if sgn then toSigned 8 b else b

/-- The body of IDOT4 (R182): vA's bytes have type T, vB's the same, or with M = 1 the other. -/
def idot4Body : Ctx → State → Act :=
  laneBody (fun _ => 1) fun c l =>
    let sa := c.f.t == 0
    let sb := if c.f.m = 1 then !sa else sa
    let dot := ((List.range 4).map fun j => byteOf sa (c.opA 1 l) j * byteOf sb (c.opB 1 l) j).sum
    wrap 32 (c.opC 1 l + dot)

/-- FADD (R174). -/
def execFadd (f : XF) (s : State) : Out := runWave (.ofX 0x100 f) faddBody s

/-- FADD_B32 (R56). -/
def execFaddB32 (f : BF) (s : State) : Out := runWave (.ofB 0x40 f) faddBody s

/-- FSUB (R174). -/
def execFsub (f : XF) (s : State) : Out := runWave (.ofX 0x101 f) fsubBody s

/-- FSUB_B32 (R56). -/
def execFsubB32 (f : BF) (s : State) : Out := runWave (.ofB 0x41 f) fsubBody s

/-- FMUL (R174). -/
def execFmul (f : XF) (s : State) : Out := runWave (.ofX 0x102 f) fmulBody s

/-- FMUL_B32 (R56). -/
def execFmulB32 (f : BF) (s : State) : Out := runWave (.ofB 0x42 f) fmulBody s

/-- FFMA (R174). -/
def execFfma (f : XF) (s : State) : Out := runWave (.ofX 0x103 f) ffmaBody s

/-- FMIN (R175). -/
def execFmin (f : XF) (s : State) : Out := runWave (.ofX 0x104 f) (minMaxBody false) s

/-- FMIN_B32 (R56). -/
def execFminB32 (f : BF) (s : State) : Out := runWave (.ofB 0x43 f) (minMaxBody false) s

/-- FMAX (R175). -/
def execFmax (f : XF) (s : State) : Out := runWave (.ofX 0x105 f) (minMaxBody true) s

/-- FMAX_B32 (R56). -/
def execFmaxB32 (f : BF) (s : State) : Out := runWave (.ofB 0x44 f) (minMaxBody true) s

/-- FCMP (R176). -/
def execFcmp (f : XF) (s : State) : Out := runWave (.ofX 0x106 f) fcmpBody s

/-- FCLASS (R177). -/
def execFclass (f : XF) (s : State) : Out := runWave (.ofX 0x107 f) fclassBody s

/-- FSQRT (R174). -/
def execFsqrt (f : XF) (s : State) : Out := runWave (.ofX 0x10A f) fsqrtBody s

/-- FSQRT_B32 (R56). -/
def execFsqrtB32 (f : BF) (s : State) : Out := runWave (.ofB 0x47 f) fsqrtBody s

/-- FCVT (R180). -/
def execFcvt (f : XF) (s : State) : Out := runWave (.ofX 0x120 f) fcvtBody s

/-- CVTIF (R180). -/
def execCvtif (f : XF) (s : State) : Out := runWave (.ofX 0x121 f) cvtifBody s

/-- CVTFI (R180). -/
def execCvtfi (f : XF) (s : State) : Out := runWave (.ofX 0x122 f) cvtfiBody s

/-- PADD2 (R181). -/
def execPadd2 (f : XF) (s : State) : Out := runWave (.ofX 0x140 f) padd2Body s

/-- PADD2_B32 (R56). -/
def execPadd2B32 (f : BF) (s : State) : Out := runWave (.ofB 0x4C f) padd2Body s

/-- PMUL2 (R181). -/
def execPmul2 (f : XF) (s : State) : Out := runWave (.ofX 0x141 f) pmul2Body s

/-- PMUL2_B32 (R56). -/
def execPmul2B32 (f : BF) (s : State) : Out := runWave (.ofB 0x4D f) pmul2Body s

/-- PFMA2 (R181). -/
def execPfma2 (f : XF) (s : State) : Out := runWave (.ofX 0x142 f) pfma2Body s

/-- IDOT4 (R182). -/
def execIdot4 (f : XF) (s : State) : Out := runWave (.ofX 0x180 f) idot4Body s

end Sys2Proof.Machine
end

