-- ==== Sys2Proof/Machine/Landing.lean ====
section
/-! DEFINITION. Generator regions and the Landing (R271 to R283). -/

namespace Sys2Proof.Machine

open Sys2Proof

/-- The batch size B of a region (R271). -/
def batchB (bsz : BitVec 2) : Nat := 8 * 2 ^ bsz.toNat

/-- The k lowest lanes of a mask. -/
def lowestLanes (k : Nat) (m : Word) : List Nat := (lanesOf m).take k

/-- A consumer batch of k entries started (R278): the producer set parks; the k lowest region lanes take the k oldest
entries. -/
def Wave.startBatch (k : Nat) (w : Wave) : Wave :=
  { w with
    landing := { w.landing with mode := true, batch := k }
    frags := w.frags ++ [freshFrag (maskOf (lowestLanes k w.landing.regMask)) w.landing.consPc 0 true] }

/-- A batch started at an instruction boundary, the producers' .wave release first, the consumer's .wave acquire with it (R84,
R278). -/
def State.startBatch (wk k : Nat) (s : State) : State :=
  ((s.release (clusterOf (coreOf wk)) 0).firm wk 0xFFFFFFFF).setWave wk fun w => w.noEarly.startBatch k

/-- The consumer frame taken as a copy of v48 to v63 in every lane (R272). -/
def copyFrame (t : Tab Word) : Tab Word :=
  let base := t.filter fun e => decide (e.1 < 4096)
  base ++ (base.filter fun e => decide (1536 ≤ e.1 ∧ e.1 < 2048)).map fun e => (e.1 + 2560, e.2)

/-- The consumer frame as the only frame (R272). -/
def keepFrame (t : Tab Word) : Tab Word :=
  (t.filter fun e => decide (e.1 < 1536)) ++
    (t.filter fun e => decide (4096 ≤ e.1)).map (fun e => (e.1 - 2560, e.2)) ++
    (t.filter fun e => decide (2048 ≤ e.1 ∧ e.1 < 4096))

/-- A binding at the exit label (R272): one over v48 to v63 of the producer frame is lost; FRAME = 1 becomes 0. -/
def exitBind (b : Binding) : Binding :=
  let i := bindInfo b
  if bindKind b ≠ 1 then b
  else if i / 1024 % 2 = 1 then b &&& ~~~(0x400#32)
  else if i % 128 < 64 ∧ 48 ≤ i % 128 + i / 128 % 8 then lostBind
  else b

/-- The end of a region (R279): one fragment of the region lanes at the exit label; the slot is free. -/
def Wave.endRegion (w : Wave) : Wave :=
  { w.mapBinds exitBind with
    frags := [freshFrag w.landing.regMask w.landing.exitPc w.landing.genTok false]
    regs := keepFrame w.regs
    landing := Landing.zero
    kin := []
    late := w.settleKin.late }

/-- The trap of a Landing instruction in a handler, or outside a region or in the wrong mode (R282). DESIGN CHOICE: where the
handler flag is set and another case holds too, the case is 5; the table gives no precedence. Log entry 108. -/
def landingBad (c : Ctx) (consumer : Bool) : Option Nat :=
  if c.w.handlerFlag then some 5
  else if !c.w.landing.inReg || c.w.landing.mode != consumer then some (if consumer then 2 else 1)
  else none

/-- The LANDING trap of a case: trap.info holds the instruction's first word (R282), where R213 has it 0. Log entry 109. -/
def landTrap (c : Ctx) (sub : Nat) : Act := .trap { c.trap 0x0A with sub := sub, info := c.ins.word }

/-- The number of lanes in a mask. -/
def laneCount (m : Word) : Nat := (lanesOf m).length

/-- GEN waiting in a lower slot of the quadrant (R274): one that a halt has stopped waits no more (R219), but one that a step on a
halted team has issued does (R228). -/
def State.gensBefore (s : State) (slot : Nat) : Nat :=
  (s.resident.filter fun e =>
    quadOf (slotOf e.1) == quadOf slot && decide (slotOf e.1 < slot) &&
      e.2.frags.zipIdx.any fun x => x.1.wait == .gen && s.letsFrag e.2 x.2).length

/-- A Landing slot claimed for a wave from a parked or evictable wave of another launch when parked and evictable waves hold every
slot (R221, R274), the first of them in the table of waves: its whole context is spilt. Log entry 99. -/
def State.claimLanding (q : Nat) (w : Wave) (s : State) : State :=
  let hs := s.resident.filter fun e => quadOf (slotOf e.1) == q && e.2.landing.inReg
  if decide (Config.landingSlots ≤ hs.length) && hs.all fun e => s.claimable e.2 then
    match hs.find? fun e => s.launchAt e.2 != s.launchAt w with
    | none => s
    | some e => s.spillWave e.1
  else s

/-- Landing slots that waves of the same launch hold in their spilt contexts (R223): no other wave of the launch takes theirs. -/
def State.landingKept (s : State) (q : Nat) (w : Wave) : Nat :=
  (s.waves.filter fun e =>
    e.2.spilt && quadOf (slotOf e.1) == q && e.2.landing.inReg && s.launchAt e.2 == s.launchAt w).length

/-- The wave inside its region (R274). -/
def openRegion (c : Ctx) (w : Wave) : Wave :=
  let cons := c.fr.pc + BitVec.ofInt 64 (4 * c.simm)
  let x := c.f.c.toNat + 128 * c.f.e.toNat
  let w := w.setFrag c.i fun f => { f with cons := false }
  { w with
    regs := copyFrame w.regs
    landing := { consPc := cons, exitPc := cons + BitVec.ofNat 64 (4 * x), regMask := c.fr.mask, prodMask := c.fr.mask,
                 genTok := c.fr.tokens, bsz := c.f.m.setWidth 2, inReg := true, drain := false, mode := false, batch := 0,
                 entries := [] } }

/-- The body of GEN (R274). -/
def genBody (c : Ctx) (s : State) : Act :=
  if c.w.handlerFlag then landTrap c 5
  else if 1 < c.w.frags.length ∨ c.w.landing.inReg = true ∨ laneCount c.w.live < batchB (c.f.m.setWidth 2) then landTrap c 0
  else
    let slot := slotOf c.k
    let s := s.claimLanding (quadOf slot) c.w
    if Config.landingSlots ≤ s.landingUse (quadOf slot) + s.landingKept (quadOf slot) c.w + s.gensBefore slot then .wait .gen s
    else .next (s.setWave c.k (openRegion c))

/-- The entry a lane yields (R275). -/
def yielded (c : Ctx) (l : Nat) : Word × Word × Word × Word :=
  let v := fun j => if j < c.uimm then c.w.reg (c.f.a.toNat + j) l else 0
  (v 0, v 1, v 2, v 3)

/-- Whether a consumer fragment beside the wave's fragments would be one beyond 32 (R273). Log entry 36. -/
def batchTooMany (c : Ctx) : Bool := decide (32 ≤ c.w.frags.length)

/-- The body of YLD (R275); a batch that would bring a fragment beyond 32 does not start (R273, R282). -/
def yldBody (c : Ctx) (s : State) : Act :=
  match landingBad c false with
  | some n => landTrap c n
  | none =>
    let b := batchB c.w.landing.bsz
    let held := c.w.landing.entries.length
    if c.lanes.isEmpty then .next s
    else if b ≤ held + c.lanes.length ∧ batchTooMany c = true then landTrap c 4
    else if 128 < held + c.lanes.length then .moved (some c.i) (s.startBatch c.k b)
    else
      let s := s.setWave c.k fun w =>
        { w with landing := { w.landing with entries := w.landing.entries ++ c.lanes.map (yielded c) } }
      if b ≤ held + c.lanes.length then .next (s.startBatch c.k b) else .next s

/-- What follows when every region lane has been retired (R276, R279): a batch of what is held, or the end of the region. -/
def State.drainRegion (k : Nat) (s : State) : State :=
  match Tab.find k s.waves with
  | none => s
  | some w =>
    let n := min (batchB w.landing.bsz) w.landing.entries.length
    if n = 0 then s.setWave k Wave.endRegion else s.startBatch k n

/-- The lanes of a GEND taken out of PRODMASK and of the fragment (R276). -/
def retireLanes (c : Ctx) (w : Wave) : Wave :=
  let m := maskOf c.lanes
  let pm := w.landing.prodMask &&& ~~~m
  let w := { w with landing := { w.landing with prodMask := pm, drain := pm == 0 } }
  if c.fr.mask &&& ~~~m = 0 then { w with frags := w.frags.eraseIdx c.i }
  else w.setFrag c.i fun f => { f with mask := f.mask &&& ~~~m }

/-- The body of GEND (R276). -/
def gendBody (c : Ctx) (s : State) : Act :=
  match landingBad c false with
  | some n => landTrap c n
  | none =>
    let m := maskOf c.lanes
    let s := s.setWave c.k (retireLanes c)
    if c.fr.mask &&& ~~~m ≠ 0 then .next s
    else if c.w.landing.prodMask &&& ~~~m = 0 then .moved none (s.drainRegion c.k)
    else .moved none ((s.setWave c.k Wave.resolveJoins).deliverDue c.k)

/-- The body of GFLIP (R277), which starts no batch that would bring a fragment beyond 32 (R273, R282). -/
def gflipBody (c : Ctx) (s : State) : Act :=
  match landingBad c false with
  | some n => landTrap c n
  | none =>
    let n := min (batchB c.w.landing.bsz) c.w.landing.entries.length
    if n = 0 then .next s else if batchTooMany c then landTrap c 4 else .next (s.startBatch c.k n)

/-- The consumer fragments gone, and the batch's entries with them (R279). -/
def Wave.endBatch (w : Wave) : Wave :=
  { w with
    frags := w.frags.filter fun f => !f.cons
    landing := { w.landing with entries := w.landing.entries.drop w.landing.batch, batch := 0, mode := false } }

/-- The body of GNEXT (R279). -/
def gnextBody (c : Ctx) (s : State) : Act :=
  match landingBad c true with
  | some n => landTrap c n
  | none =>
    let all := (List.range c.w.frags.length).all fun j =>
      match c.w.frags[j]? with
      | none => true
      | some f => !f.cons || f.wait == .gnext || j == c.i
    if !all then .wait .gnext s
    else
      let s := ((s.release (clusterOf (coreOf c.k)) 0).firm c.k 0xFFFFFFFF).setWave c.k fun w => w.noEarly.endBatch
      if c.w.landing.prodMask ≠ 0 then .moved none s else .moved none (s.drainRegion c.k)

/-- The entry assigned to a lane (R278): the j-th lowest lane of the batch takes the j-th oldest entry. -/
def assigned (w : Wave) (l : Nat) : Word × Word × Word × Word :=
  w.landing.entries.getD ((lowestLanes w.landing.batch w.landing.regMask).idxOf l) (0, 0, 0, 0)

/-- Word j of an entry. -/
def entryWord (e : Word × Word × Word × Word) (j : Nat) : Word :=
  match j with
  | 0 => e.1
  | 1 => e.2.1
  | 2 => e.2.2.1
  | _ => e.2.2.2

/-- The body of TAKE (R280). -/
def takeBody (c : Ctx) (s : State) : Act :=
  match landingBad c true with
  | some n => landTrap c n
  | none =>
    .next (s.writeRegs c (c.lanes.flatMap fun l =>
      (List.range c.uimm).map fun j => (c.f.d.toNat + j, l, entryWord (assigned c.w l) j)))

/-- Bits [31:0] of the generator state record (R271). -/
def Landing.word (x : Landing) : Nat :=
  x.bsz.toNat * 2 ^ 19 + flagWord x.inReg * 2 ^ 18 + flagWord x.drain * 2 ^ 17 + flagWord x.mode * 2 ^ 16 +
    x.batch * 2 ^ 8 + x.entries.length

/-- The body of GSTAT (R281). -/
def gstatBody : Ctx → State → Act :=
  regBody fun c => c.lanes.flatMap fun l => wrVal 1 c.f.d.toNat l c.w.landing.word

/-- GEN (R274). -/
def execGen (f : XF) (s : State) : Out := runWave (.ofX 0x2C0 f) genBody s

/-- YLD (R275). -/
def execYld (f : XF) (s : State) : Out := runWave (.ofX 0x2C1 f) yldBody s

/-- GEND (R276). -/
def execGend (f : XF) (s : State) : Out := runWave (.ofX 0x2C3 f) gendBody s

/-- GFLIP (R277). -/
def execGflip (f : XF) (s : State) : Out := runWave (.ofX 0x2C5 f) gflipBody s

/-- GNEXT (R279). -/
def execGnext (f : XF) (s : State) : Out := runWave (.ofX 0x2C4 f) gnextBody s

/-- TAKE (R280). -/
def execTake (f : XF) (s : State) : Out := runWave (.ofX 0x2C2 f) takeBody s

/-- GSTAT (R281). -/
def execGstat (f : XF) (s : State) : Out := runWave (.ofX 0x2C6 f) gstatBody s

end Sys2Proof.Machine
end

