-- ==== Sys2Proof/Machine/Transcend.lean ====
section
/-! DEFINITION. Reciprocals, exponential, logarithm, sine and cosine (R178): the exact real value rounded toward zero.
Quotients and roots are exact; the others come from series in fixed point with 400 fraction bits, far more than any FP32
argument needs to decide 24 bits (log entry 8). -/

namespace Sys2Proof.Machine

open Sys2Proof

/-- Fraction bits of the fixed-point series. -/
def fixBits : Nat := 400

/-- One in fixed point. -/
def fixOne : Nat := 2 ^ fixBits

/-- The product of two fixed-point numbers. -/
def fixMul (a b : Nat) : Nat := a * b / fixOne

/-- Twice the inverse hyperbolic tangent of z in fixed point: z + z^3/3 + z^5/5 + ... , doubled. -/
def fixLn (z : Nat) : Nat :=
  let z2 := fixMul z z
  2 * ((List.range 160).foldl (fun (r : Nat × Nat) i => (fixMul r.1 z2, r.2 + r.1 / (2 * i + 1))) (z, 0)).2

/-- The natural logarithm of a fixed-point number from 1 to 2. -/
def fixLog (t : Nat) : Nat := fixLn ((t - fixOne) * fixOne / (t + fixOne))

/-- The natural logarithm of 2. -/
def fixLn2 : Nat := fixLog (2 * fixOne)

/-- The exponential of a fixed-point number from 0 to 1. -/
def fixExp (y : Nat) : Nat :=
  ((List.range 100).foldl (fun (r : Nat × Nat) i => (fixMul r.1 y / (i + 1), r.2 + r.1)) (fixOne, 0)).2

/-- The inverse tangent of 1/n in fixed point, by its alternating series. -/
def fixAtan (n : Nat) : Nat :=
  ((List.range 180).foldl (fun (r : Nat × Int) i =>
    (r.1 / (n * n), if i % 2 = 0 then r.2 + (r.1 / (2 * i + 1) : Nat) else r.2 - (r.1 / (2 * i + 1) : Nat)))
    (fixOne / n, 0)).2.toNat

/-- The number pi (Machin's formula). -/
def fixPi : Nat := 16 * fixAtan 5 - 4 * fixAtan 239

/-- The alternating power series of sine (from the first power) or cosine (from the zeroth) at a fixed-point angle up to
pi/2. -/
def fixTrig (sine : Bool) (y : Nat) : Nat :=
  let y2 := fixMul y y
  let k := fun i => if sine then (2 * i + 2) * (2 * i + 3) else (2 * i + 1) * (2 * i + 2)
  ((List.range 60).foldl (fun (r : Nat × Int) i =>
    (fixMul r.1 y2 / k i, if i % 2 = 0 then r.2 + (r.1 : Nat) else r.2 - (r.1 : Nat)))
    (if sine then y else fixOne, 0)).2.toNat

/-- 1/x, with the discarded part marked below the last place (R178). -/
def frcpVal : FVal → FVal
  | .nan => .nan
  | .inf s => .fin s 0 0
  | .fin s m e => if m = 0 then .inf s else .fin s (2 ^ 64 / m * 2 + 1) (-64 - e - 1)

/-- 1/x where x is a power of two times m: exact when m is a power of two. -/
def frcp (x : FVal) : FVal :=
  match x with
  | .fin s m e => if m ≠ 0 ∧ m = 2 ^ Nat.log2 m then .fin s 1 (-(topExp m e)) else frcpVal x
  | _ => frcpVal x

/-- 1/√x (R178). -/
def frsq : FVal → FVal
  | .nan => .nan
  | .inf s => if s then .nan else .fin false 0 0
  | .fin s m e =>
    if m = 0 then .inf s
    else if s then .nan
    else
      let m := if e % 2 = 0 then m else 2 * m
      let e := if e % 2 = 0 then e else e - 1
      .fin false (isqrt (2 ^ 128 / m)) (-64 - e / 2)

/-- 2^x (R178). -/
def fexp2 : FVal → FVal
  | .nan => .nan
  | .inf s => if s then .fin false 0 0 else .inf false
  | .fin s m e =>
    if m = 0 then .fin false 1 0
    else if 9 < topExp m e then (if s then .fin false 1 (-1024) else .inf false)
    else
      let x := if s then -(scaleTo m e (-fixBits) : Int) else scaleTo m e (-fixBits)
      let i := x / (fixOne : Int)
      let f := (x % (fixOne : Int)).toNat
      if f = 0 then .fin false 1 i else .fin false (fixExp (fixMul f fixLn2)) (i - fixBits)

/-- log2 x (R178). -/
def flog2 : FVal → FVal
  | .nan => .nan
  | .inf s => if s then .nan else .inf false
  | .fin s m e =>
    if m = 0 then .inf true
    else if s then .nan
    else
      let k := topExp m e
      let t := m * fixOne / 2 ^ Nat.log2 m
      let z : Int := k * fixOne + (fixLog t * fixOne / fixLn2 : Nat)
      if z = 0 then .fin false 0 0 else .fin (decide (z < 0)) z.natAbs (-fixBits)

/-- The value of sin(π·r) for r in quarter-turn q and the rest f below a half, in fixed point, by symmetry. -/
def trigQuarter (q f : Nat) : FVal :=
  let y := fixMul f fixPi
  match q % 4 with
  | 0 => if f = 0 then .fin false 0 0 else .fin false (fixTrig true y) (-fixBits)
  | 1 => if f = 0 then .fin false 1 0 else .fin false (fixTrig false y) (-fixBits)
  | 2 => if f = 0 then .fin false 0 0 else .fin true (fixTrig true y) (-fixBits)
  | _ => if f = 0 then .fin true 1 0 else .fin true (fixTrig false y) (-fixBits)

/-- sin(π·x), or cos(π·x) as the sine a quarter-turn on (R178): an exact zero of the sine has the sign of x. -/
def ftrig (cosine : Bool) : FVal → FVal
  | .nan => .nan
  | .inf _ => .nan
  | .fin s m e =>
    let x := scaleTo m e (-fixBits) % (2 * fixOne)
    let x := if cosine then x + fixOne / 2 else x
    let r := trigQuarter (x / (fixOne / 2)) (x % (fixOne / 2))
    match r with
    | .fin _ 0 g => .fin (if cosine then false else s) 0 g
    | .fin t n g => .fin (if cosine then t else t != s) n g
    | r => r

/-- A result of R178: toward zero, a magnitude of 2^128 or more is infinite, then flush-out. -/
def rtzRes (c : Ctx) (x : FVal) : Nat :=
  match x with
  | .fin s m e => if m ≠ 0 ∧ 128 ≤ topExp m e then f32.signed s f32.infCode else f32.enc 1 (modeSM c) x
  | _ => f32.enc 1 (modeSM c) x

/-- The body of an instruction of R178. -/
def rtzBody (g : FVal → FVal) : Ctx → State → Act :=
  laneBody (fun _ => 1) fun c l => rtzRes c (g (f32.read (modeSM c) (c.opA 1 l)))

/-- FRCP (R178). -/
def execFrcp (f : XF) (s : State) : Out := runWave (.ofX 0x108 f) (rtzBody frcp) s

/-- FRCP_B32 (R56). -/
def execFrcpB32 (f : BF) (s : State) : Out := runWave (.ofB 0x45 f) (rtzBody frcp) s

/-- FRSQ (R178). -/
def execFrsq (f : XF) (s : State) : Out := runWave (.ofX 0x109 f) (rtzBody frsq) s

/-- FRSQ_B32 (R56). -/
def execFrsqB32 (f : BF) (s : State) : Out := runWave (.ofB 0x46 f) (rtzBody frsq) s

/-- FEXP2 (R178). -/
def execFexp2 (f : XF) (s : State) : Out := runWave (.ofX 0x10B f) (rtzBody fexp2) s

/-- FEXP2_B32 (R56). -/
def execFexp2B32 (f : BF) (s : State) : Out := runWave (.ofB 0x48 f) (rtzBody fexp2) s

/-- FLOG2 (R178). -/
def execFlog2 (f : XF) (s : State) : Out := runWave (.ofX 0x10C f) (rtzBody flog2) s

/-- FLOG2_B32 (R56). -/
def execFlog2B32 (f : BF) (s : State) : Out := runWave (.ofB 0x49 f) (rtzBody flog2) s

/-- FSIN (R178). -/
def execFsin (f : XF) (s : State) : Out := runWave (.ofX 0x10D f) (rtzBody (ftrig false)) s

/-- FSIN_B32 (R56). -/
def execFsinB32 (f : BF) (s : State) : Out := runWave (.ofB 0x4A f) (rtzBody (ftrig false)) s

/-- FCOS (R178). -/
def execFcos (f : XF) (s : State) : Out := runWave (.ofX 0x10E f) (rtzBody (ftrig true)) s

/-- FCOS_B32 (R56). -/
def execFcosB32 (f : BF) (s : State) : Out := runWave (.ofB 0x4B f) (rtzBody (ftrig true)) s

end Sys2Proof.Machine
end

