-- ==== Sys2Proof/Machine/Waits.lean ====
section
/-! DEFINITION. The end of a wait: whether the instruction that a fragment waits in would get on now, and the events that wake a WAITA
and return an evicted wave (R128, R129, R140). -/

namespace Sys2Proof.Machine

open Sys2Proof

/-- The party of the fetch of a fragment, its fragment, and the words of the instruction at its address that memory holds. -/
def State.wordsAt (s : State) (k i : Nat) : Option (List Word) :=
  match (Tab.find k s.waves).bind fun w => (w.frags[i]?).map fun f => (w, f) with
  | none => none
  | some (w, f) =>
    match s.fetchWord (s.whoOf k w) f.held f.pc with
    | .bad _ _ => none
    | .word x => (s.fetchWords (s.whoOf k w) f.held f.pc (instrWords x)).toOption

/-- Whether fragment i of a wave still waits in a state as it did in another: at its instruction, with nothing more of it
done; lanes of a WAITA that are satisfied do not make it ready while others are not (R128, R140). -/
def stillWaits (k i : Nat) (s t : State) : Bool :=
  match (Tab.find k s.waves).bind fun w => w.frags[i]?, (Tab.find k t.waves).bind fun w => w.frags[i]? with
  | some f, some g =>
    g.wait != .none && g.pc == f.pc && g.launchLane == f.launchLane &&
      match f.wait, g.wait with
      | .host a, .host b => a == b
      | _, .host _ => false
      | .held, .held => true
      | _, .held => false
      | _, _ => true
  | _, _ => false

/-- Whether the waiting instruction of fragment i of wave k, run by a meaning, gets on: it completes, or does more of what it
waits for, or finds a partition fault (R370). -/
def getsOn (run : State → Out) (k i : Nat) (s : State) : Bool :=
  match run { s with cur := some (k, i) } with
  | .next t => !stillWaits k i s t || t.parts.map (fun e => e.2.faulting) != s.parts.map fun e => e.2.faulting
  | _ => false

/-- Whether the next instruction of a fragment that does not wait, run by a meaning, would only stall. -/
def stalls (run : State → Out) (k i : Nat) (s : State) : Bool :=
  match run { s with cur := some (k, i) } with
  | .next t =>
    (((Tab.find k t.waves).bind fun w => w.frags[i]?).map fun f => f.wait == .stall).getD false &&
      t.parts.map (fun e => e.2.faulting) == s.parts.map fun e => e.2.faulting
  | _ => false

/-- Whether a page of the team of a wave is not pinned. -/
def State.someAway (s : State) (k : Nat) : Bool :=
  (((Tab.find k s.waves).bind s.teamOf).map fun tm => tm.pages.any fun q => !q.2.pinned).getD false

/-- The meaning of an instruction that waits under R129. -/
def waitingExec (j : Instr) : Option (State → Out) :=
  match j with
  | .bara f => some (execBara f)
  | .barw f => some (execBarw f)
  | .waita f => some (execWaita f)
  | .waitb f => some (execWaitb f)
  | .push f => some (execPush f)
  | .launch f => some (execLaunch f)
  | .tlpop f => some (execTlpop f)
  | .gen f => some (execGen f)
  | .sysw f => some (execSysw f)
  | _ => none

/-- Whether the condition of a wait under R129 of fragment i of wave k holds. -/
def State.waitOver (s : State) (k i : Nat) : Bool :=
  match s.wordsAt k i with
  | none => false
  | some ws =>
    match decode ws with
    | .ok j => ((waitingExec j).map fun run => getsOn run k i s).getD false
    | _ => false

/-- WAITA_WAKE (R128): the lanes of a waiting WAITA that a write has satisfied are woken with the values read; the fragment is
ready again once every lane is. Nothing while its wave does not run. -/
def execWaitaWake (wave frag : Nat) (s : State) : Out :=
  if !s.ready wave frag then .next s
  else
    match (Tab.find wave s.waves).bind fun w => (w.frags[frag]?).map fun f => (w, f), s.wordsAt wave frag with
    | some (w, f), some ws =>
      match f.wait, decode ws with
      | .retry, .ok (.waita x) =>
        let c : Ctx := ⟨wave, w, frag, f, .ofX 0x290 x⟩
        let as := typeAccs c c.ea true false
        match s.teamOf w with
        | none => .next s
        | some tm =>
          if (c.failing s tm as).isSome || as.any (s.breaks (s.partOf w) tm) || !s.canPin w.team (teamAddrs as) then .next s
          else
            let r := s.loadEach (c.who s) (sizeT c) (c.actors.map fun l => (l, c.ea l))
            let got := waitedNow c f.got r.1
            let t := (r.2.perform wave frag as).setFrag wave frag fun f => { f with got := got }
            .next (if c.actors.all fun l => (got.lookup l).isSome then
              (t.setFrag wave frag fun f => { f with wait := .none }).stir wave else t)
      | _, _ => .next s
    | _, _ => .next s

/-- Whether fragment i of wave k is at no instruction that waits under R129. -/
def State.freeAt (s : State) (k i : Nat) : Bool :=
  match s.wordsAt k i with
  | none => true
  | some ws =>
    match decode ws with
    | .ok j => (waitingExec j).isNone
    | _ => true

/-- Whether the condition of a spilt wave holds (R129): a fragment of it would get on if its context stood in its slot. -/
def State.wakesSpilt (s : State) (k : Nat) (w : Wave) : Bool :=
  let t := s.setWave k fun w => { w with spilt := false }
  (List.range w.frags.length).any fun i => t.ready k i && (t.freeAt k i || t.waitOver k i)

/-- EVICTED_WAVE_RESUME (R129): an evicted wave of a running team returns to its slot once its condition holds and the slot,
and what else of it was claimed, is free. -/
def execEvictedWaveResume (wave : Nat) (s : State) : Out :=
  match Tab.find wave s.waves with
  | none => .next s
  | some w =>
    if w.spilt && s.runs w && s.canReturn wave w && s.wakesSpilt wave w then
      .next (s.setWave wave fun w => { w with spilt := false, evictable := false })
    else .next s

end Sys2Proof.Machine
end

