-- ==== Sys2Proof/Machine/Dispatch.lean ====
section
/-! DEFINITION. The dispatch of an instruction to its meaning: one arm per constructor of Instr. -/

namespace Sys2Proof.Machine

open Sys2Proof

/-- What an instruction, or an event of the opcode table, does to the state. -/
def exec (i : Instr) (s : State) : Host.Outcome State Fault Refusal :=
  match i with
  | .iadd f => Sys2Proof.Machine.execIadd f s
  | .iaddB32 f => Sys2Proof.Machine.execIaddB32 f s
  | .iaddB32Imm f => Sys2Proof.Machine.execIaddB32Imm f s
  | .iaddImm f => Sys2Proof.Machine.execIaddImm f s
  | .isub f => Sys2Proof.Machine.execIsub f s
  | .isubB32 f => Sys2Proof.Machine.execIsubB32 f s
  | .isubB32Imm f => Sys2Proof.Machine.execIsubB32Imm f s
  | .isubImm f => Sys2Proof.Machine.execIsubImm f s
  | .iaddc f => Sys2Proof.Machine.execIaddc f s
  | .iaddcB32 f => Sys2Proof.Machine.execIaddcB32 f s
  | .isubb f => Sys2Proof.Machine.execIsubb f s
  | .isubbB32 f => Sys2Proof.Machine.execIsubbB32 f s
  | .ineg f => Sys2Proof.Machine.execIneg f s
  | .inegB32 f => Sys2Proof.Machine.execInegB32 f s
  | .iabs f => Sys2Proof.Machine.execIabs f s
  | .iabsB32 f => Sys2Proof.Machine.execIabsB32 f s
  | .imul f => Sys2Proof.Machine.execImul f s
  | .imulB32 f => Sys2Proof.Machine.execImulB32 f s
  | .imulB32Imm f => Sys2Proof.Machine.execImulB32Imm f s
  | .imulImm f => Sys2Proof.Machine.execImulImm f s
  | .imulh f => Sys2Proof.Machine.execImulh f s
  | .imulhB32 f => Sys2Proof.Machine.execImulhB32 f s
  | .imad f => Sys2Proof.Machine.execImad f s
  | .icsadd f => Sys2Proof.Machine.execIcsadd f s
  | .idiv f => Sys2Proof.Machine.execIdiv f s
  | .imin f => Sys2Proof.Machine.execImin f s
  | .iminB32 f => Sys2Proof.Machine.execIminB32 f s
  | .iminB32Imm f => Sys2Proof.Machine.execIminB32Imm f s
  | .iminImm f => Sys2Proof.Machine.execIminImm f s
  | .imax f => Sys2Proof.Machine.execImax f s
  | .imaxB32 f => Sys2Proof.Machine.execImaxB32 f s
  | .imaxB32Imm f => Sys2Proof.Machine.execImaxB32Imm f s
  | .imaxImm f => Sys2Proof.Machine.execImaxImm f s
  | .iclamp f => Sys2Proof.Machine.execIclamp f s
  | .isat f => Sys2Proof.Machine.execIsat f s
  | .and f => Sys2Proof.Machine.execAnd f s
  | .andB32 f => Sys2Proof.Machine.execAndB32 f s
  | .andB32Imm f => Sys2Proof.Machine.execAndB32Imm f s
  | .andImm f => Sys2Proof.Machine.execAndImm f s
  | .or f => Sys2Proof.Machine.execOr f s
  | .orB32 f => Sys2Proof.Machine.execOrB32 f s
  | .orB32Imm f => Sys2Proof.Machine.execOrB32Imm f s
  | .orImm f => Sys2Proof.Machine.execOrImm f s
  | .xor f => Sys2Proof.Machine.execXor f s
  | .xorB32 f => Sys2Proof.Machine.execXorB32 f s
  | .xorB32Imm f => Sys2Proof.Machine.execXorB32Imm f s
  | .xorImm f => Sys2Proof.Machine.execXorImm f s
  | .andn f => Sys2Proof.Machine.execAndn f s
  | .andnB32 f => Sys2Proof.Machine.execAndnB32 f s
  | .andnB32Imm f => Sys2Proof.Machine.execAndnB32Imm f s
  | .andnImm f => Sys2Proof.Machine.execAndnImm f s
  | .not f => Sys2Proof.Machine.execNot f s
  | .notB32 f => Sys2Proof.Machine.execNotB32 f s
  | .shl f => Sys2Proof.Machine.execShl f s
  | .shlB32 f => Sys2Proof.Machine.execShlB32 f s
  | .shlB32Imm f => Sys2Proof.Machine.execShlB32Imm f s
  | .shlImm f => Sys2Proof.Machine.execShlImm f s
  | .shr f => Sys2Proof.Machine.execShr f s
  | .shrB32 f => Sys2Proof.Machine.execShrB32 f s
  | .shrB32Imm f => Sys2Proof.Machine.execShrB32Imm f s
  | .shrImm f => Sys2Proof.Machine.execShrImm f s
  | .sar f => Sys2Proof.Machine.execSar f s
  | .sarB32 f => Sys2Proof.Machine.execSarB32 f s
  | .sarB32Imm f => Sys2Proof.Machine.execSarB32Imm f s
  | .sarImm f => Sys2Proof.Machine.execSarImm f s
  | .rot f => Sys2Proof.Machine.execRot f s
  | .rotB32 f => Sys2Proof.Machine.execRotB32 f s
  | .rotB32Imm f => Sys2Proof.Machine.execRotB32Imm f s
  | .rotImm f => Sys2Proof.Machine.execRotImm f s
  | .bfx f => Sys2Proof.Machine.execBfx f s
  | .bfi f => Sys2Proof.Machine.execBfi f s
  | .popc f => Sys2Proof.Machine.execPopc f s
  | .popcB32 f => Sys2Proof.Machine.execPopcB32 f s
  | .clz f => Sys2Proof.Machine.execClz f s
  | .clzB32 f => Sys2Proof.Machine.execClzB32 f s
  | .ctz f => Sys2Proof.Machine.execCtz f s
  | .ctzB32 f => Sys2Proof.Machine.execCtzB32 f s
  | .brev f => Sys2Proof.Machine.execBrev f s
  | .brevB32 f => Sys2Proof.Machine.execBrevB32 f s
  | .icmp f => Sys2Proof.Machine.execIcmp f s
  | .sel f => Sys2Proof.Machine.execSel f s
  | .lea f => Sys2Proof.Machine.execLea f s
  | .mov f => Sys2Proof.Machine.execMov f s
  | .movB32 f => Sys2Proof.Machine.execMovB32 f s
  | .movi f => Sys2Proof.Machine.execMovi f s
  | .moviB32 f => Sys2Proof.Machine.execMoviB32 f s
  | .bra f => Sys2Proof.Machine.execBra f s
  | .braB32 f => Sys2Proof.Machine.execBraB32 f s
  | .brc f => Sys2Proof.Machine.execBrc f s
  | .join f => Sys2Proof.Machine.execJoin f s
  | .joinB32 f => Sys2Proof.Machine.execJoinB32 f s
  | .call f => Sys2Proof.Machine.execCall f s
  | .callB32 f => Sys2Proof.Machine.execCallB32 f s
  | .ret f => Sys2Proof.Machine.execRet f s
  | .retB32 f => Sys2Proof.Machine.execRetB32 f s
  | .jmpx f => Sys2Proof.Machine.execJmpx f s
  | .jmpxB32 f => Sys2Proof.Machine.execJmpxB32 f s
  | .rep f => Sys2Proof.Machine.execRep f s
  | .exit f => Sys2Proof.Machine.execExit f s
  | .exitB32 f => Sys2Proof.Machine.execExitB32 f s
  | .nop f => Sys2Proof.Machine.execNop f s
  | .nopB32 f => Sys2Proof.Machine.execNopB32 f s
  | .shfl f => Sys2Proof.Machine.execShfl f s
  | .vote f => Sys2Proof.Machine.execVote f s
  | .redx f => Sys2Proof.Machine.execRedx f s
  | .scanx f => Sys2Proof.Machine.execScanx f s
  | .matchLanes f => Sys2Proof.Machine.execMatchLanes f s
  | .get f => Sys2Proof.Machine.execGet f s
  | .setmode f => Sys2Proof.Machine.execSetmode f s
  | .getmode f => Sys2Proof.Machine.execGetmode f s
  | .xlock f => Sys2Proof.Machine.execXlock f s
  | .xfree f => Sys2Proof.Machine.execXfree f s
  | .fadd f => Sys2Proof.Machine.execFadd f s
  | .faddB32 f => Sys2Proof.Machine.execFaddB32 f s
  | .fsub f => Sys2Proof.Machine.execFsub f s
  | .fsubB32 f => Sys2Proof.Machine.execFsubB32 f s
  | .fmul f => Sys2Proof.Machine.execFmul f s
  | .fmulB32 f => Sys2Proof.Machine.execFmulB32 f s
  | .ffma f => Sys2Proof.Machine.execFfma f s
  | .fmin f => Sys2Proof.Machine.execFmin f s
  | .fminB32 f => Sys2Proof.Machine.execFminB32 f s
  | .fmax f => Sys2Proof.Machine.execFmax f s
  | .fmaxB32 f => Sys2Proof.Machine.execFmaxB32 f s
  | .fcmp f => Sys2Proof.Machine.execFcmp f s
  | .fclass f => Sys2Proof.Machine.execFclass f s
  | .frcp f => Sys2Proof.Machine.execFrcp f s
  | .frcpB32 f => Sys2Proof.Machine.execFrcpB32 f s
  | .frsq f => Sys2Proof.Machine.execFrsq f s
  | .frsqB32 f => Sys2Proof.Machine.execFrsqB32 f s
  | .fsqrt f => Sys2Proof.Machine.execFsqrt f s
  | .fsqrtB32 f => Sys2Proof.Machine.execFsqrtB32 f s
  | .fexp2 f => Sys2Proof.Machine.execFexp2 f s
  | .fexp2B32 f => Sys2Proof.Machine.execFexp2B32 f s
  | .flog2 f => Sys2Proof.Machine.execFlog2 f s
  | .flog2B32 f => Sys2Proof.Machine.execFlog2B32 f s
  | .fsin f => Sys2Proof.Machine.execFsin f s
  | .fsinB32 f => Sys2Proof.Machine.execFsinB32 f s
  | .fcos f => Sys2Proof.Machine.execFcos f s
  | .fcosB32 f => Sys2Proof.Machine.execFcosB32 f s
  | .fcvt f => Sys2Proof.Machine.execFcvt f s
  | .cvtif f => Sys2Proof.Machine.execCvtif f s
  | .cvtfi f => Sys2Proof.Machine.execCvtfi f s
  | .padd2 f => Sys2Proof.Machine.execPadd2 f s
  | .padd2B32 f => Sys2Proof.Machine.execPadd2B32 f s
  | .pmul2 f => Sys2Proof.Machine.execPmul2 f s
  | .pmul2B32 f => Sys2Proof.Machine.execPmul2B32 f s
  | .pfma2 f => Sys2Proof.Machine.execPfma2 f s
  | .idot4 f => Sys2Proof.Machine.execIdot4 f s
  | .unpk3 f => Sys2Proof.Machine.execUnpk3 f s
  | .unpkn f => Sys2Proof.Machine.execUnpkn f s
  | .packn f => Sys2Proof.Machine.execPackn f s
  | .bfpq f => Sys2Proof.Machine.execBfpq f s
  | .ssi f => Sys2Proof.Machine.execSsi f s
  | .kins f => Sys2Proof.Machine.execKins f s
  | .act f => Sys2Proof.Machine.execAct f s
  | .actld f => Sys2Proof.Machine.execActld f s
  | .sld f => Sys2Proof.Machine.execSld f s
  | .sst f => Sys2Proof.Machine.execSst f s
  | .sstStream f => Sys2Proof.Machine.execSstStream f s
  | .smov f => Sys2Proof.Machine.execSmov f s
  | .sbind f => Sys2Proof.Machine.execSbind f s
  | .sadd f => Sys2Proof.Machine.execSadd f s
  | .ssub f => Sys2Proof.Machine.execSsub f s
  | .smax f => Sys2Proof.Machine.execSmax f s
  | .smin f => Sys2Proof.Machine.execSmin f s
  | .scvt f => Sys2Proof.Machine.execScvt f s
  | .sacc f => Sys2Proof.Machine.execSacc f s
  | .sqry f => Sys2Proof.Machine.execSqry f s
  | .trap f => Sys2Proof.Machine.execTrap f s
  | .trapB32 f => Sys2Proof.Machine.execTrapB32 f s
  | .tret f => Sys2Proof.Machine.execTret f s
  | .bkpt f => Sys2Proof.Machine.execBkpt f s
  | .bkptB32 f => Sys2Proof.Machine.execBkptB32 f s
  | .sysr f => Sys2Proof.Machine.execSysr f s
  | .sysw f => Sys2Proof.Machine.execSysw f s
  | .icinv f => Sys2Proof.Machine.execIcinv f s
  | .ld f => Sys2Proof.Machine.execLd f s
  | .ldB32 f => Sys2Proof.Machine.execLdB32 f s
  | .st f => Sys2Proof.Machine.execSt f s
  | .stB32 f => Sys2Proof.Machine.execStB32 f s
  | .ldu f => Sys2Proof.Machine.execLdu f s
  | .lduB32 f => Sys2Proof.Machine.execLduB32 f s
  | .ldbf f => Sys2Proof.Machine.execLdbf f s
  | .pref f => Sys2Proof.Machine.execPref f s
  | .prefB32 f => Sys2Proof.Machine.execPrefB32 f s
  | .spmap f => Sys2Proof.Machine.execSpmap f s
  | .stash f => Sys2Proof.Machine.execStash f s
  | .unstash f => Sys2Proof.Machine.execUnstash f s
  | .flush f => Sys2Proof.Machine.execFlush f s
  | .inval f => Sys2Proof.Machine.execInval f s
  | .atom f => Sys2Proof.Machine.execAtom f s
  | .acas f => Sys2Proof.Machine.execAcas f s
  | .aincb f => Sys2Proof.Machine.execAincb f s
  | .afadd f => Sys2Proof.Machine.execAfadd f s
  | .fence f => Sys2Proof.Machine.execFence f s
  | .bari f => Sys2Proof.Machine.execBari f s
  | .bara f => Sys2Proof.Machine.execBara f s
  | .barx f => Sys2Proof.Machine.execBarx f s
  | .barw f => Sys2Proof.Machine.execBarw f s
  | .waita f => Sys2Proof.Machine.execWaita f s
  | .push f => Sys2Proof.Machine.execPush f s
  | .seal f => Sys2Proof.Machine.execSeal f s
  | .waitb f => Sys2Proof.Machine.execWaitb f s
  | .qstat f => Sys2Proof.Machine.execQstat f s
  | .gen f => Sys2Proof.Machine.execGen f s
  | .yld f => Sys2Proof.Machine.execYld f s
  | .gend f => Sys2Proof.Machine.execGend f s
  | .gflip f => Sys2Proof.Machine.execGflip f s
  | .gnext f => Sys2Proof.Machine.execGnext f s
  | .take f => Sys2Proof.Machine.execTake f s
  | .gstat f => Sys2Proof.Machine.execGstat f s
  | .launch f => Sys2Proof.Machine.execLaunch f s
  | .cutq f => Sys2Proof.Machine.execCutq f s
  | .tlpop f => Sys2Proof.Machine.execTlpop f s
  | .tldone f => Sys2Proof.Machine.execTldone f s
  | .alLdw cl ctx rd rs1 imm => Sys2Proof.Machine.execAlLdw cl ctx rd rs1 imm s
  | .alFetch cl ctx rd rs1 imm => Sys2Proof.Machine.execAlFetch cl ctx rd rs1 imm s
  | .alDrop cl ctx rd rs1 imm => Sys2Proof.Machine.execAlDrop cl ctx rd rs1 imm s
  | .alArg cl ctx rd rs1 imm => Sys2Proof.Machine.execAlArg cl ctx rd rs1 imm s
  | .alEnd cl ctx rd rs1 imm => Sys2Proof.Machine.execAlEnd cl ctx rd rs1 imm s
  | .alStw cl ctx rs2 rs1 imm => Sys2Proof.Machine.execAlStw cl ctx rs2 rs1 imm s
  | .alSend cl ctx rs2 rs1 imm => Sys2Proof.Machine.execAlSend cl ctx rs2 rs1 imm s
  | .handlerInstruction cl ctx len r => Sys2Proof.Machine.execHandlerInstruction cl ctx len r s
  | .actldCommit core => Sys2Proof.Machine.execActldCommit core s
  | .stashFill team page line => Sys2Proof.Machine.execStashFill team page line s
  | .waitaWake wave frag => Sys2Proof.Machine.execWaitaWake wave frag s
  | .resultReturn wave => Sys2Proof.Machine.execResultReturn wave s
  | .parkComplete wave => Sys2Proof.Machine.execParkComplete wave s
  | .starvationIssue core quad => Sys2Proof.Machine.execStarvationIssue core quad s
  | .waitThreshold wave => Sys2Proof.Machine.execWaitThreshold wave s
  | .evictedWaveResume wave => Sys2Proof.Machine.execEvictedWaveResume wave s
  | .cpLin core q idx n => Sys2Proof.Machine.execCpLin core q idx n s
  | .cpTile core q idx n => Sys2Proof.Machine.execCpTile core q idx n s
  | .cpGath core q idx n => Sys2Proof.Machine.execCpGath core q idx n s
  | .cpStrm core q idx n => Sys2Proof.Machine.execCpStrm core q idx n s
  | .cpPeer core q idx n => Sys2Proof.Machine.execCpPeer core q idx n s
  | .cpFill core q idx n => Sys2Proof.Machine.execCpFill core q idx n s
  | .copyResume core q idx => Sys2Proof.Machine.execCopyResume core q idx s
  | .mxZero core => Sys2Proof.Machine.execMxZero core s
  | .mxMul core => Sys2Proof.Machine.execMxMul core s
  | .mxMulTileCheck core => Sys2Proof.Machine.execMxMulTileCheck core s
  | .mxDrain core => Sys2Proof.Machine.execMxDrain core s
  | .mxLoadc core => Sys2Proof.Machine.execMxLoadc core s
  | .mxArrive core => Sys2Proof.Machine.execMxArrive core s
  | .alcoveMessage cl => Sys2Proof.Machine.execAlcoveMessage cl s
  | .miss line kind core => Sys2Proof.Machine.execMiss line kind core s
  | .fill line => Sys2Proof.Machine.execFill line s
  | .evict line => Sys2Proof.Machine.execEvict line s
  | .handlerStart cl cls => Sys2Proof.Machine.execHandlerStart cl cls s
  | .budgetOverrun cl ctx => Sys2Proof.Machine.execBudgetOverrun cl ctx s
  | .doorbell q v => Sys2Proof.Machine.execDoorbell q v s
  | .qbase q v => Sys2Proof.Machine.execQbase q v s
  | .launchPacket q => Sys2Proof.Machine.execLaunchPacket q s
  | .barrierPacket q => Sys2Proof.Machine.execBarrierPacket q s
  | .barrierEvaluation q => Sys2Proof.Machine.execBarrierEvaluation q s
  | .copyPacket q id => Sys2Proof.Machine.execCopyPacket q id s
  | .tilesPacket q => Sys2Proof.Machine.execTilesPacket q s
  | .signalPacket q => Sys2Proof.Machine.execSignalPacket q s
  | .markerPacket q => Sys2Proof.Machine.execMarkerPacket q s
  | .launchAcceptance id => Sys2Proof.Machine.execLaunchAcceptance id s
  | .teamDispatch id die core => Sys2Proof.Machine.execTeamDispatch id die core s
  | .coresidentPlacement id cores => Sys2Proof.Machine.execCoresidentPlacement id cores s
  | .teamRetire team => Sys2Proof.Machine.execTeamRetire team s
  | .windowEvaluation id => Sys2Proof.Machine.execWindowEvaluation id s
  | .launchCompletion id => Sys2Proof.Machine.execLaunchCompletion id s
  | .peerAck id bytes => Sys2Proof.Machine.execPeerAck id bytes s
  | .flitResend id bytes tries => Sys2Proof.Machine.execFlitResend id bytes tries s
  | .linkDown port lane => Sys2Proof.Machine.execLinkDown port lane s
  | .congestionMark part core => Sys2Proof.Machine.execCongestionMark part core s
  | .rateRaise part core => Sys2Proof.Machine.execRateRaise part core s
  | .fillSignalPoll id expert => Sys2Proof.Machine.execFillSignalPoll id expert s
  | .teamResume team => Sys2Proof.Machine.execTeamResume team s
  | .faultAnswer part tag resp => Sys2Proof.Machine.execFaultAnswer part tag resp s
  | .cxlMemAccess part addr n data => Sys2Proof.Machine.execCxlMemAccess part addr n data s
  | .partitionFault part line => Sys2Proof.Machine.execPartitionFault part line s
  | .repart layout timeout => Sys2Proof.Machine.execRepart layout timeout s
  | .repartDrainEnd => Sys2Proof.Machine.execRepartDrainEnd s
  | .repartTimeout => Sys2Proof.Machine.execRepartTimeout s
  | .watchdogReset => Sys2Proof.Machine.execWatchdogReset s
  | .preempt part ids => Sys2Proof.Machine.execPreempt part ids s
  | .resume part ids => Sys2Proof.Machine.execResume part ids s
  | .setpool pool part rsv cap => Sys2Proof.Machine.execSetpool pool part rsv cap s
  | .setqueue q part => Sys2Proof.Machine.execSetqueue q part s
  | .alcove part cmd => Sys2Proof.Machine.execAlcove part cmd s
  | .setlink port entries => Sys2Proof.Machine.execSetlink port entries s
  | .faultq part base size => Sys2Proof.Machine.execFaultq part base size s
  | .setwait part cycles => Sys2Proof.Machine.execSetwait part cycles s
  | .features => Sys2Proof.Machine.execFeatures s
  | .accept bits => Sys2Proof.Machine.execAccept bits s
  | .attest nonce => Sys2Proof.Machine.execAttest nonce s
  | .telemetry => Sys2Proof.Machine.execTelemetry s
  | .update addr => Sys2Proof.Machine.execUpdate addr s
  | .idcert => Sys2Proof.Machine.execIdcert s
  | .deviceReset => Sys2Proof.Machine.execDeviceReset s
  | .voltageLoop core => Sys2Proof.Machine.execVoltageLoop core s
  | .frequencyLoop core => Sys2Proof.Machine.execFrequencyLoop core s
  | .powerLoop core => Sys2Proof.Machine.execPowerLoop core s
  | .equalisation port lane => Sys2Proof.Machine.execEqualisation port lane s
  | .debugContinue team => Sys2Proof.Machine.execDebugContinue team s
  | .waveStep team w => Sys2Proof.Machine.execWaveStep team w s
  | .fragmentStep team w frag => Sys2Proof.Machine.execFragmentStep team w frag s
  | .laneStep team w lane => Sys2Proof.Machine.execLaneStep team w lane s
  | .leythRegisterWrite wave reg lane v => Sys2Proof.Machine.execLeythRegisterWrite wave reg lane v s
  | .registerWrite r => Sys2Proof.Machine.execRegisterWrite r s
  | .peerStoreArrival port lane addr data => Sys2Proof.Machine.execPeerStoreArrival port lane addr data s
  | .narrowLinePublication cl line => Sys2Proof.Machine.execNarrowLinePublication cl line s
  | .debugContextTake id taken => Sys2Proof.Machine.execDebugContextTake id taken s
  | .cxlCacheSnoop line inval => Sys2Proof.Machine.execCxlCacheSnoop line inval s

end Sys2Proof.Machine
end

