-- ==== Sys2Proof/Machine/Turns.lean ====
section
/-! DEFINITION. The turns of the agents: the issue of a fragment's instruction from its fetch on (R26, R41, R140, R226), the
engines, the Alcove contexts, and the device's own turns when no turn is given from outside. -/

namespace Sys2Proof.Machine

open Sys2Proof

/-! ### Breakpoints (R226) -/

/-- Whether breakpoint b fires at a fragment's next instruction (R226). -/
def Debug.breaksAt (d : Debug) (f : Frag) (b : Nat) : Bool :=
  let ctl := Tab.getD 0 b d.bpCtl
  let lane := (bits ctl 24 5).toNat
  let iter := (bits ctl 0 24).toNat
  let inIter := match f.rep with
    | none => false
    | some r => (r.n - r.left).toNat % 2 ^ 24 == iter
  ctl.getLsbD 31 && Tab.getD 0 b d.bpAddr == f.pc && !f.bpSkip.contains b &&
    (!ctl.getLsbD 29 || f.mask.getLsbD lane) && (!ctl.getLsbD 30 || inIter)

/-- The lowest breakpoint of a launch that fires at a fragment's next instruction, while its context is held. -/
def State.breakpoint (s : State) (w : Wave) (f : Frag) : Option Nat :=
  match s.launchOf w with
  | none => none
  | some l => if l.dbg.taken then (List.range 8).find? (l.dbg.breaksAt f) else none

/-- The debug halt of a breakpoint, before the instruction issues (R226). -/
def State.haltAt (k i : Nat) (w : Wave) (b : Nat) (s : State) : State :=
  (s.setFrag k i fun f => { f with bpSkip := b :: f.bpSkip }).setTeam w.team fun tm =>
    { tm with halt := some ⟨0x10, b, k, i, none⟩, step := none }

/-! ### Fetch (R26, R353, R370) -/

/-- What fetching an instruction answers: its words, a trap with the address of the failing word, or a partition fault. -/
inductive FetchOut
  | words (ws : List Word)
  | bad (code sub : Nat) (a : Dword)
  | broken
deriving DecidableEq, Repr

/-- The words of an instruction at an address held for a fragment (R218). -/
def Frag.keep (pc : Dword) (ws : List Word) (f : Frag) : Frag :=
  { f with held := ws.zipIdx.foldl (fun t x => Tab.put (pc + BitVec.ofNat 64 (4 * x.2)).toNat x.1 t) f.held }

/-- The instruction at an address (R25, R26): its first word gives the number of its words. -/
def State.fetchIns (s : State) (who : Who) (held : Tab Word) (pc : Dword) : FetchOut :=
  match s.fetchWord who held pc with
  | .bad c u => .bad c u pc
  | .word w =>
    if s.fetchBreaks who held pc then .broken
    else
      match s.fetchWords who held pc (instrWords w) with
      | .error e => .bad e.1 e.2.1 e.2.2
      | .ok ws =>
        if (List.range ws.length).any fun j => s.fetchBreaks who held (pc + BitVec.ofNat 64 (4 * j)) then .broken
        else .words ws

/-! ### Issue (R41, R140, R141) -/

/-- Whether an instruction that fragment i of wave k does not yet wait in lacks a resource (R140): room in the scale FIFO (R200),
or a pinned page that it can have (R102). An XLOCK issues and stalls (R134). Log entry 121. -/
def State.lacks (s : State) (k i : Nat) (j : Instr) : Bool :=
  match j with
  | .sstStream _ => stalls (exec j) k i s
  | .xlock _ => false
  | _ => s.someAway k && stalls (exec j) k i s

/-- Whether some instruction of wave k may lack a resource: a page is not pinned, or a scale FIFO of its core is as good as
full. -/
def State.scarce (s : State) (k : Nat) : Bool :=
  let mx := (s.core (coreOf k)).mx
  s.someAway k || [false, true].any fun w => decide (scaleFifo < (mx.scales w).length + 32)

/-- Whether a fragment does not wait and has what its next instruction needs, or what it waits for has come (R129, R140). -/
def State.goes (s : State) (x : Nat × Nat) : Bool :=
  match (Tab.find x.1 s.waves).bind fun w => w.frags[x.2]? with
  | none => false
  | some f =>
    (f.wait == .none && !s.scarce x.1) ||
      match s.wordsAt x.1 x.2 with
      | none => true
      | some ws =>
        match decode ws with
        | .ok j => if f.wait = .none then !s.lacks x.1 x.2 j else getsOn (exec j) x.1 x.2 s
        | _ => true

/-- The fragments of a quadrant of a core that are ready (R140). -/
def State.issuable (s : State) (core q : Nat) : List (Nat × Nat) := (s.quadReady core q).filter s.goes

/-- An issue cycle of the quadrant of wave k that fragment i of it takes: every other ready fragment has been passed over once
more (R141). -/
def State.passOver (k i : Nat) (s : State) : State :=
  let rs := s.issuable (coreOf k) (slotOf k % Config.slotsPerCore / Config.slotsPerQuad)
  let one := fun (j n : Nat) (f : Frag) =>
    { f with readyFor := if j = k ∧ n = i then 0 else if rs.contains (j, n) then f.readyFor + 1 else 0 }
  { s with waves := s.waves.map fun e =>
      if quadOf (slotOf e.1) = quadOf (slotOf k) then (e.1, { e.2 with frags := e.2.frags.mapIdx (one e.1) }) else e }

/-- The trap of an instruction whose words are no instruction (R41 steps 2 and 3, R213). -/
def wordTrap (code : Nat) (fr : Frag) (ws : List Word) : TrapInfo :=
  { code := code, lane := lowLane fr.mask, info := ws.headD 0 }

/-- The trap of a failed fetch (R26, R213). -/
def fetchTrap (code sub : Nat) (a : Dword) (fr : Frag) : TrapInfo :=
  { code := code, sub := sub, lane := lowLane fr.mask, addr := a }

/-- The instruction that fragment i of wave k has fetched, run (R41). -/
def runWords (k i : Nat) (w : Wave) (fr : Frag) (ws : List Word) (s : State) : Out :=
  match decode ws with
  | .ok j => exec j s
  | .illegalOpcode => .next ((s.tick (coreOf k)).trapIssue k i w (wordTrap 0x01 fr ws))
  | .illegalEncoding => .next ((s.tick (coreOf k)).trapIssue k i w (wordTrap 0x02 fr ws))
  | .short => .next s

/-- The fetch and execution of the next instruction of fragment i of wave k (R26, R41); the core holds its words from then on
(R218). -/
def fetchAndRun (k i : Nat) (w : Wave) (fr : Frag) (s : State) : Out :=
  let who := s.whoOf k w
  let s := s.fetchPrep who fr.held fr.pc
  match s.fetchIns who fr.held fr.pc with
  | .broken => .next (s.foundFault who.part)
  | .bad c u a => .next ((s.tick (coreOf k)).trapIssue k i w (fetchTrap c u a fr))
  | .words ws => runWords k i w fr ws (s.setFrag k i (·.keep fr.pc ws))

/-- An issue from fragment i of wave k (R140): nothing when it is not ready; a breakpoint halts its team instead (R226). -/
def issueTurn (k i : Nat) (s : State) : Out :=
  if !(s.ready k i && s.goes (k, i)) then .next s
  else
    match Tab.find k s.waves with
    | none => .next s
    | some w =>
      match w.frags[i]? with
      | none => .next s
      | some fr =>
        match s.breakpoint w fr with
        | some b => .next (s.haltAt k i w b)
        | none => fetchAndRun k i w fr { s.passOver k i with cur := some (k, i) }

/-- A word read ahead for fragment i of wave k (R218): nothing where it cannot be fetched. -/
def prefetchTurn (k i : Nat) (a : Dword) (s : State) : State :=
  match (Tab.find k s.waves).bind fun w => (w.frags[i]?).map fun _ => w with
  | none => s
  | some w =>
    let who := s.whoOf k w
    if s.packetBreaks who.part a true then s
    else
      let s := s.prepWord who [] a
      match s.fetchWord who [] a with
      | .bad _ _ => s
      | .word x => s.setFrag k i (·.keep a [x])

/-- The word of an address that is held for fragment i of wave k given up (R218). -/
def giveUpTurn (k i : Nat) (a : Dword) (s : State) : State := s.setFrag k i fun f => { f with held := Tab.del a.toNat f.held }

/-- A read of n bytes at an address performed ahead for fragment i of wave k (R86, R110, R382): nothing where it would not
succeed now. -/
def readAheadTurn (k i : Nat) (ea : Dword) (n : Nat) (s : State) : State :=
  match (Tab.find k s.waves).bind fun w => (s.teamOf w).map fun tm => (w, tm) with
  | none => s
  | some (w, tm) =>
    let a : Acc := ⟨0, ea, n, n, true, false⟩
    if !([1, 2, 4, 8].contains n) || !tm.lets w.num i || (s.checkAccess (s.partOf w) tm ea n n true false).isSome ||
        s.breaks (s.partOf w) tm a || !s.canPin w.team (teamAddrs [a]) then s
    else
      let r := s.load { s.whoOf k w with me := (w.frags[i]?).map fun f => (k, f.mask) } ea n
      r.2.setFrag k i fun f => { f with early := Tab.put ea.toNat ⟨n, r.1, r.2.locOf (s.whoOf k w) ea, tm.boundAt ea, false⟩ f.early }

/-- An issue of a quadrant, from the fragment that R140 and R141 choose; of several that R141 puts first, in the order of
R140. Log entry 88. -/
def quadTurn (core q : Nat) (s : State) : Out :=
  let starved := (s.starved core q).filter s.goes
  match s.first (if starved.isEmpty then s.issuable core q else starved) with
  | none => .next s
  | some (k, i) => issueTurn k i s

/-! ### Engines and handlers -/

/-- A turn of a copy command, by its own opcode (R245). -/
def copyEngineTurn (core q idx n : Nat) (s : State) : State :=
  match ((s.core core).copies q)[idx]? with
  | none => s
  | some x => copyTurn (recOp x.record) core q idx n s

/-- A turn of a matrix engine on its head record, by its own opcode (R257). -/
def matrixEngineTurn (core : Nat) (s : State) : State :=
  match (s.core core).mx.fifo with
  | [] => s
  | x :: _ => matrixTurn (recOp x.record) core (matrixAct core) s

/-- An issue of a handler context whose turn it is in the round of its Alcove (R328, R330): none while its partition is in a
partition fault. -/
def alcoveTurn (cl ctx : Nat) (s : State) : Out :=
  match Tab.find ctx (s.cluster cl).ctxs with
  | none => .next s
  | some h =>
    if (s.part (s.ownerOf cl)).faulting || (s.cluster cl).nextCtx != some ctx then .next s
    else
      match (s.cluster cl).fetch cl ctx h with
      | .ext i => exec i s
      | .base len i => execHandlerInstruction cl ctx len i s
      | .illegal => .next (s.handlerFault cl ctx)

/-- One turn taken. -/
def takeTurn (t : Turn) (s : State) : Out :=
  match t with
  | .issue k i => issueTurn k i s
  | .quad core q => quadTurn core q s
  | .copy core q idx n => .next (copyEngineTurn core q idx n s)
  | .matrix core => .next (matrixEngineTurn core s)
  | .alcove cl ctx => alcoveTurn cl ctx s
  | .prefetch k i a => .next (prefetchTurn k i a s)
  | .giveUp k i a => .next (giveUpTurn k i a s)
  | .readAhead k i ea n => .next (readAheadTurn k i ea n s)
  | .copyAhead core q idx i => .next (copyAheadTurn core q idx i s)
  | .loadAhead core i => .next (loadAheadTurn core i s)
  | .cycles core n => .next (cyclesTurn core n s)
  | .peerRefusal id bytes => .next (peerRefusalTurn id bytes s)
  | .l1Drop core line => .next (s.setCore core (·.dropL1 line))
  | .mailbox => mailboxTurn s
  | .ask => .next s.serveAsk
  | .event i => exec i s

/-! ### The device's own turns -/

/-- A turn that an agent of the device can take by itself. -/
abbrev Move := State → Out

/-- The turns of the waves: issues by quadrant, returning results, parks, waits past the threshold (R129, R133, R140, R143). -/
def State.waveMoves (s : State) : List Move :=
  let quads := (s.waves.map fun e => quadOf (slotOf e.1)).dedup
  (quads.filter fun q => !(s.issuable (q / 4) (q % 4)).isEmpty).map (fun q => quadTurn (q / 4) (q % 4)) ++
    s.waves.flatMap fun e =>
      (if 0 < e.2.outstanding then [execResultReturn e.1] else []) ++
      (if e.2.parked.isSome ∧ e.2.outstanding = 0 then [execParkComplete e.1] else []) ++
      (if e.2.frags.all fun f => f.wait != .none then [execWaitThreshold e.1] else []) ++
      (if e.2.spilt then [execEvictedWaveResume e.1] else []) ++
      (List.range e.2.frags.length).filterMap fun i =>
        match e.2.frags[i]? with
        | some f => if f.wait = .retry then some (execWaitaWake e.1 i) else none
        | none => none

/-- The turns in which a cycle passes on a core where waves stand and none can issue (R136). Log entry 120. -/
def State.clockMoves (s : State) : List Move :=
  ((s.waves.map fun e => coreOf e.1).dedup.filter fun c =>
    (List.range 4).all fun q => (s.issuable c q).isEmpty).map fun c s => .next (s.tick c)

/-- The turns in which a core gives up a word held for a fragment that memory no longer holds (R218). Log entry 21. -/
def State.fetchMoves (s : State) : List Move :=
  s.waves.flatMap fun e => e.2.frags.zipIdx.flatMap fun x =>
    (x.1.held.filter fun h =>
      match s.fetchWord (s.whoOf e.1 e.2) [] (BitVec.ofNat 64 h.1) with
      | .word v => v != h.2
      | .bad _ _ => true).map fun h s => .next (giveUpTurn e.1 x.2 (BitVec.ofNat 64 h.1) s)

/-- The turns of the engines of the cores: copies, streams, the matrix engine, images to commit (R191, R245, R257). -/
def State.engineMoves (s : State) : List Move :=
  s.cores.flatMap fun e =>
    let one := fun (q : Nat) => (List.range (e.2.copies q).length).flatMap fun i =>
      [fun s => .next (copyEngineTurn e.1 q i 1 s), execCopyResume e.1 q i]
    one 0 ++ one 1 ++
      (if e.2.mx.fifo.isEmpty then [] else [fun s => .next (matrixEngineTurn e.1 s), execMxMulTileCheck e.1]) ++
      (if e.2.pending.isEmpty then [] else [execActldCommit e.1])

/-- The turns of the clusters: handlers, messages, lines of the slices, publication of dirty lines (R88, R333 to R341). -/
def State.clusterMoves (s : State) : List Move :=
  s.clusters.flatMap fun e =>
    (e.2.nextCtx.map (alcoveTurn e.1)).toList ++ (e.2.ctxs.map fun x => execBudgetOverrun e.1 x.1) ++
      (if e.2.queue.isEmpty then [] else [execAlcoveMessage e.1]) ++
      ((e.2.classQ.map fun t => t.cls.num).dedup.map (execHandlerStart e.1)) ++
      ((e.2.slice.filter fun x => x.2.requested).map fun x => execFill x.1) ++
      (e.2.dirty.map fun x => execNarrowLinePublication e.1 x.1)

/-- The turns of the packet processor (R364). -/
def State.packetMoves (s : State) : List Move :=
  (s.queues.flatMap fun e =>
    match (s.serves e.1).bind fun _ => e.2.head with
    | none => []
    | some _ =>
      [execLaunchPacket e.1, execBarrierPacket e.1, execCopyPacket e.1 none, execTilesPacket e.1, execSignalPacket e.1,
        execMarkerPacket e.1]) ++
    s.launches.flatMap fun e =>
      match e.2.work with
      | .copy _ _ _ => [execCopyPacket (e.2.queue.getD 0) (some e.1)]
      | _ => []

/-- The turns of the cutters and the tile dispatcher (R12, R295 to R304, R318). -/
def State.cutterMoves (s : State) : List Move :=
  (s.launches.flatMap fun e =>
    [execLaunchAcceptance e.1, execWindowEvaluation e.1, execLaunchCompletion e.1] ++
      match e.2.cut with
      | none => []
      | some c =>
        if e.2.desc.cores then [fun s => execCoresidentPlacement e.1 (s.spread e.1 e.2 c c.groups (s.partCores e.2.part) []) s]
        else (s.partCores e.2.part).map fun core =>
          execTeamDispatch e.1 (s.dieNum e.2.part (clusterOf core / Config.clustersPerDie)) core) ++
    (s.teams.flatMap fun e => execTeamRetire e.1 :: execTeamResume e.1 ::
      e.2.pages.flatMap fun p => (p.2.lines.filter fun l => l.2.requested).map fun l => execStashFill e.1 p.1 l.1) ++
    s.jobs.flatMap fun e => e.2.experts.map fun x => execFillSignalPoll e.2.launch x.1

/-- The turns that answer a partition fault, carry a REPART on, and take what waits at the mailbox (R355, R356, R370, R371). -/
def State.firmwareMoves (s : State) : List Move :=
  ((s.parts.filter fun e => e.2.faulting).map fun e => execPartitionFault e.1 none) ++
    (if s.repart.isSome then [execRepartDrainEnd] else []) ++ (if s.box.isEmpty then [] else [mailboxTurn]) ++
    (if s.asks.isEmpty then [] else [fun s => .next s.serveAsk])

/-- Every turn that the device's own agents can take now. What the outside does, and the loops and links whose moment the spec
leaves to time, are given in the agenda. Log entry 1. -/
def State.moves (s : State) : List Move :=
  s.waveMoves ++ s.fetchMoves ++ s.engineMoves ++ s.clusterMoves ++ s.packetMoves ++ s.cutterMoves ++ s.firmwareMoves ++
    s.clockMoves

/-- The turn that the device takes by itself: none where no agent has one, the only one where there is one, otherwise a free
choice. -/
def ownTurn (s : State) : Out :=
  match s.moves with
  | [] => .next s
  | [m] => m s
  | ms => (ms.getD (Config.freeChoice s.choices % ms.length) .next) { s with choices := s.choices + 1 }

/-- The turn at the head of the agenda, or one of the device's own. -/
def nextTurn (s : State) : Out :=
  match s.agenda with
  | t :: rest => takeTurn t { s with agenda := rest }
  | [] => ownTurn s

/-! ### The next instruction placed (the fixed name withFetchWord) -/

/-- A team, its wave and its fragment as the placing of one instruction needs them. -/
def placeAt : Nat := 0x4000000000

/-- The wave that issues the placed instruction: one fragment of all 32 lanes. -/
def placeWave : Wave := Wave.first 0 0 (BitVec.ofNat 64 placeAt) 0xFFFFFFFF

/-- Its team, with a window of one page. -/
def placeTeam : Team := { Team.first 0 0 0 (0, 0, 0) (0, 0, 0) (32, 1, 1) 4096 0 with waves := [0] }

/-- The layout of the one partition that holds it: cluster 0 and the first stack. -/
def placeLayout : List Nat := (List.replicate 216 255).set 0 0 |>.set 64 0

/-- Its launch, of partition 0. -/
def placeLaunch : Launch :=
  { Launch.fresh 0 0 none 0 (.launch 0 32 1 1) with stage := 3, space := (32, 1, 1), dispatched := 1 }

/-- The words of a wave instruction placed at the next fetch: one wave of a one-team launch of partition 0, whose one page holds
the words. -/
def State.placeWords (ws : List Word) (s : State) : State :=
  { s with
    waves := Tab.put 0 placeWave s.waves, teams := Tab.put 0 placeTeam s.teams,
    launches := Tab.put 0 placeLaunch s.launches, layout := placeLayout, conns := Tab.put 64 (0, 0) s.conns,
    parts := Tab.put 0 { Partition.fresh with ptes := [⟨placeAt, 65536, 0, true, true, true⟩] } s.parts,
    mem := memWrites s.mem 0 (bytesOfWords ws), agenda := [.issue 0 0] }

/-- The word of a handler instruction placed at the next fetch: context 0 of cluster 0 runs a MISS handler at the start of
instruction memory. -/
def State.placeHandler (w : Word) (s : State) : State :=
  { s with layout := placeLayout, agenda := [.alcove 0 0] }.setCluster 0 fun c =>
    { c with
      issued := 7
      imem := (List.range 4).foldl (fun m j => Tab.setD 0 j ((bytesOfWord w).getD j 0) m) c.imem
      control := Tab.put 0 0x88001000#32 c.control
      ctxs := Tab.put 0 (HCtx.start 0 ⟨.miss, 0, 0, 0, 0, 0, none⟩) c.ctxs }

/-- The words of a table row's instruction placed where the next step fetches. -/
def State.placeTableWord (s : State) (nbits w : Nat) : State :=
  let v := w % 2 ^ nbits
  if isExtWord nbits v then s.placeHandler (BitVec.ofNat 32 v) else s.placeWords (wordsOfNat 5 v)

end Sys2Proof.Machine
end

