-- ==== Sys2Proof/Machine/Step.lean ====
section
/-! DEFINITION. One step of the machine: one turn of one agent. -/

namespace Sys2Proof.Machine

open Sys2Proof

/-- One step: the turn at the head of the agenda, or one of the device's own (R79, R140, R383). -/
def step (s : State) : Host.Outcome State Fault Refusal := nextTurn s

/-- The state with an instruction of the opcode table placed where the next step fetches. -/
def State.withFetchWord (s : State) (nbits w : Nat) : State := s.placeTableWord nbits w

end Sys2Proof.Machine
end

