-- ==== Sys2Proof/Safety.lean ====
section
/-! DEFINITION. The terms in which the statements speak: what it means that a fragment issues an instruction, that an
instruction completes, what it leaves as it was, and the invariants of the machine. -/

namespace Sys2Proof.Machine

open Sys2Proof

/-! ### The instruction and its fragment -/

/-- A wave instruction as it runs: the opcode and the fields of its form (R25, R29). -/
def insOf (i : Instr) : Ins :=
  match i.form with
  | .x op f => .ofX op f
  | .b op f => .ofB op f
  | .event => .ofX 0 ⟨none, false, false, 0, 0, 0, 0, 0, 0, 0, 0, Guard.none, 0⟩

/-- Fragment `fr`, number `i` of wave `k`, whose value is `w`, is the fragment whose instruction is executed. -/
structure Issues (s : State) (k i : Nat) (w : Wave) (fr : Frag) : Prop where
  cur : s.cur = some (k, i)
  wave : Tab.find k s.waves = some w
  frag : w.frags[i]? = some fr

/-- An instruction may stand where it does: no forbidden one in a REP body (R163), no SYSW to trap.pc outside a handler (R216). -/
structure Placed (x : Ins) (w : Wave) (fr : Frag) : Prop where
  rep : fr.rep = none ∨ repForbidden x.op = false
  sysw : x.op ≠ 0x1E4 ∨ x.f.imm.toNat ≠ 4 ∨ w.handlerFlag = true

/-- The checks of R41 that depend on the state pass: the instruction may stand where it does, and the extended row is held if a
register of it is named. -/
structure Admits (x : Ins) (w : Wave) (fr : Frag) : Prop where
  ext : lowestExt x.op x.f = none ∨ w.ext = true
  placed : Placed x w fr

/-- No asynchronous engine fault is delivered at the instruction's park point (R143, R211). -/
def Undisturbed (x : Ins) (w : Wave) : Prop := x.f.p = false ∨ w.faults = [] ∨ w.handlerFlag = true

/-- The instruction in its fragment, as the operand forms read it (R30, R33, R35). -/
abbrev ctxOf (j : Instr) (k i : Nat) (w : Wave) (fr : Frag) : Ctx := ⟨k, w, i, fr, insOf j⟩

/-! ### Frames -/

/-- A team but for what a debugger's step changes of it (R228). -/
def Team.unstepped (tm : Team) : Team := { tm with halt := none, step := none }

/-- Outside wave `k`, and outside what `q` leaves out of a team, nothing has changed but the cycle counter of the wave's core
and the counter at which free values are taken (R136). -/
structure KeptUpTo (q : Team → Team) (s t : State) (k : Nat) : Prop where
  waves : ∀ j, j ≠ k → Tab.find j t.waves = Tab.find j s.waves
  teams : ∀ j, (Tab.find j t.teams).map q = (Tab.find j s.teams).map q
  cores : ∀ c, { t.core c with clock := 0 } = { s.core c with clock := 0 }
  clocks : ∀ c, c ≠ coreOf k → (t.core c).clock = (s.core c).clock
  rest : t = { s with waves := t.waves, teams := t.teams, cores := t.cores, frees := t.frees }

/-- Outside wave `k` nothing has changed but the cycle counter of its core, the counter at which free values are taken, and
the end of a debugger's step (R136, R228): every other wave, every team's window, every core's banks, queues and matrix
engine, every cluster, all of memory, and everything of the host, the launches and the partitions. -/
abbrev KeptRest (s t : State) (k : Nat) : Prop := KeptUpTo Team.unstepped s t k

/-- Of wave `k` nothing has changed but vector registers, the bindings over registers written, the issuing fragment, and the
park and evictable marks: no scale, no mode bit, no trap register, no token, no other fragment (R131). -/
structure KeptWave (w w' : Wave) (i : Nat) : Prop where
  rest : w' = { w with regs := w'.regs, binds := w'.binds, frags := w'.frags, parked := w'.parked, evictable := w'.evictable }
  frags : ∀ j, j ≠ i → w'.frags[j]? = w.frags[j]?

/-- The issuing fragment goes on after its instruction: its lanes, tokens, sets and held words are as before, it waits for
nothing, and outside a REP body its PC is the next one in sequence (R26). -/
structure GoesOn (fr fr' : Frag) (len : Nat) : Prop where
  mask : fr'.mask = fr.mask
  tokens : fr'.tokens = fr.tokens
  handler : fr'.handler = fr.handler
  cons : fr'.cons = fr.cons
  wait : fr'.wait = .none
  held : fr'.held = fr.held
  pc : fr.rep = none → fr'.pc = fr.pc + BitVec.ofNat 64 len ∧ fr'.rep = none

/-! ### Results in vector registers -/

/-- A value of n words in register r, or in the pair r, r + 1 with the low word in r (R63), as register writes. -/
def valueIn (n r : Nat) (v : Nat) : List (Nat × Word) :=
  if n = 2 then [(r, BitVec.ofNat 32 v), (r + 1, BitVec.ofNat 32 (v / 2 ^ 32))] else [(r, BitVec.ofNat 32 v)]

/-- What a register holds after writes made in order. -/
def afterWrites (ws : List (Nat × Word)) (r : Nat) (old : Word) : Word :=
  ws.foldl (fun v x => if x.1 = r then x.2 else v) old

/-- Instruction `j` completes: in every state in which it issues and passes its checks, and in which `pre` holds of the state and
of the instruction in its fragment, exec answers a next state; outside the wave everything is, up to `q`, as in the state that
`base` names; and `post` holds of the state before, the state after, the instruction and the wave after. -/
def CompletesVia (base : State → Ctx → State) (q : Team → Team) (j : Instr) (pre : State → Ctx → Prop)
    (post : State → State → Ctx → Wave → Prop) : Prop :=
  j.wellFormed = true → ∀ (s : State) (k i : Nat) (w : Wave) (fr : Frag),
    Issues s k i w fr → Admits (insOf j) w fr → Undisturbed (insOf j) w → pre s (ctxOf j k i w fr) →
      ∃ t w', exec j s = .next t ∧ KeptUpTo q (base s (ctxOf j k i w fr)) t k ∧ Tab.find k t.waves = some w' ∧
        post s t (ctxOf j k i w fr) w'

/-- Instruction `j` completes, and outside its wave everything is as before up to `q`. -/
abbrev CompletesUpTo (q : Team → Team) (j : Instr) (pre : State → Ctx → Prop) (post : State → State → Ctx → Wave → Prop) :
    Prop := CompletesVia (fun s _ => s) q j pre post

/-- Instruction `j` completes and changes nothing outside its wave. -/
abbrev Completes (j : Instr) (pre : State → Ctx → Prop) (post : State → State → Ctx → Wave → Prop) : Prop :=
  CompletesUpTo Team.unstepped j pre post

/-- Whether a binding takes in a register that the enabled lanes write (R196). -/
def BindsOver (ws : Ctx → Nat → List (Nat × Word)) (c : Ctx) (b : Binding) : Prop :=
  ∃ l ∈ c.lanes, ∃ x ∈ ws c l, bindHasReg b x.1 c.w.landing.mode = true

/-- The wave after an instruction that writes registers: the writes made in order in each enabled lane, every other place of the
register file as before, every binding over a register written stale (R196) and every other one as before, and everything else of
the wave as before; the fragment goes on. -/
def Wrote (ws : Ctx → Nat → List (Nat × Word)) (c : Ctx) (w' : Wave) : Prop :=
  KeptWave c.w w' c.i ∧ (∃ fr', w'.frags[c.i]? = some fr' ∧ GoesOn c.fr fr' c.ins.len) ∧
  (∀ r l, r < 128 → l < 32 →
    w'.reg r l = if l ∈ c.lanes then afterWrites (ws c l) r (c.w.reg r l) else c.w.reg r l) ∧
  ∀ b, (BindsOver ws c (c.w.bind b) → w'.bind b = c.w.bind b ||| 0x80000000#32) ∧
    (¬ BindsOver ws c (c.w.bind b) → w'.bind b = c.w.bind b)

/-- What one instruction does that only writes vector registers: it completes, for every state in which it issues; lane l of
every enabled lane takes the writes given, in order; every other register and lane, every binding over no register written,
and everything else are as before. -/
def WritesRegs (j : Instr) (ws : Ctx → Nat → List (Nat × Word)) : Prop :=
  Completes j (fun _ _ => True) fun _ _ c w' => Wrote ws c w'

/-- An instruction whose one result, of n words, goes to vD in every enabled lane, computed from the sources of the lane that
R35 names. -/
def ResultInD (j : Instr) (n : Ctx → Nat) (v : Ctx → Nat → Nat) : Prop :=
  WritesRegs j fun c l => valueIn (n c) c.f.d.toNat (v c (c.src l))

/-- Words of an operand of the instruction's type (R145). -/
def typeWords (c : Ctx) : Nat := tyWords c.f.t

/-- Operand A of the instruction's type at a lane, as a bit pattern of its width (R145). -/
def Ctx.bitsA (c : Ctx) (l : Nat) : BitVec (32 * typeWords c) := BitVec.ofNat _ (c.opA (typeWords c) l)
/-- Operand B of the instruction's type at a lane, in its four forms (R30, R54, R145). -/
def Ctx.bitsB (c : Ctx) (l : Nat) : BitVec (32 * typeWords c) := BitVec.ofNat _ (c.opB (typeWords c) l)
/-- Operand C of the instruction's type at a lane (R145). -/
def Ctx.bitsC (c : Ctx) (l : Nat) : BitVec (32 * typeWords c) := BitVec.ofNat _ (c.opC (typeWords c) l)

/-- An instruction whose one result is of its own type. -/
def TypedResult (j : Instr) (v : (c : Ctx) → Nat → BitVec (32 * typeWords c)) : Prop :=
  ResultInD j typeWords fun c l => (v c l).toNat

/-- Instruction `j` traps: in every state in which it issues and passes its checks and in which `pre` holds, all that it does
beside the cycles it takes is to raise the trap `tr` (R41, R208). -/
def TrapsWith (j : Instr) (pre : State → Ctx → Prop) (tr : Ctx → TrapInfo) : Prop :=
  j.wellFormed = true → ∀ (s : State) (k i : Nat) (w : Wave) (fr : Frag),
    Issues s k i w fr → Admits (insOf j) w fr → pre s (ctxOf j k i w fr) →
      exec j s = .next ((s.tick (coreOf k)).trapIssue k i w (tr (ctxOf j k i w fr)))

/-- An instruction that changes its wave by g and nothing else, besides the fragment going on. -/
def ChangesWave (j : Instr) (pre : State → Ctx → Prop) (g : Ctx → Wave → Wave) : Prop :=
  Completes j pre fun _ _ c w' =>
    w' = { g c c.w with frags := w'.frags, parked := w'.parked, evictable := w'.evictable } ∧
    (∀ n, n ≠ c.i → w'.frags[n]? = c.w.frags[n]?) ∧ ∃ fr', w'.frags[c.i]? = some fr' ∧ GoesOn c.fr fr' c.ins.len

/-! ### Lanes together -/

/-- The combination over 2^n neighbouring lane positions from `at0` by the fixed tree of R76: the two halves combined where both
hold a value, the one that holds a value otherwise. -/
def pairTree {α : Type} (g : α → α → α) (x : Nat → Option α) : Nat → Nat → Option α
  | 0, at0 => x at0
  | n + 1, at0 =>
    match pairTree g x n at0, pairTree g x n (at0 + 2 ^ n) with
    | some u, some v => some (g u v)
    | some u, none => some u
    | none, v => v

/-- The combination of a list from its first value on (R76). -/
def foldFrom {α : Type} (g : α → α → α) (d : α) : List α → α
  | [] => d
  | x :: r => r.foldl g x

/-- The operation that M gives REDX and SCANX on two values of the instruction's type (R169). -/
def combineBits (c : Ctx) (a b : BitVec (32 * typeWords c)) : BitVec (32 * typeWords c) :=
  let rm := c.w.mode.toNat % 8
  let sm := c.w.mode.toNat / 16 % 4
  let x := f32.read sm a.toNat
  let y := f32.read sm b.toNat
  match c.f.m.toNat with
  | 0 => a + b
  | 1 => if (if tySigned c.f.t then a.sle b else a.ule b) then a else b
  | 2 => if (if tySigned c.f.t then b.sle a else b.ule a) then a else b
  | 3 => a ||| b
  | 4 => BitVec.ofNat _ (f32.enc rm sm (x.add rm y))
  | 5 => BitVec.ofNat _ (f32.enc rm sm (x.minMax false y))
  | _ => BitVec.ofNat _ (f32.enc rm sm (x.minMax true y))

/-! ### Fragments -/

/-- A fragment that goes on at an address with a mask and a token set, outside any REP body, waiting for nothing. -/
structure Goes (fr' : Frag) (pc : Dword) (mask : Word) (tokens : BitVec 16) : Prop where
  pc : fr'.pc = pc
  mask : fr'.mask = mask
  tokens : fr'.tokens = tokens
  wait : fr'.wait = .none
  rep : fr'.rep = none

/-- Of the wave nothing has changed but its fragments and its park and evictable marks. -/
def KeptButFrags (w w' : Wave) : Prop :=
  w' = { w with frags := w'.frags, parked := w'.parked, evictable := w'.evictable }

/-- The fragments of the wave but the i-th are as before, and there are as many. -/
def OtherFrags (w w' : Wave) (i : Nat) : Prop :=
  w'.frags.length = w.frags.length ∧ ∀ n, n ≠ i → w'.frags[n]? = w.frags[n]?

/-- A fragment that stands at its instruction in a wait; the rest of the wave, and the other fragments, as before. -/
def Stands (wt : Wait) (c : Ctx) (w' : Wave) : Prop :=
  KeptButFrags c.w w' ∧ OtherFrags c.w w' c.i ∧ ∃ fr', w'.frags[c.i]? = some fr' ∧
    fr'.wait = wt ∧ fr'.pc = c.fr.pc ∧ fr'.mask = c.fr.mask ∧ fr'.tokens = c.fr.tokens ∧ fr'.rep = c.fr.rep

/-- The mask of the lanes of a fragment of which a condition holds. -/
def laneMask (p : Nat → Bool) (m : Word) : Word := maskOf ((lanesOf m).filter p)

/-- A team but for a debugger's step and the minority map of its game record (R297). -/
def Team.unmarked (tm : Team) : Team := { tm.unstepped with minority := [] }

/-- The minority map of the wave's group takes in the items of the lanes that detach, but in a handler or in consumer mode, and
nothing else (R297). -/
def MarksDetached (s t : State) (c : Ctx) (detached : Nat → Prop) : Prop :=
  ∀ n, n ∈ (t.teamOf c.w).elim [] Team.minority ↔
    n ∈ (s.teamOf c.w).elim [] Team.minority ∨
      (s.teamOf c.w).isSome ∧ c.w.handlerFlag = false ∧ c.w.landing.mode = false ∧
        ∃ l, l < 32 ∧ detached l ∧ n = 32 * c.w.num + l

/-! ### Floating point -/

/-- The rational number that a finite float value is (R64); 0 for a NaN or an infinity. -/
def FVal.rat : FVal → ℚ
  | .fin s m e => (if s then -1 else 1) * m * (2 : ℚ) ^ e
  | _ => 0

/-- The magnitude of the code n, sign aside, of a format (R64). -/
def Fmt.mag (F : Fmt) (n : Nat) : ℝ := ((F.dec n).rat : ℝ)

/-- Code n, sign aside, is the positive number z correctly rounded under a mode, where z is below the largest finite value or,
rounded toward zero, anything (R65, R71): no code lies between n and z on the side the mode rounds from, and a nearest mode takes
the nearer of the two neighbours, at a tie the even code or the one away from zero. -/
def Fmt.RoundsTo (F : Fmt) (rm : Nat) (s : Bool) (z : ℝ) (n : Nat) : Prop :=
  n ≤ F.maxCode ∧
  let below := F.mag n ≤ z ∧ (n < F.maxCode → z < F.mag (n + 1))
  let above := z ≤ F.mag n ∧ (0 < n → F.mag (n - 1) < z)
  match rm with
  | 0 => (n < F.maxCode → 2 * z ≤ F.mag n + F.mag (n + 1) ∧ (2 * z = F.mag n + F.mag (n + 1) → n % 2 = 0)) ∧
      (0 < n → F.mag (n - 1) + F.mag n ≤ 2 * z ∧ (F.mag (n - 1) + F.mag n = 2 * z → n % 2 = 0))
  | 1 => below
  | 2 => if s then below else above
  | 3 => if s then above else below
  | _ => (n < F.maxCode → 2 * z < F.mag n + F.mag (n + 1)) ∧ (0 < n → F.mag (n - 1) + F.mag n ≤ 2 * z)

/-- The rounding mode of an instruction whose M is the field of R38: the override it names, or the mode register's (R71, R137). -/
def Ctx.rm (c : Ctx) : Nat := if c.f.m = 0 then c.w.mode.toNat % 8 else c.f.m.toNat - 1

/-- The subnormal mode in the mode register (R71, R137). -/
def Ctx.sm (c : Ctx) : Nat := c.w.mode.toNat / 16 % 4

/-- The float that the low bits of a register value hold in a format, after flush-in (R63, R172). -/
def Ctx.float (c : Ctx) (F : Fmt) (v : Nat) : FVal := F.read c.sm (v % 2 ^ F.width)

/-- A float result in a format, rounded once and flushed out, as it stands in a 32-bit register: an 8-bit or 4-bit float
sign-extended, a 16-bit float zero-extended (R63, R174). -/
def Ctx.floatReg (c : Ctx) (F : Fmt) (rm : Nat) (x : FVal) : Nat :=
  let code := F.enc rm c.sm x
  if F.width < 16 then ((BitVec.ofNat F.width code).signExtend 32).toNat else code

/-! ### Blocks, scales and bindings -/

/-- The block of m-bit codes of a lane, held in the m registers from r on, register r + j with bits [32j+31:32j] (R68, R184). -/
def blockBits (w : Wave) (r m l : Nat) : BitVec (32 * m) :=
  (List.range m).foldl (fun v j => v ||| (((w.reg (r + j) l).setWidth (32 * m)) <<< (32 * j))) 0

/-- Code i of a block as the integer it stands for: the most negative code reads as the next one (R67, R70). -/
def codeAt {n : Nat} (m : Nat) (v : BitVec n) (i : Nat) : Int :=
  max (v.extractLsb' (m * i) m).toInt (1 - 2 ^ (m - 1))

/-- Of the wave nothing has changed but registers, scales, bindings, its fragments and its marks; the fragment goes on. -/
def KeptBesideScales (c : Ctx) (w' : Wave) : Prop :=
  w' = { c.w with regs := w'.regs, scales := w'.scales, binds := w'.binds, frags := w'.frags, parked := w'.parked,
                  evictable := w'.evictable } ∧
  (∀ n, n ≠ c.i → w'.frags[n]? = c.w.frags[n]?) ∧ ∃ fr', w'.frags[c.i]? = some fr' ∧ GoesOn c.fr fr' c.ins.len

/-- The scales after: k d takes v in the enabled lanes, the code 0xFF written as 0xFE (R70, R193); every other scale is as
before. -/
def ScalesWritten (c : Ctx) (w' : Wave) (d : Nat) (v : Nat → Byte) : Prop :=
  ∀ j l, j < 32 → l < 32 →
    w'.scale j l = if j = d ∧ l ∈ c.lanes then (if v l = 0xFF then 0xFE else v l) else c.w.scale j l

/-- The registers after: lane l of v r as g gives it. -/
def RegsAre (w' : Wave) (g : Nat → Nat → Word) : Prop := ∀ r l, r < 128 → l < 32 → w'.reg r l = g r l

/-- The bindings after: k b as g gives it. -/
def BindsAre (w' : Wave) (g : Nat → Binding) : Prop := ∀ b, w'.bind b = g b

/-- The bindings after a maker binds k d (R195): k d takes the new one, and another k register that shares with it takes KIND 0
with STALE 1. -/
def bindsAfterMaking (w : Wave) (d : Nat) (new : Binding) (b : Nat) : Binding :=
  if b = d then new else if bindOverlaps (w.bind b) new then 0x80000000#32 else w.bind b

/-! ### Memory as a party sees it -/

/-- Where a byte of an access stands: at a home slice, in the team's window, or in a stash-mapped page of the window. -/
inductive Place
  | home (pa : Nat)
  | window (t : Nat)
  | stash (t : Nat)
deriving DecidableEq, Repr

/-- The place of the byte at an effective address (R96, R98, R102); none where it is not canonical or not mapped. -/
def placeOf (s : State) (p : Nat) (tm : Team) (ea : Dword) : Option Place :=
  match classify ea with
  | .global va => (s.translate p va).map fun x => .home x.2
  | .scratch t => some (if (tm.page t).bound = none then .window t else .stash t)
  | .nonCanonical => none

/-- The places of n consecutive bytes from the first one's. -/
def Place.bytes (n : Nat) : Place → List Place
  | .home pa => (List.range n).map fun i => .home (pa + i)
  | .window t => (List.range n).map fun i => .window (t + i)
  | .stash t => (List.range n).map fun i => .stash (t + i)

/-- The places of an access of n bytes. -/
def placesOf (s : State) (p : Nat) (tm : Team) (ea : Dword) (n : Nat) : List Place :=
  ((placeOf s p tm ea).map (Place.bytes n)).getD []

/-- What a party of a cluster and a team reads at a place, byte by byte (R90, R101, R103): for global memory the cluster's own
dirty copy or the home slice's byte. -/
def State.view (s : State) (cl team : Nat) : Place → Byte
  | .home pa => s.seen cl pa
  | .window t => ((Tab.find team s.teams).map fun tm => Tab.getD 0 t tm.scratch).getD 0
  | .stash t =>
    match Tab.find team s.teams with
    | none => 0
    | some tm =>
      match (tm.page t).bound, ((tm.page t).line t).dirty with
      | none, _ => 0
      | some _, some bs => bs.getD (t % 128) 0
      | some (_, pa), none => s.seen cl (pa + t % 4096)

/-- No stash-mapped page holds newer bytes of a line, and no other cluster has anything to publish for it (R88, R91, R103). -/
def Quiet (s : State) (cl line : Nat) : Prop :=
  (∀ e ∈ s.teams, ∀ q ∈ e.2.pages, q.2.dirtyOf line = none) ∧
  ∀ e ∈ s.clusters, e.1 ≠ cl → Tab.find line e.2.dirty = none ∧ Tab.find line e.2.wrote = none

/-- An access of n bytes at a place stays in one line, of which nobody else holds newer bytes. -/
def Steady (s : State) (cl team n : Nat) : Place → Prop
  | .home pa => pa % 128 + n ≤ 128 ∧ Quiet s cl (lineOf pa)
  | .window _ => True
  | .stash t => ∃ tm b, Tab.find team s.teams = some tm ∧ (tm.page t).bound = some b ∧ t % 128 + n ≤ 128 ∧
      (b.2 + t % 4096) % 128 + n ≤ 128 ∧
      (((tm.page t).line t).dirty.isSome = true ∨ Quiet s cl (lineOf (b.2 + t % 4096)))

/-- A team can pin every page of a list of team addresses, and no page of another team has to be given up for it (R102). -/
def Roomy (s : State) (tm : Team) (ts : List Nat) : Prop :=
  (∀ t ∈ ts, tm.away (t / 4096) = false) ∨
    s.pinnedOn tm.core + (((ts.map fun t => t / 4096).filter tm.away).dedup).length ≤ Config.scratchPages

/-- The accesses of an instruction pass the checks of R99, break no partition (R353, R370), find room for their pages (R102),
and are steady. -/
structure CanAccess (s : State) (c : Ctx) (tm : Team) (as : List Acc) : Prop where
  team : s.teamOf c.w = some tm
  checks : c.failing s tm as = none
  whole : ∀ a ∈ as, s.breaks (s.partOf c.w) tm a = false
  room : Roomy s tm (teamAddrs as)
  steady : ∀ a ∈ as, ∃ p, placeOf s (s.partOf c.w) tm a.ea = some p ∧
    Steady s (clusterOf (coreOf c.k)) c.w.team a.n p

/-- The places of an access of the instruction that runs. -/
def Ctx.places (c : Ctx) (s : State) (tm : Team) (ea : Dword) (n : Nat) : List Place := placesOf s (s.partOf c.w) tm ea n

/-- What the instruction that runs reads at a place. -/
def Ctx.sees (c : Ctx) (s : State) (p : Place) : Byte := s.view (clusterOf (coreOf c.k)) c.w.team p

/-- The little-endian number that a list of places holds (R25). -/
def viewRead (v : Place → Byte) : List Place → Nat
  | [] => 0
  | p :: r => (v p).toNat + 256 * viewRead v r

/-- What a load of n bytes at an address reads: the read that the core has performed ahead for the fragment, where a table of
those has one of the same bytes (R86, R382); of eight bytes also one of a half under another binding of its page (R110);
otherwise what the wave sees now. -/
def Ctx.readsFrom (c : Ctx) (early : Tab Early) (s : State) (tm : Team) (ea : Dword) (n : Nat) : Nat :=
  let now := fun (a : Dword) (m : Nat) => viewRead (c.sees s) (c.places s tm a m)
  let half := fun (a : Dword) =>
    ((Tab.find a.toNat early).filter fun e => e.n == 4 && e.bound != tm.boundAt ea).map Early.v
  match (Tab.find ea.toNat early).filter fun e => e.n == n with
  | some e => e.v
  | none =>
    if n = 8 ∧ (half ea ≠ none ∨ half (ea + 4) ≠ none) then
      (half ea).getD (now ea 4) + 2 ^ 32 * (half (ea + 4)).getD (now (ea + 4) 4)
    else now ea n

/-- What an instruction whose lanes load n bytes at each of a list of addresses reads at one of them: no lane takes a read
ahead of a location that another of the addresses names too, since lanes at one location read the same write (R104). -/
def Ctx.reads (c : Ctx) (s : State) (tm : Team) (as : List Dword) (ea : Dword) (n : Nat) : Nat :=
  c.readsFrom (s.sameWrite (c.who s) n as c.fr.early) s tm ea n

/-- The lanes of a list of fragments. -/
def lanesIn (fs : List Frag) : Word := fs.foldl (fun m f => m ||| f.mask) 0

/-- The structure that a wave's fragments have at every instruction boundary (R132; inside a generator region R271 and R273,
in a handler R209 and R217): masks not empty and of live lanes; those of one set disjoint; at most 32 fragments. -/
structure Wave.Formed (w : Wave) : Prop where
  masks : ∀ f ∈ w.frags, f.mask ≠ 0 ∧ f.mask &&& ~~~w.live = 0
  apart : w.frags.Pairwise fun f g => f.cons = g.cons → f.mask &&& g.mask = 0
  few : w.frags.length ≤ 32
  /-- Outside a region there is one set, and it holds every live lane. -/
  whole : w.landing.inReg = false → (∀ f ∈ w.frags, f.cons = false) ∧ lanesIn w.frags = w.live
  /-- Inside one every region lane is live, the producers hold the lanes not yet retired, and there are consumers in consumer mode
  only. -/
  region : w.landing.inReg = true → w.landing.regMask = w.live ∧
    lanesIn (w.frags.filter fun f => !f.cons) = w.landing.prodMask ∧
    (w.landing.mode = false → ∀ f ∈ w.frags, f.cons = false)
  /-- Handler fragments are there in a handler only, all of the set of the fragment that trapped. -/
  handlers : ∀ f ∈ w.frags, f.handler = true → w.handlerFlag = true ∧ f.cons = w.trap.cons
  /-- The lanes counted as through TRET are those of the handler fragments that wait in it. -/
  ended : w.handlerFlag = true → w.tretLanes = lanesIn (w.frags.filter fun f => f.handler && f.wait == .tret)

/-- A view after a little-endian store to a list of places. -/
def viewWrite (v : Place → Byte) (ps : List Place) (x : Nat) (p : Place) : Byte :=
  match ps.idxOf? p with
  | some i => BitVec.ofNat 8 (x / 256 ^ i)
  | none => v p

/-- A team but for what an access leaves in it besides its window: pins and fills of its pages, what its game record counts, a
debugger's stop (R102, R103, R227, R297). -/
def Team.unaccessed (tm : Team) : Team := { tm.unstepped with pages := [], foot := [], l2 := 0 }

/-- A core but for its cycle counter and the lines of its L1 (R111, R136). -/
def Core.uncached (c : Core) : Core := { c with clock := 0, l1 := [] }

/-- A dirty line but for the mark that a party of its cluster has read of it (R85). -/
def DirtyLine.unread (d : DirtyLine) : DirtyLine := { d with read := false }

/-- A cluster but for the lines of its slice, the triggers that requests for lines raise, the lines that wait for a narrow release
of it, and the marks of the dirty lines it has read of (R85, R88, R111, R333, R334). -/
def Cluster.uncached (c : Cluster) : Cluster :=
  { c with slice := [], classQ := [], counters := [], wrote := [], dirty := c.dirty.map fun e => (e.1, e.2.unread) }

/-- A wave but for its bindings: a refill or a write makes tile bindings of the team stale (R196). -/
def Wave.unbound (w : Wave) : Wave := { w with binds := [] }

/-- After accesses that store nothing: outside the wave, only bookkeeping, caches, the triggers of requests and the note of
the writes over reads performed ahead have changed; memory, what the clusters hold dirty, every window and every other wave
but for its bindings are as before. -/
structure Looked (s t : State) (k : Nat) : Prop where
  waves : ∀ j, j ≠ k → (Tab.find j t.waves).map Wave.unbound = (Tab.find j s.waves).map Wave.unbound
  teams : ∀ j, (Tab.find j t.teams).map Team.unaccessed = (Tab.find j s.teams).map Team.unaccessed
  cores : ∀ c, (t.core c).uncached = (s.core c).uncached
  clusters : ∀ c, (t.cluster c).uncached = (s.cluster c).uncached
  rest : t = { s with waves := t.waves, teams := t.teams, cores := t.cores, clusters := t.clusters, loose := t.loose,
                      frees := t.frees }

/-- After stores by a party of a cluster and a team: besides what accesses leave, only bytes that cluster holds dirty, the
team's window, the poison of lines, and the note of the writes over reads performed ahead have changed. -/
structure Stored (s t : State) (k team : Nat) : Prop where
  waves : ∀ j, j ≠ k → (Tab.find j t.waves).map Wave.unbound = (Tab.find j s.waves).map Wave.unbound
  teams : ∀ j, j ≠ team → (Tab.find j t.teams).map Team.unaccessed = (Tab.find j s.teams).map Team.unaccessed
  own : (Tab.find team t.teams).map (fun tm => { tm.unaccessed with scratch := [] }) =
    (Tab.find team s.teams).map fun tm => { tm.unaccessed with scratch := [] }
  cores : ∀ c, (t.core c).uncached = (s.core c).uncached
  clusters : ∀ c, c ≠ clusterOf (coreOf k) → (t.cluster c).uncached = (s.cluster c).uncached
  cluster : { (t.cluster (clusterOf (coreOf k))).uncached with dirty := [] } =
    { (s.cluster (clusterOf (coreOf k))).uncached with dirty := [] }
  rest : t = { s with waves := t.waves, teams := t.teams, cores := t.cores, clusters := t.clusters, poison := t.poison,
                      loose := t.loose, frees := t.frees }

/-- Of the wave nothing has changed but registers, scales, bindings, the count of outstanding results, its fragments and its
marks; the fragment goes on. -/
def KeptBesideLoads (c : Ctx) (w' : Wave) : Prop :=
  w' = { c.w with regs := w'.regs, scales := w'.scales, binds := w'.binds, outstanding := w'.outstanding, frags := w'.frags,
                  parked := w'.parked, evictable := w'.evictable } ∧
  (∀ n, n ≠ c.i → w'.frags[n]? = c.w.frags[n]?) ∧ ∃ fr', w'.frags[c.i]? = some fr' ∧ GoesOn c.fr fr' c.ins.len

/-- An instruction whose accesses, all reads, are `as`: it completes, every byte that its wave sees is as before, and `post` holds
of the state before, the team, the instruction and the wave after. -/
def ReadsMemory (j : Instr) (as : Ctx → List Acc) (post : State → Team → Ctx → Wave → Prop) : Prop :=
  j.wellFormed = true → ∀ (s : State) (k i : Nat) (w : Wave) (fr : Frag) (tm : Team),
    Issues s k i w fr → Admits (insOf j) w fr → Undisturbed (insOf j) w →
    let c := ctxOf j k i w fr
    CanAccess s c tm (as c) →
      ∃ t w', exec j s = .next t ∧ Looked s t k ∧ Tab.find k t.waves = some w' ∧ KeptBesideLoads c w' ∧
        (∀ p, c.sees t p = c.sees s p) ∧
        w'.outstanding = w.outstanding + (if as c = [] then 0 else 1) ∧ post s tm c w'

/-- No word of the stores of the instruction is resolved under a binding that its page has no more (R110): the core has read
none of them ahead under another binding. -/
def OneBinding (c : Ctx) (tm : Team) (as : List Acc) : Prop :=
  ∀ a ∈ as, ∀ j, 4 * j < a.n → ∀ e, Tab.find (a.ea + BitVec.ofNat 64 (4 * j)).toNat c.fr.early = some e → e.n = 4 →
    e.bound = tm.boundAt (a.ea + BitVec.ofNat 64 (4 * j))

/-- An instruction that stores: in list order, the n bytes of each value at its address, so that a later one of two stores to one
byte remains (R82); the places are in the team's window or in global memory. It completes; every other byte that its wave sees is
as before, and a poisoned line stays so unless it was stored whole (R370). -/
def StoresMemory (j : Instr) (n : Ctx → Nat) (stores : Ctx → List (Nat × Dword × Nat)) (al : Ctx → Nat) : Prop :=
  j.wellFormed = true → ∀ (s : State) (k i : Nat) (w : Wave) (fr : Frag) (tm : Team),
    Issues s k i w fr → Admits (insOf j) w fr → Undisturbed (insOf j) w →
    let c := ctxOf j k i w fr
    let as := (stores c).map fun x => (⟨x.1, x.2.1, al c, n c, false, true⟩ : Acc)
    CanAccess s c tm as → OneBinding c tm as → (∀ x ∈ stores c, ∀ t, placeOf s (s.partOf w) tm x.2.1 ≠ some (.stash t)) →
      ∃ t w', exec j s = .next t ∧ Stored s t k w.team ∧ Tab.find k t.waves = some w' ∧ KeptBesideLoads c w' ∧
        w'.outstanding = w.outstanding ∧ (∀ r l, r < 128 → l < 32 → w'.reg r l = w.reg r l) ∧ w'.scales = w.scales ∧
        (∀ p, (∀ x, p ≠ .stash x) →
          c.sees t p = (stores c).foldl (fun v x => viewWrite v (c.places s tm x.2.1 (n c)) x.2.2) (c.sees s) p) ∧
        ∀ line, line ∈ t.poison ↔ line ∈ s.poison ∧
          ¬ ∀ b, b < 128 → ∃ x ∈ stores c, Place.home (128 * line + b) ∈ c.places s tm x.2.1 (n c)

/-- The trap code and the SUB of the first check of R99 and R103 that an access of n bytes, aligned to al, fails. -/
def accessFault (s : State) (p : Nat) (tm : Team) (al n : Nat) (rd wr : Bool) (ea : Dword) : Option (Nat × Nat) :=
  let held := fun (e : Option (Pte × Nat)) => e.elim false fun x => (!rd || x.1.r) && (!wr || x.1.w)
  if ea.toNat % al ≠ 0 then some (0x04, 0)
  else
    match classify ea with
    | .nonCanonical => some (0x05, 0)
    | .global va =>
      if s.translate p va = none then some (0x05, 1) else if held (s.translate p va) then none else some (0x06, 0)
    | .scratch t =>
      if tm.window < t + n then some (0x07, 0)
      else
        match (tm.page t).bound with
        | none => none
        | some b =>
          if wr && ((tm.page t).line t).dirty.isNone && !((s.translate p (b.1 + t % 4096)).elim false fun x => x.1.w) then
            some (0x06, 0)
          else none

/-- Of accesses of n bytes, one a lane, in lane order, the first that fails a check traps, with its lane and address, and
nothing is accessed (R99, R213). -/
def TrapsOnAccess (j : Instr) (n : Ctx → Nat) (eas : Ctx → List (Nat × Dword)) (rd wr : Bool) : Prop :=
  j.wellFormed = true → ∀ (s : State) (k i : Nat) (w : Wave) (fr : Frag) (tm : Team) (x : Nat × Dword) (b : Nat × Nat),
    Issues s k i w fr → Admits (insOf j) w fr → s.teamOf w = some tm →
    let c := ctxOf j k i w fr
    let fault := accessFault s (s.partOf w) tm (n c) (n c) rd wr
    x ∈ eas c → fault x.2 = some b → (∀ y ∈ eas c, y.1 < x.1 → fault y.2 = none) →
      exec j s = .next ((s.tick (coreOf k)).trapIssue k i w
        { code := b.1, sub := b.2, write := wr, lane := x.1, addr := x.2 })

/-- The accesses pass every check, but some page of them cannot be pinned now (R102). -/
def NoRoom (s : State) (c : Ctx) (as : List Acc) : Prop :=
  ∃ tm, s.teamOf c.w = some tm ∧ c.failing s tm as = none ∧ (∀ a ∈ as, s.breaks (s.partOf c.w) tm a = false) ∧
    s.canPin c.w.team (teamAddrs as) = false

/-- An instruction whose accesses find no room for their pages waits, with nothing accessed (R102, R219). -/
def WaitsForRoom (j : Instr) (as : Ctx → List Acc) : Prop :=
  Completes j (fun s c => NoRoom s c (as c)) fun _ _ c w' => Stands .stall c w'

/-- The accesses lie in stash-mapped pages of the team, each bound to a physical page of its own, of the lines of which nobody
else holds newer bytes (R103). -/
def InStash (s : State) (c : Ctx) (tm : Team) (as : List Acc) : Prop :=
  let at' := fun (a : Acc) (t : Nat) (b : Nat × Nat) =>
    placeOf s (s.partOf c.w) tm a.ea = some (.stash t) ∧ (tm.page t).bound = some b
  let cl := clusterOf (coreOf c.k)
  ∀ a ∈ as, ∃ t b, at' a t b ∧ b.2 % 4096 = 0 ∧
    (∀ bs, ((tm.page t).line t).dirty = some bs → bs.length = 128) ∧
    (∀ e ∈ s.teams, ∀ q ∈ e.2.pages, e.1 ≠ c.w.team ∨ q.1 ≠ t / 4096 → q.2.dirtyOf (lineOf (b.2 + t % 4096)) = none) ∧
    (∀ e ∈ s.clusters, e.1 ≠ cl → Tab.find (lineOf (b.2 + t % 4096)) e.2.dirty = none ∧
      Tab.find (lineOf (b.2 + t % 4096)) e.2.wrote = none) ∧
    ∀ a' ∈ as, ∀ t' b', at' a' t' b' → t' / 4096 ≠ t / 4096 → b'.2 / 4096 ≠ b.2 / 4096

/-- After stores to stash-mapped lines of a team (R103): each stored line is owned; outside the wave only what accesses leave,
the dirty lines of the wave's cluster and the bytes published from them have changed, and no byte that the wave sees at a home
or in the window. -/
structure StashStored (s t : State) (c : Ctx) (tm : Team) (as : List Acc) : Prop where
  waves : ∀ j, j ≠ c.k → (Tab.find j t.waves).map Wave.unbound = (Tab.find j s.waves).map Wave.unbound
  teams : ∀ j, (Tab.find j t.teams).map Team.unaccessed = (Tab.find j s.teams).map Team.unaccessed
  cores : ∀ n, (t.core n).uncached = (s.core n).uncached
  clusters : ∀ n, { (t.cluster n).uncached with dirty := [] } = { (s.cluster n).uncached with dirty := [] }
  others : ∀ n, n ≠ clusterOf (coreOf c.k) → (t.cluster n).dirty = (s.cluster n).dirty
  mem : ∀ a, memRead t.mem a = memRead s.mem a ∨ memRead t.mem a = s.seen (clusterOf (coreOf c.k)) a
  seen : ∀ p, (∀ x, p ≠ .stash x) → c.sees t p = c.sees s p
  owned : ∀ a ∈ as, ∀ x, placeOf s (s.partOf c.w) tm a.ea = some (.stash x) →
    ∃ tm', Tab.find c.w.team t.teams = some tm' ∧ ((tm'.page x).line x).dirty.isSome = true
  rest : t = { s with waves := t.waves, teams := t.teams, cores := t.cores, clusters := t.clusters, mem := t.mem,
                      loose := t.loose, frees := t.frees }

/-- Instruction `j` completes with the effect of the operation `op` on the state, and goes on: beside `op` nothing changes outside
the wave, and in the wave nothing but its fragment and its marks. -/
def ActsBy (op : State → Ctx → State) (j : Instr) (pre : State → Ctx → Prop) : Prop :=
  CompletesVia op Team.unstepped j pre fun s _ c w' =>
    ∃ wb, Tab.find c.k (op s c).waves = some wb ∧ KeptButFrags wb w' ∧
      (∀ n, n ≠ c.i → w'.frags[n]? = wb.frags[n]?) ∧
      ∃ fr', w'.frags[c.i]? = some fr' ∧ GoesOn c.fr fr' c.ins.len

end Sys2Proof.Machine
end

