-- ==== Sys2Proof/Certificates/Slice0/Obligations.lean ====
section
/-! DEFINITION. The statements for the provers, each a rule of the spec or a property of the whole machine. -/

open Sys2Proof Sys2Proof.Machine

/-! ### Fragments -/

/-- R132, R273, R209, R217: at every instruction boundary the fragments of a wave have masks that are not empty and, within
one set, disjoint; there are at most 32 of them; outside a generator region they are one set, whose lanes together are the
live lanes, and inside one the producers hold the region lanes not yet retired. Every step keeps this of every wave, from
every state that has it and whose next event, where the agenda names one, is no instruction of a wave. -/
def Obligations.EveryStepKeepsFragments : Prop :=
  ∀ (s t : State), (∀ i rest, s.agenda = .event i :: rest → i.form = .event) → Tab.sorted s.waves = true →
    (∀ e ∈ s.waves, e.2.Formed) → step s = .next t → Tab.sorted t.waves = true ∧ ∀ e ∈ t.waves, e.2.Formed

/-! ### Integer instructions -/

/-- R147: IADD, ISUB, INEG and IABS in every encoding, modulo 2^w. R147, R149: IMUL gives the low and IMULH the high w bits
of the exact product, IMAD adds c to the product, ICSADD adds, subtracts or passes by the sign of the trit. R147, R151:
the least and greatest of two, the clamp between a lower and an upper bound, and ISAT, which clamps a 32-bit value read
as signed or unsigned to the range of the target type. -/
def Obligations.IntegerArithmeticResults : Prop :=
  (
    let add := fun (c : Ctx) l => c.bitsA l + c.bitsB l
    let sub := fun (c : Ctx) l => c.bitsA l - c.bitsB l
    let neg := fun (c : Ctx) l => 0 - c.bitsA l
    let abs := fun (c : Ctx) l => if (c.bitsA l).slt 0 then 0 - c.bitsA l else c.bitsA l
    (∀ f, TypedResult (.iadd f) add) ∧ (∀ f, TypedResult (.iaddImm f) add) ∧
    (∀ f, TypedResult (.iaddB32 f) add) ∧ (∀ f, TypedResult (.iaddB32Imm f) add) ∧
    (∀ f, TypedResult (.isub f) sub) ∧ (∀ f, TypedResult (.isubImm f) sub) ∧
    (∀ f, TypedResult (.isubB32 f) sub) ∧ (∀ f, TypedResult (.isubB32Imm f) sub) ∧
    (∀ f, TypedResult (.ineg f) neg) ∧ (∀ f, TypedResult (.inegB32 f) neg) ∧
    (∀ f, TypedResult (.iabs f) abs) ∧ ∀ f, TypedResult (.iabsB32 f) abs) ∧
  (
    let mul := fun (c : Ctx) l => c.bitsA l * c.bitsB l
    let mulh := fun (c : Ctx) l =>
      if tySigned c.f.t then BitVec.ofInt _ ((c.bitsA l).toInt * (c.bitsB l).toInt / 2 ^ (32 * typeWords c))
      else BitVec.ofNat _ ((c.bitsA l).toNat * (c.bitsB l).toNat / 2 ^ (32 * typeWords c))
    (∀ f, TypedResult (.imul f) mul) ∧ (∀ f, TypedResult (.imulImm f) mul) ∧
    (∀ f, TypedResult (.imulB32 f) mul) ∧ (∀ f, TypedResult (.imulB32Imm f) mul) ∧
    (∀ f, TypedResult (.imulh f) mulh) ∧ (∀ f, TypedResult (.imulhB32 f) mulh) ∧
    (∀ f, TypedResult (.imad f) fun c l => c.bitsA l * c.bitsB l + c.bitsC l) ∧
    ∀ f, TypedResult (.icsadd f) fun c l =>
      let t := (c.w.reg c.f.c.toNat l).toInt
      if 0 < t then c.bitsA l + c.bitsB l else if t < 0 then c.bitsA l - c.bitsB l else c.bitsA l) ∧
  (
    let le := fun (c : Ctx) (a b : BitVec (32 * typeWords c)) => if tySigned c.f.t then a.sle b else a.ule b
    let least := fun (c : Ctx) (a b : BitVec (32 * typeWords c)) => if le c a b then a else b
    let most := fun (c : Ctx) (a b : BitVec (32 * typeWords c)) => if le c b a then a else b
    let mn := fun (c : Ctx) l => least c (c.bitsA l) (c.bitsB l)
    let mx := fun (c : Ctx) l => most c (c.bitsA l) (c.bitsB l)
    (∀ f, TypedResult (.imin f) mn) ∧ (∀ f, TypedResult (.iminImm f) mn) ∧
    (∀ f, TypedResult (.iminB32 f) mn) ∧ (∀ f, TypedResult (.iminB32Imm f) mn) ∧
    (∀ f, TypedResult (.imax f) mx) ∧ (∀ f, TypedResult (.imaxImm f) mx) ∧
    (∀ f, TypedResult (.imaxB32 f) mx) ∧ (∀ f, TypedResult (.imaxB32Imm f) mx) ∧
    (∀ f, TypedResult (.iclamp f) fun c l => least c (most c (c.bitsA l) (c.bitsB l)) (c.bitsC l)) ∧
    ∀ f, ResultInD (.isat f) (fun _ => 1) fun c l =>
      let v : Int := if f.m = 1 then ((c.w.reg f.a.toNat l).toNat : Int) else (c.w.reg f.a.toNat l).toInt
      let lo : Int := match f.t.toNat with | 0 => -128 | 1 => -32768 | 2 => -2147483648 | _ => 0
      let hi : Int := match f.t.toNat with
        | 0 => 127 | 1 => 32767 | 2 => 2147483647 | 4 => 255 | 5 => 65535 | _ => 4294967295
      (BitVec.ofInt 32 (max lo (min v hi))).toNat)

/-- R148: IADDC and ISUBB write the sum or difference to vD and then the carry or borrow word to vE; the B32 forms take it
from v0 and write it to v0. R150: IDIV writes the quotient, truncated toward zero, and the remainder, and never traps on
its data: a divisor of zero gives all ones and the dividend, the most negative value by -1 gives itself and 0. -/
def Obligations.CarryBorrowAndDivide : Prop :=
  (
    let addc := fun (cr er : Nat) (c : Ctx) l =>
      let m := c.src l
      let t := (c.bitsA m).toNat + (c.bitsB m).toNat + (if (c.w.reg cr m).getLsbD 0 then 1 else 0)
      valueIn (typeWords c) c.f.d.toNat (t % 2 ^ (32 * typeWords c)) ++
        [(er, if 2 ^ (32 * typeWords c) ≤ t then 1 else 0)]
    let subb := fun (cr er : Nat) (c : Ctx) l =>
      let m := c.src l
      let cin := if (c.w.reg cr m).getLsbD 0 then 1 else 0
      valueIn (typeWords c) c.f.d.toNat (c.bitsA m - c.bitsB m - BitVec.ofNat _ cin).toNat ++
        [(er, if (c.bitsA m).toNat < (c.bitsB m).toNat + cin then 1 else 0)]
    (∀ f, WritesRegs (.iaddc f) (addc f.c.toNat f.e.toNat)) ∧ (∀ f, WritesRegs (.iaddcB32 f) (addc 0 0)) ∧
    (∀ f, WritesRegs (.isubb f) (subb f.c.toNat f.e.toNat)) ∧ ∀ f, WritesRegs (.isubbB32 f) (subb 0 0)) ∧
  (
    ∀ f, WritesRegs (.idiv f) fun c l =>
      let a := c.bitsA (c.src l)
      let b := c.bitsB (c.src l)
      let q := if b = 0 then BitVec.allOnes _ else if tySigned f.t then a.sdiv b else a / b
      let r := if b = 0 then a else if tySigned f.t then a.srem b else a % b
      valueIn (typeWords c) f.d.toNat q.toNat ++ valueIn (typeWords c) f.e.toNat r.toNat)

/-- R152: AND, OR, XOR, ANDN and NOT in every encoding. R152: SHL, SHR, SAR and ROT by operand B, a single register or
immediate, modulo w; SAR copies the top bit for every type, and ROT rotates to the left. -/
def Obligations.LogicAndShiftResults : Prop :=
  (
    let and := fun (c : Ctx) l => c.bitsA l &&& c.bitsB l
    let or := fun (c : Ctx) l => c.bitsA l ||| c.bitsB l
    let xor := fun (c : Ctx) l => c.bitsA l ^^^ c.bitsB l
    let andn := fun (c : Ctx) l => c.bitsA l &&& ~~~(c.bitsB l)
    let not := fun (c : Ctx) l => ~~~(c.bitsA l)
    (∀ f, TypedResult (.and f) and) ∧ (∀ f, TypedResult (.andImm f) and) ∧
    (∀ f, TypedResult (.andB32 f) and) ∧ (∀ f, TypedResult (.andB32Imm f) and) ∧
    (∀ f, TypedResult (.or f) or) ∧ (∀ f, TypedResult (.orImm f) or) ∧
    (∀ f, TypedResult (.orB32 f) or) ∧ (∀ f, TypedResult (.orB32Imm f) or) ∧
    (∀ f, TypedResult (.xor f) xor) ∧ (∀ f, TypedResult (.xorImm f) xor) ∧
    (∀ f, TypedResult (.xorB32 f) xor) ∧ (∀ f, TypedResult (.xorB32Imm f) xor) ∧
    (∀ f, TypedResult (.andn f) andn) ∧ (∀ f, TypedResult (.andnImm f) andn) ∧
    (∀ f, TypedResult (.andnB32 f) andn) ∧ (∀ f, TypedResult (.andnB32Imm f) andn) ∧
    (∀ f, TypedResult (.not f) not) ∧ ∀ f, TypedResult (.notB32 f) not) ∧
  (
    let n := fun (c : Ctx) l => c.opB 1 l % (32 * typeWords c)
    let shl := fun (c : Ctx) l => c.bitsA l <<< n c l
    let shr := fun (c : Ctx) l => c.bitsA l >>> n c l
    let sar := fun (c : Ctx) l => (c.bitsA l).sshiftRight (n c l)
    let rot := fun (c : Ctx) l => (c.bitsA l).rotateLeft (n c l)
    (∀ f, TypedResult (.shl f) shl) ∧ (∀ f, TypedResult (.shlImm f) shl) ∧
    (∀ f, TypedResult (.shlB32 f) shl) ∧ (∀ f, TypedResult (.shlB32Imm f) shl) ∧
    (∀ f, TypedResult (.shr f) shr) ∧ (∀ f, TypedResult (.shrImm f) shr) ∧
    (∀ f, TypedResult (.shrB32 f) shr) ∧ (∀ f, TypedResult (.shrB32Imm f) shr) ∧
    (∀ f, TypedResult (.sar f) sar) ∧ (∀ f, TypedResult (.sarImm f) sar) ∧
    (∀ f, TypedResult (.sarB32 f) sar) ∧ (∀ f, TypedResult (.sarB32Imm f) sar) ∧
    (∀ f, TypedResult (.rot f) rot) ∧ (∀ f, TypedResult (.rotImm f) rot) ∧
    (∀ f, TypedResult (.rotB32 f) rot) ∧ ∀ f, TypedResult (.rotB32Imm f) rot)

/-- R153, R154: BFX extracts len bits from pos and extends them by the type, BFI replaces them; POPC counts the 1 bits, CLZ
and CTZ the 0 bits above the highest and below the lowest 1 (w for 0), written to vD alone; BREV moves bit i to w - 1 -
i. R155, R156, R157: ICMP writes 1 or 0 by M, signed for .i types and unsigned for .n types; SEL chooses by bit 0 of vC;
LEA adds the shifted signed vB and the signed immediate; MOV writes operand B and MOVI the sign-extended immediate. -/
def Obligations.BitFieldCompareAndMove : Prop :=
  (
    let bitsUp := fun (c : Ctx) l => (List.range (32 * typeWords c)).map fun j => (c.bitsA l).getLsbD j
    let popc := fun (c : Ctx) l => (bitsUp c l).count true
    let clz := fun (c : Ctx) l => ((bitsUp c l).reverse.takeWhile fun b => !b).length
    let ctz := fun (c : Ctx) l => ((bitsUp c l).takeWhile fun b => !b).length
    let brev := fun (c : Ctx) l => (c.bitsA l).reverse
    (∀ f, TypedResult (.bfx f) fun c l =>
      let n := f.imm.toNat / 64
      let x := (c.bitsA l).extractLsb' (f.imm.toNat % 64) n
      if n = 0 then 0 else if tySigned f.t then x.signExtend _ else x.setWidth _) ∧
    (∀ f, TypedResult (.bfi f) fun c l =>
      let p := f.imm.toNat % 64
      let mask : BitVec (32 * typeWords c) := BitVec.ofNat _ ((2 ^ (f.imm.toNat / 64) - 1) * 2 ^ p)
      (c.bitsA l &&& ~~~mask) ||| ((c.bitsB l <<< p) &&& mask)) ∧
    (∀ f, ResultInD (.popc f) (fun _ => 1) popc) ∧ (∀ f, ResultInD (.popcB32 f) (fun _ => 1) popc) ∧
    (∀ f, ResultInD (.clz f) (fun _ => 1) clz) ∧ (∀ f, ResultInD (.clzB32 f) (fun _ => 1) clz) ∧
    (∀ f, ResultInD (.ctz f) (fun _ => 1) ctz) ∧ (∀ f, ResultInD (.ctzB32 f) (fun _ => 1) ctz) ∧
    (∀ f, TypedResult (.brev f) brev) ∧ ∀ f, TypedResult (.brevB32 f) brev) ∧
  (
    let mov := fun (c : Ctx) l => c.bitsB l
    (∀ f, ResultInD (.icmp f) (fun _ => 1) fun c l =>
      let a : Int := if tySigned f.t then (c.bitsA l).toInt else (c.bitsA l).toNat
      let b : Int := if tySigned f.t then (c.bitsB l).toInt else (c.bitsB l).toNat
      let holds : Bool := match f.m.toNat with
        | 0 => decide (a = b) | 1 => decide (a ≠ b) | 2 => decide (a < b) | 3 => decide (a ≤ b)
        | 4 => decide (b < a) | _ => decide (b ≤ a)
      if holds then 1 else 0) ∧
    (∀ f, TypedResult (.sel f) fun c l =>
      if (c.w.reg f.c.toNat l).getLsbD 0 then c.bitsA l else c.bitsB l) ∧
    (∀ f, TypedResult (.lea f) fun c l =>
      c.bitsA l + (((c.w.reg f.b.toNat l).signExtend 64 <<< f.m.toNat) + f.imm.signExtend 64).setWidth _) ∧
    (∀ f, TypedResult (.mov f) mov) ∧ (∀ f, TypedResult (.movB32 f) mov) ∧
    (∀ f, TypedResult (.movi f) fun _ _ => f.imm.signExtend _) ∧
    ∀ f, TypedResult (.moviB32 f) fun _ _ => f.b.signExtend _)

/-! ### Lanes, modes and control -/

/-- R166 to R170: SHFL, VOTE, REDX, SCANX and MATCH act over the enabled lanes alone, every source read before any lane is
written: SHFL takes lane s where it lies in the set and the own value otherwise; REDX combines by the fixed tree of R76,
SCANX in ascending lane order; VOTE and MATCH write masks. That a float SCANX gives its first enabled lane the value
unchanged is the model's choice (log entry 89). -/
def Obligations.CrossLaneResults : Prop :=
  (∀ f, WritesRegs (.shfl f) fun c l =>
    let s : Int := match f.m.toNat with
      | 0 => ((c.w.reg f.b.toNat l).toNat % 32 : Nat)
      | 1 => (l : Int) - f.imm.toNat
      | 2 => (l : Int) + f.imm.toNat
      | _ => ((l ^^^ f.imm.toNat : Nat) : Int)
    valueIn (typeWords c) f.d.toNat
      (if 0 ≤ s ∧ s < 32 ∧ s.toNat ∈ c.lanes then c.bitsA s.toNat else c.bitsA l).toNat) ∧
  (∀ f, WritesRegs (.vote f) fun c _ =>
    let b := maskOf (c.lanes.filter fun m => (c.w.reg f.a.toNat m).getLsbD 0)
    [(f.d.toNat,
      match f.m.toNat with
      | 0 => if b ≠ 0 then 1 else 0
      | 1 => if b = maskOf c.lanes then 1 else 0
      | 2 => b
      | _ => if ∀ m ∈ c.lanes, ∀ n ∈ c.lanes, c.w.reg f.a.toNat m = c.w.reg f.a.toNat n then 1 else 0)]) ∧
  (∀ f, WritesRegs (.redx f) fun c _ =>
    valueIn (typeWords c) f.d.toNat
      ((pairTree (combineBits c) (fun m => if m ∈ c.lanes then some (c.bitsA m) else none) 5 0).getD 0).toNat) ∧
  (∀ f, WritesRegs (.scanx f) fun c l =>
    valueIn (typeWords c) f.d.toNat
      (foldFrom (combineBits c) 0 ((c.lanes.filter fun m => decide (m ≤ l)).map c.bitsA)).toNat) ∧
  ∀ f, WritesRegs (.matchLanes f) fun c l =>
    [(f.d.toNat, maskOf (c.lanes.filter fun m => decide (c.bitsA m = c.bitsA l)))]

/-- R135: GET writes the special register that IMM18 selects, in each enabled lane the value of the lane written or, with U =
1, of the lowest enabled lane; the clock is what the core's cycle counter holds when the instruction has issued. R137, R138,
R139: SETMODE writes the mode register from IMM18 or from the lowest enabled lane, reserved bits as 0 and a rounding mode
above 4 as 0, and has no effect without an enabled lane; GETMODE reads it. R134: XLOCK by a wave whose partner, resident or of
the same launch, does not hold the pair's row takes it, and the row reads zero; by a holder, or with no enabled lane, it does
nothing. XFREE by a holder gives the row up. Both mark the bindings over v64 and up stale (R196). -/
def Obligations.ModesSpecialsAndExtendedRow : Prop :=
  (
    ∀ f, Completes (.get f)
      (fun s c => (s.teamOf c.w).isSome ∧ (s.launchOf c.w).isSome)
      fun s t c w' => ∀ tm la, s.teamOf c.w = some tm → s.launchOf c.w = some la →
        Wrote (fun c l' =>
          let l := c.src l'
          let i := 32 * c.w.num + l
          let x := i % tm.shape.1
          let y := i / tm.shape.1 % tm.shape.2.1
          let z := i / (tm.shape.1 * tm.shape.2.1)
          let v : Nat := match f.imm.toNat with
            | 0 => l | 1 => c.k % 48 | 2 => tm.num | 3 => tm.waves.length
            | 4 => tm.shape.1 * tm.shape.2.1 * tm.shape.2.2
            | 5 => tm.origin.1 + x | 6 => tm.origin.2.1 + y | 7 => tm.origin.2.2 + z
            | 8 => tm.origin.1 | 9 => tm.origin.2.1 | 10 => tm.origin.2.2
            | 11 => tm.shape.1 | 12 => tm.shape.2.1 | 13 => tm.shape.2.2
            | 14 => la.space.1 | 15 => la.space.2.1 | 16 => la.space.2.2
            | 17 => la.id.toNat | 18 => tm.place.1 | 19 => tm.place.2.1 | 20 => tm.place.2.2 | 21 => la.part
            | 22 => (t.core (coreOf c.k)).clock.toNat
            | 23 => c.fr.mask.toNat | 24 => c.w.frags.length | _ => c.w.landing.entries.length
          valueIn (if f.imm.toNat = 22 then 2 else 1) f.d.toNat v) c w') ∧
  (
    (∀ f, ChangesWave (.setmode f) (fun _ _ => True) fun c w =>
      let v : Word := if f.m = 1 then c.w.reg f.a.toNat (c.lanes.headD 0) else f.imm.setWidth 32
      if c.lanes = [] then w
      else { w with mode := if (v &&& 7#32).toNat ≤ 4 then v &&& 0x37#32 else v &&& 0x30#32 }) ∧
    ∀ f, WritesRegs (.getmode f) fun c _ => [(f.d.toNat, c.w.mode)]) ∧
  (
    let others := fun (s : State) (c : Ctx) => c.w.ext = true ∨
      ∀ e ∈ s.waves, e.1 % 12288 ≠ (c.k % 12288) ^^^ 1 ∨ e.2.ext = false ∨
        (e.2.spilt = true ∧ (s.teamOf e.2).map Team.launch ≠ (s.teamOf c.w).map Team.launch)
    let cleared := fun (c : Ctx) (w' : Wave) (held : Bool) =>
      w' = { c.w with ext := held, regs := w'.regs, binds := w'.binds, frags := w'.frags, parked := w'.parked,
                      evictable := w'.evictable } ∧
      (∀ r l, r < 128 → l < 32 → w'.reg r l = if 64 ≤ r then 0 else c.w.reg r l) ∧
      ∀ b, w'.bind b =
        if bindKind (c.w.bind b) = 1 ∧ 64 ≤ bindInfo (c.w.bind b) % 128 + bindInfo (c.w.bind b) / 128 % 8
        then c.w.bind b ||| 0x80000000#32 else c.w.bind b
    let on := fun (c : Ctx) (w' : Wave) =>
      (∀ n, n ≠ c.i → w'.frags[n]? = c.w.frags[n]?) ∧ ∃ fr', w'.frags[c.i]? = some fr' ∧ GoesOn c.fr fr' c.ins.len
    (∀ f, Completes (.xlock f) others fun _ _ c w' =>
      on c w' ∧ if c.lanes = [] ∨ c.w.ext = true then KeptButFrags c.w w' else cleared c w' true) ∧
    ∀ f, Completes (.xfree f) (fun _ _ => True) fun _ _ c w' =>
      on c w' ∧ if c.lanes = [] ∨ c.w.ext = false then KeptButFrags c.w w' else cleared c w' false)

/-- R158, R159, R165: BRA moves the whole fragment to PC + 4 · off and leaves its tokens; NOP goes on; neither changes a
register or another fragment. R160: BRC adds the token; without divergence the whole fragment takes the target or goes
on; otherwise the smaller side, the taken one at a tie, becomes a new fragment at its own PC with the tokens and the
priority copied. The items of the lanes that detach enter the group's minority map, but in a handler or in consumer mode
(R297); that is stated of a wave none of whose lanes a debugger's lane-step has taken apart (R312). -/
def Obligations.BranchesAndNop : Prop :=
  (
    let moved := fun (off : Dword) (c : Ctx) (w' : Wave) =>
      KeptButFrags c.w w' ∧ OtherFrags c.w w' c.i ∧
        ∃ fr', w'.frags[c.i]? = some fr' ∧ Goes fr' (c.fr.pc + 4 * off) c.fr.mask c.fr.tokens
    (∀ f, Completes (.bra f) (fun _ _ => True) fun _ _ c w' => moved (f.imm.signExtend 64) c w') ∧
    (∀ f, Completes (.braB32 f) (fun _ _ => True) fun _ _ c w' => moved (f.b.signExtend 64) c w') ∧
    (∀ f, WritesRegs (.nop f) fun _ _ => []) ∧ ∀ f, WritesRegs (.nopB32 f) fun _ _ => []) ∧
  (
    ∀ f, CompletesUpTo Team.unmarked (.brc f)
      (fun _ c => c.w.landing.inReg = true → c.w.frags.length < 32)
      fun s t c w' =>
        let taken := laneMask (fun l => (c.w.reg f.a.toNat l).getLsbD 0 == (f.m == 0)) c.fr.mask
        let rest := c.fr.mask &&& ~~~taken
        let tok := c.fr.tokens ||| (1#16 <<< f.c.toNat)
        let target := c.fr.pc + 4 * f.imm.signExtend 64
        let next := c.fr.pc + 12
        KeptButFrags { c.w with kin := w'.kin, late := w'.late } w' ∧
        (∀ n, n < c.w.frags.length → n ≠ c.i → w'.frags[n]? = c.w.frags[n]?) ∧
        (c.w.kin = [] → w'.kin = [] ∧ w'.late = c.w.late ∧ MarksDetached s t c fun l =>
          rest ≠ 0 ∧ taken ≠ 0 ∧ (if (lanesOf taken).length ≤ (lanesOf rest).length then taken else rest).getLsbD l) ∧
        ∃ fr', w'.frags[c.i]? = some fr' ∧
          if rest = 0 ∨ taken = 0 then
            w'.frags.length = c.w.frags.length ∧
              Goes fr' (if rest = 0 then target else next) c.fr.mask tok
          else
            let small := (lanesOf taken).length ≤ (lanesOf rest).length
            let out := if small then taken else rest
            w'.frags.length = c.w.frags.length + 1 ∧
            Goes fr' (if small then next else target) (c.fr.mask &&& ~~~out) tok ∧
            ∃ fr2, w'.frags[c.w.frags.length]? = some fr2 ∧ Goes fr2 (if small then target else next) out tok ∧
              fr2.prio = c.fr.prio)

/-- R161: a JOIN t that every other active fragment holding t has reached merges at once: the active fragments waiting at
the same JOIN and this one become one fragment with the union of the masks and the union of the token sets without t,
after the JOIN, at priority 0; a fragment alone goes on so (log entry 92). Each arrival performs a .wave release (R84, R119). A
fragment that waits at no JOIN stays as it is. While some other active fragment holds t and has not reached a JOIN t,
the fragment waits. R132, R165: EXIT outside a generator region ends the fragment: its lanes leave the live set and the
fragment is gone, which may end a handler (R217) or a JOIN (R161); with no lane left live the wave has exited and its
slot is free (it is free from then on: the model's choice, log entry 83), and lanes that would have detached without a
debugger's lane-steps enter the group's minority map then (R312). Stated of a wave with no open arrival record, no fault
due to a fragment that waits at a JOIN and, for the exit of the wave, no pending fault and no table load of its own in
flight. -/
def Obligations.JoinsAndExits : Prop :=
  (
    let base := fun (s : State) (c : Ctx) => c.release 0 s
    let other := fun (c : Ctx) (n : Nat) (g : Frag) =>
      n ≠ c.i ∧ c.w.frags[n]? = some g ∧ c.w.active g = true
    let meets := fun (t : Nat) (_ : State) (c : Ctx) => c.w.active c.fr = true ∧
      (∀ g ∈ c.w.frags, g.due.isSome = true → c.w.faults = [] ∧ ∃ u nx, g.wait = .join u nx) ∧
      ∀ n g, other c n g →
        (g.tokens.getLsbD t = true → ∃ nx, g.wait = .join t nx) ∧
        (∀ nx, g.wait = .join t nx → g.pc = c.fr.pc → nx = c.fr.pc + BitVec.ofNat 64 c.ins.len)
    let misses := fun (t : Nat) (_ : State) (c : Ctx) => c.w.active c.fr = true ∧
      (∃ n g, other c n g ∧ g.tokens.getLsbD t = true ∧ ∀ nx, g.wait ≠ .join t nx) ∧
      (∀ n g, other c n g → g.mask &&& c.fr.mask = 0) ∧ c.fr.mask ≠ 0
    let group := fun (t : Nat) (c : Ctx) (g : Frag) =>
      g = c.fr ∨ ∃ n nx, other c n g ∧ g.wait = .join t nx ∧ g.pc = c.fr.pc
    let merged := fun (t : Nat) (_ _ : State) (c : Ctx) (w' : Wave) =>
      KeptButFrags { c.w with kin := w'.kin, late := w'.late } w' ∧ (c.w.kin = [] → w'.kin = [] ∧ w'.late = c.w.late) ∧
      (∀ n g, n ≠ c.i → c.w.frags[n]? = some g → (∀ u nx, g.wait ≠ .join u nx) → g ∈ w'.frags) ∧
      ∃ fr' ∈ w'.frags, fr'.pc = c.fr.pc + BitVec.ofNat 64 c.ins.len ∧ fr'.wait = .none ∧ fr'.prio = 0 ∧ fr'.rep = none ∧
        (∀ l, l < 32 → (fr'.mask.getLsbD l = true ↔ ∃ g, group t c g ∧ g.mask.getLsbD l = true)) ∧
        ∀ u, u < 16 → (fr'.tokens.getLsbD u = true ↔ u ≠ t ∧ ∃ g, group t c g ∧ g.tokens.getLsbD u = true)
    let waits := fun (t : Nat) (_ _ : State) (c : Ctx) (w' : Wave) =>
      KeptButFrags { c.w with kin := w'.kin, late := w'.late } w' ∧ (c.w.kin = [] → w'.kin = [] ∧ w'.late = c.w.late) ∧
        OtherFrags c.w w' c.i ∧ ∃ fr', w'.frags[c.i]? = some fr' ∧
        fr'.wait = .join t (c.fr.pc + BitVec.ofNat 64 c.ins.len) ∧ fr'.pc = c.fr.pc ∧ fr'.mask = c.fr.mask ∧
        fr'.tokens = c.fr.tokens
    (∀ f, CompletesVia base Team.unstepped (.join f) (meets f.imm.toNat) (merged f.imm.toNat)) ∧
    (∀ f, CompletesVia base Team.unstepped (.joinB32 f) (meets f.b.toNat) (merged f.b.toNat)) ∧
    (∀ f, CompletesVia base Team.unstepped (.join f) (misses f.imm.toNat) (waits f.imm.toNat)) ∧
    ∀ f, CompletesVia base Team.unstepped (.joinB32 f) (misses f.b.toNat) (waits f.b.toNat)) ∧
  (
    let stays := fun (_ : State) (c : Ctx) =>
      c.w.landing.inReg = false ∧ c.w.arrivals = [] ∧ (∀ g ∈ c.w.frags, g.due = none) ∧
        c.w.live &&& ~~~c.fr.mask ≠ 0
    let rest := fun (_ _ : State) (c : Ctx) (w' : Wave) =>
      ∃ pk, w' = { ({ c.w with live := c.w.live &&& ~~~c.fr.mask, frags := c.w.frags.eraseIdx c.i } :
        Wave).endHandler.resolveJoins with parked := pk, evictable := false }
    let last := fun (j : Instr) => j.wellFormed = true → ∀ (s : State) (k i : Nat) (w : Wave) (fr : Frag),
      Issues s k i w fr → Admits (insOf j) w fr → w.landing.inReg = false → w.arrivals = [] → w.faults = [] →
        w.live &&& ~~~fr.mask = 0 → (∀ p ∈ (s.core (coreOf k)).pending, p.wave ≠ some k) →
        ∃ t, exec j s = .next t ∧ KeptUpTo Team.unmarked (s.firm k 0xFFFFFFFF) t k ∧ Tab.find k t.waves = none ∧
          (w.kin = [] → w.late = 0 → KeptRest (s.firm k 0xFFFFFFFF) t k)
    (∀ f, Completes (.exit f) stays rest) ∧ (∀ f, Completes (.exitB32 f) stays rest) ∧
    (∀ f, last (.exit f)) ∧ ∀ f, last (.exitB32 f))

/-- R162: CALL writes the address after it to v46, v47 in every active lane and branches. JMPX and RET, whose targets all are
multiples of 4, group the lanes by target: the group of the lowest lane keeps the fragment, each other group becomes a new
fragment in ascending order of its lowest lane with the tokens and the priority copied. R163: REP with n other than 0 starts
its body, the k instructions that follow, with n iterations to come; with n = 0 it goes on after the k-th following
instruction, found from the L fields of their first words, each fetched as an instruction word is. R163: the k-th instruction
of a REP body starts the body again while iterations are left, at one fewer, and clears the repeat state at the last; the
instructions before it go on in sequence. Stated of NOP, for every repeat state. -/
def Obligations.CallsAndRepBodies : Prop :=
  (
    let call := fun (off : Dword) (_ _ : State) (c : Ctx) (w' : Wave) =>
      let link : Dword := c.fr.pc + BitVec.ofNat 64 c.ins.len
      KeptWave c.w w' c.i ∧ (∃ fr', w'.frags[c.i]? = some fr' ∧ Goes fr' (c.fr.pc + 4 * off) c.fr.mask c.fr.tokens) ∧
      ∀ r l, r < 128 → l < 32 →
        w'.reg r l = if c.fr.mask.getLsbD l ∧ r = 46 then link.setWidth 32
          else if c.fr.mask.getLsbD l ∧ r = 47 then (link >>> 32).setWidth 32 else c.w.reg r l
    let target := fun (a : Nat) (c : Ctx) (l : Nat) => c.w.reg (a + 1) l ++ c.w.reg a l
    let groups := fun (a : Nat) (c : Ctx) => ((lanesOf c.fr.mask).map (target a c)).eraseDups
    let ok := fun (a : Nat) (_ : State) (c : Ctx) => c.fr.mask ≠ 0 ∧
      (∀ l ∈ lanesOf c.fr.mask, (target a c l).toNat % 4 = 0) ∧
      (c.w.landing.inReg = true → c.w.frags.length + (groups a c).length ≤ 33)
    let jump := fun (a : Nat) (s t : State) (c : Ctx) (w' : Wave) =>
      let part := fun (p : Dword) => laneMask (fun l => target a c l == p) c.fr.mask
      KeptButFrags { c.w with kin := w'.kin, late := w'.late } w' ∧
      (∀ n, n < c.w.frags.length → n ≠ c.i → w'.frags[n]? = c.w.frags[n]?) ∧
      w'.frags.length + 1 = c.w.frags.length + (groups a c).length ∧
      (c.w.kin = [] → w'.kin = [] ∧ w'.late = c.w.late ∧
        MarksDetached s t c (fun l => c.fr.mask.getLsbD l ∧ some (target a c l) ≠ (groups a c)[0]?)) ∧
      ∀ n p, (groups a c)[n]? = some p → ∃ fr',
        w'.frags[if n = 0 then c.i else c.w.frags.length + n - 1]? = some fr' ∧ Goes fr' p (part p) c.fr.tokens ∧
          (n ≠ 0 → fr'.prio = c.fr.prio)
    (∀ f, Completes (.call f) (fun _ _ => True) (call (f.imm.signExtend 64))) ∧
    (∀ f, Completes (.callB32 f) (fun _ _ => True) (call (f.b.signExtend 64))) ∧
    (∀ f, CompletesUpTo Team.unmarked (.jmpx f) (ok f.a.toNat) (jump f.a.toNat)) ∧
    (∀ f, CompletesUpTo Team.unmarked (.jmpxB32 f) (ok f.a.toNat) (jump f.a.toNat)) ∧
    (∀ f, CompletesUpTo Team.unmarked (.ret f) (ok 46) (jump 46)) ∧
    ∀ f, CompletesUpTo Team.unmarked (.retB32 f) (ok 46) (jump 46)) ∧
  (
    let count := fun (f : XF) (c : Ctx) =>
      if f.m = 1 then c.w.reg f.a.toNat (lowLane c.fr.mask) else BitVec.ofNat 32 (f.imm.toNat / 32)
    let path := fun (f : XF) (s : State) (c : Ctx) (at' : Nat → Dword) (st : Nat → State) =>
      at' 0 = c.fr.pc + 12 ∧ st 0 = s ∧
      ∀ n, n < f.imm.toNat % 16 + 1 → st (n + 1) = (st n).prepWord (c.who s) c.fr.held (at' n) ∧
        (st (n + 1)).fetchBreaks (c.who s) c.fr.held (at' n) = false ∧
        ∃ x, (st (n + 1)).fetchWord (c.who s) c.fr.held (at' n) = .word x ∧
          at' (n + 1) = at' n + 4 * BitVec.ofNat 64 (instrWords x)
    (∀ f, Completes (.rep f) (fun _ c => count f c ≠ 0) fun _ _ c w' =>
      KeptButFrags c.w w' ∧ OtherFrags c.w w' c.i ∧ ∃ fr', w'.frags[c.i]? = some fr' ∧
        fr'.pc = c.fr.pc + 12 ∧ fr'.mask = c.fr.mask ∧ fr'.tokens = c.fr.tokens ∧ fr'.wait = .none ∧
        fr'.rep = some ⟨c.fr.pc + 12, f.imm.toNat % 16 + 1, count f c, count f c, 0⟩) ∧
    ∀ f (p : Nat → Dword) (st : Nat → State),
      CompletesVia (fun _ _ => st (f.imm.toNat % 16 + 1)) Team.unstepped (.rep f)
        (fun s c => count f c = 0 ∧ path f s c p st) fun _ _ c w' =>
          KeptButFrags c.w w' ∧ OtherFrags c.w w' c.i ∧ ∃ fr', w'.frags[c.i]? = some fr' ∧
            Goes fr' (p (f.imm.toNat % 16 + 1)) c.fr.mask c.fr.tokens) ∧
  (
    let goes := fun (c : Ctx) (w' : Wave) => ∀ r, c.fr.rep = some r → ∃ fr', w'.frags[c.i]? = some fr' ∧
      let next := c.fr.pc + BitVec.ofNat 64 c.ins.len
      if r.idx + 1 < r.k then fr'.pc = next ∧ fr'.rep = some { r with idx := r.idx + 1 }
      else if 1 < r.left.toNat then fr'.pc = r.start ∧ fr'.rep = some { r with left := r.left - 1, idx := 0 }
      else fr'.pc = next ∧ fr'.rep = none
    (∀ f, Completes (.nop f) (fun _ _ => True) fun _ _ c w' => KeptButFrags c.w w' ∧ OtherFrags c.w w' c.i ∧ goes c w') ∧
    ∀ f, Completes (.nopB32 f) (fun _ _ => True) fun _ _ c w' => KeptButFrags c.w w' ∧ OtherFrags c.w w' c.i ∧ goes c w')

/-! ### Floating point and narrow formats -/

/-- R172, R174, R181: FADD, FSUB, FMUL, FFMA and FSQRT form one exact value of the flushed-in operands, round it once under
the mode of R38 and R71 and flush it out; PADD2, PMUL2 and PFMA2 do so in each 16-bit half. -/
def Obligations.FloatArithmeticRoundsOnce : Prop :=
  let F := fun (c : Ctx) => fmtOf c.f.t.toNat
  let a := fun (c : Ctx) l => c.float (F c) (c.opA 1 l)
  let b := fun (c : Ctx) l => c.float (F c) (c.opB 1 l)
  let one := fun (_ : Ctx) => 1
  let add := fun (c : Ctx) l => c.floatReg (F c) c.rm ((a c l).add c.rm (b c l))
  let sub := fun (c : Ctx) l => c.floatReg (F c) c.rm ((a c l).add c.rm (b c l).neg)
  let mul := fun (c : Ctx) l => c.floatReg (F c) c.rm ((a c l).mul (b c l))
  let sqrt := fun (c : Ctx) l => c.floatReg (F c) c.rm (a c l).sqrt
  let half := fun (c : Ctx) (v j : Nat) => c.float (F c) (v / 2 ^ (16 * j))
  let both := fun (c : Ctx) (x : Nat → FVal) =>
    c.floatReg (F c) c.rm (x 0) + 2 ^ 16 * c.floatReg (F c) c.rm (x 1)
  let padd := fun (c : Ctx) l => both c fun j => (half c (c.opA 1 l) j).add c.rm (half c (c.opB 1 l) j)
  let pmul := fun (c : Ctx) l => both c fun j => (half c (c.opA 1 l) j).mul (half c (c.opB 1 l) j)
  (∀ f, ResultInD (.fadd f) one add) ∧ (∀ f, ResultInD (.faddB32 f) one add) ∧
  (∀ f, ResultInD (.fsub f) one sub) ∧ (∀ f, ResultInD (.fsubB32 f) one sub) ∧
  (∀ f, ResultInD (.fmul f) one mul) ∧ (∀ f, ResultInD (.fmulB32 f) one mul) ∧
  (∀ f, ResultInD (.ffma f) one fun c l =>
    c.floatReg (F c) c.rm (((a c l).mul (b c l)).add c.rm (c.float (F c) (c.opC 1 l)))) ∧
  (∀ f, ResultInD (.fsqrt f) one sqrt) ∧ (∀ f, ResultInD (.fsqrtB32 f) one sqrt) ∧
  (∀ f, ResultInD (.padd2 f) one padd) ∧ (∀ f, ResultInD (.padd2B32 f) one padd) ∧
  (∀ f, ResultInD (.pmul2 f) one pmul) ∧ (∀ f, ResultInD (.pmul2B32 f) one pmul) ∧
  ∀ f, ResultInD (.pfma2 f) one fun c l => both c fun j =>
    ((half c (c.opA 1 l) j).mul (half c (c.opB 1 l) j)).add c.rm (half c (c.opC 1 l) j)

/-- R65, R174: the sum and the product of finite values are exact; an exact zero sum is -0 only for two zeros of that sign
or, otherwise, when rounding down; infinity minus infinity, zero by infinity and the root of a negative value are NaNs,
and a NaN operand gives a NaN. R65, R71, R178: rounding to every format is correct rounding in every mode, of any value
below the largest finite one; so is FSQRT, and FRCP and FRSQ are the exact reciprocal and reciprocal root rounded toward
zero. R66, R74: quant_block's codes are clamped to ±(2^(m-1) - 1), infinities and NaNs giving the end of the range and
0; its scale is 254 with an infinity, 0 where every finite value is 0, and otherwise floor(log2 of the greatest
magnitude) + 128 held to 0 to 254; and every finite value that the scale does not saturate lies within half a step of
its code. -/
def Obligations.FloatsAreExactThenRounded : Prop :=
  (
    ∀ (rm : Nat) (s t : Bool) (m n : Nat) (e g : Int),
      let x := FVal.fin s m e
      let y := FVal.fin t n g
      (x.add rm y).rat = x.rat + y.rat ∧ (x.mul y).rat = x.rat * y.rat ∧
      (∃ u k h, x.add rm y = .fin u k h ∧ (x.rat + y.rat = 0 →
        (u = true ↔ if m = 0 ∧ n = 0 ∧ s = t then s = true else rm = 3))) ∧
      (∃ k h, x.mul y = .fin (s != t) k h) ∧
      FVal.add rm (.inf s) (.inf t) = (if s = t then .inf s else .nan) ∧
      FVal.add rm (.inf s) y = .inf s ∧ FVal.add rm x (.inf t) = .inf t ∧
      FVal.mul (.inf s) y = (if n = 0 then .nan else .inf (s != t)) ∧
      FVal.mul x (.inf t) = (if m = 0 then .nan else .inf (s != t)) ∧ FVal.mul (.inf s) (.inf t) = .inf (s != t) ∧
      (s = true → m ≠ 0 → x.sqrt = .nan) ∧ (m = 0 → x.sqrt = .fin s 0 e) ∧ (FVal.inf true).sqrt = .nan ∧
      ∀ z, FVal.add rm .nan z = .nan ∧ FVal.add rm z .nan = .nan ∧ FVal.mul .nan z = .nan ∧ FVal.mul z .nan = .nan) ∧
  (
    (∀ (T rm : Nat) (s : Bool) (m : Nat) (e : Int), T < 6 → rm ≤ 4 → 0 < m →
      let F := fmtOf T
      ((m : ℝ) * 2 ^ e < F.mag F.maxCode) →
      ∃ n, (F.round rm s m e).1 = F.signed s n ∧ F.RoundsTo rm s ((m : ℝ) * 2 ^ e) n) ∧
    (∀ (T rm v m : Nat) (e : Int), T < 3 → rm ≤ 4 → (fmtOf T).dec v = .fin false m e → 0 < m →
      (fmtOf T).RoundsTo rm false (Real.sqrt ((m : ℝ) * 2 ^ e)) ((fmtOf T).enc rm 0 ((fmtOf T).dec v).sqrt)) ∧
    (∀ (v m : Nat) (s : Bool) (e : Int), f32.dec v = .fin s m e → 0 < m → ((m : ℝ) * 2 ^ e)⁻¹ < 2 ^ (128 : Nat) →
      ∃ n, f32.enc 1 0 (frcp (f32.dec v)) = f32.signed s n ∧ f32.RoundsTo 1 s ((m : ℝ) * 2 ^ e)⁻¹ n) ∧
    ∀ (v m : Nat) (e : Int), f32.dec v = .fin false m e → 0 < m →
      f32.RoundsTo 1 false (Real.sqrt ((m : ℝ) * 2 ^ e))⁻¹ (f32.enc 1 0 (frsq (f32.dec v)))) ∧
  (
    ∀ (m : Nat) (xs : List FVal), 2 ≤ m → m ≤ 8 →
      let r := quantBlock m xs
      let top : Int := 2 ^ (m - 1) - 1
      r.2.length = xs.length ∧ r.1 ≤ 254 ∧ (∀ q ∈ r.2, -top ≤ q ∧ q ≤ top) ∧
      ((∃ s, FVal.inf s ∈ xs) → r.1 = 254) ∧
      ((∀ s, FVal.inf s ∉ xs) → (∀ x ∈ xs, x.rat = 0) → r.1 = 0) ∧
      ((∀ s, FVal.inf s ∉ xs) → ∀ x ∈ xs, x.rat ≠ 0 → (∀ y ∈ xs, |y.rat| ≤ |x.rat|) →
        (r.1 : Int) = max 0 (min 254 (Int.log 2 |x.rat| + 128))) ∧
      ∀ (i : Nat) (s : Bool) (k : Nat) (e : Int), xs[i]? = some (.fin s k e) →
        let step : ℚ := 2 ^ ((r.1 : Int) - 127 - (m - 1 : Nat))
        let x := (FVal.fin s k e).rat
        |x| ≤ (top : ℚ) * step + step / 2 → ∃ q, r.2[i]? = some q ∧ |x - q * step| ≤ step / 2)

/-- R175, R176, R177: FMIN and FMAX return one operand, the other one for a single NaN, with -0 below +0, through flush-out;
FCMP writes 1 or 0 by M, with a NaN operand 1 only for .ne and .un; FCLASS sets the one bit of the operand's class and
ignores the subnormal mode. R73, R179, R180, R182: FCVT rounds the flushed-in source to the destination format and
flushes out; CVTIF rounds the integer of the source type; CVTFI rounds to an integer under the mode and saturates it to
the range of the destination type, a NaN giving 0; IDOT4 adds four byte products to vC modulo 2^32. -/
def Obligations.FloatCompareAndConvert : Prop :=
  (
    let F := fun (c : Ctx) => fmtOf c.f.t.toNat
    let a := fun (c : Ctx) l => c.float (F c) (c.opA 1 l)
    let b := fun (c : Ctx) l => c.float (F c) (c.opB 1 l)
    let one := fun (_ : Ctx) => 1
    let less := fun (x y : FVal) => x.cmp y == .lt || (x.cmp y == .eq && x.sign && !y.sign)
    let least := fun (c : Ctx) l => c.floatReg (F c) 0
      (if a c l = .nan then b c l else if b c l = .nan then a c l else if less (a c l) (b c l) then a c l else b c l)
    let most := fun (c : Ctx) l => c.floatReg (F c) 0
      (if a c l = .nan then b c l else if b c l = .nan then a c l else if less (a c l) (b c l) then b c l else a c l)
    (∀ f, ResultInD (.fmin f) one least) ∧ (∀ f, ResultInD (.fminB32 f) one least) ∧
    (∀ f, ResultInD (.fmax f) one most) ∧ (∀ f, ResultInD (.fmaxB32 f) one most) ∧
    (∀ f, ResultInD (.fcmp f) one fun c l =>
      let un := a c l == .nan || b c l == .nan
      let o := (a c l).cmp (b c l)
      let holds : Bool := match f.m.toNat with
        | 0 => !un && o == .eq | 1 => un || o != .eq | 2 => !un && o == .lt | 3 => !un && o != .gt
        | 4 => !un && o == .gt | 5 => !un && o != .lt | _ => un
      if holds then 1 else 0) ∧
    ∀ f, ResultInD (.fclass f) one fun c l =>
      let x := (F c).dec (c.opA 1 l % 2 ^ (F c).width)
      let sub := (F c).isSub x
      2 ^ (match x with
        | .nan => 8 | .inf s => if s then 0 else 7
        | .fin s m _ => if m = 0 then (if s then 3 else 4) else if sub then (if s then 2 else 5) else if s then 1 else 6)) ∧
  (
    let intVal := fun (T : BitVec 3) (v : Nat) =>
      let w := 8 * 2 ^ (T.toNat % 4)
      if T.toNat < 4 then (BitVec.ofNat w v).toInt else ((BitVec.ofNat w v).toNat : Int)
    (∀ f, ResultInD (.fcvt f) (fun _ => 1) fun c l =>
      c.floatReg (fmtOf f.t.toNat) c.rm (c.float (fmtOf f.c.toNat) (c.opA 1 l))) ∧
    (∀ f, ResultInD (.cvtif f) (fun _ => 1) fun c l =>
      let n := intVal f.t (c.opA (typeWords c) l)
      let F := fmtOf f.c.toNat
      let code := (F.round c.rm (decide (n < 0)) n.natAbs 0).1
      if F.width < 16 then ((BitVec.ofNat F.width code).signExtend 32).toNat else code) ∧
    (∀ f, ResultInD (.cvtfi f) (fun _ => if f.c = 3 ∨ f.c = 7 then 2 else 1) fun c l =>
      let w := 8 * 2 ^ (f.c.toNat % 4)
      let lo : Int := if f.c.toNat < 4 then -2 ^ (w - 1) else 0
      let hi : Int := if f.c.toNat < 4 then 2 ^ (w - 1) - 1 else 2 ^ w - 1
      let z : Int := match c.float (fmtOf f.t.toNat) (c.opA 1 l) with
        | .nan => 0
        | .inf s => if s then lo else hi
        | .fin s m e => max lo (min hi (if s then -(roundTo c.rm true m e 0 : Int) else roundTo c.rm false m e 0))
      (BitVec.ofInt 64 z).toNat) ∧
    ∀ f, ResultInD (.idot4 f) (fun _ => 1) fun c l =>
      let sa := decide (f.t = 0)
      let sb := decide (f.m = 1) != sa
      let byte := fun (sgn : Bool) (v j : Nat) =>
        let x := (BitVec.ofNat 32 v).extractLsb' (8 * j) 8
        if sgn then x.signExtend 32 else x.setWidth 32
      let p := fun j => byte sa (c.opA 1 l) j * byte sb (c.opB 1 l) j
      (BitVec.ofNat 32 (c.opC 1 l) + p 0 + p 1 + p 2 + p 3).toNat)

/-- R178: FRCP, FRSQ, FEXP2, FLOG2, FSIN and FCOS complete with the value of their function of the flushed-in operand,
rounded toward zero to FP32, a magnitude of 2^128 or more as infinity, then flushed out. The values of 2^x, log2 x, sin
and cos between the cases of R178's table are the model's own series (log entry 8); the table's cases are stated. -/
def Obligations.TranscendentalResults : Prop :=
  let res := fun (g : FVal → FVal) (c : Ctx) l =>
    let y := g (c.float f32 (c.opA 1 l))
    match y with
    | .fin s m e => if m ≠ 0 ∧ 128 ≤ topExp m e then f32.signed s 0x7F800000 else f32.enc 1 c.sm y
    | _ => f32.enc 1 c.sm y
  let one := fun (_ : Ctx) => 1
  (∀ f, ResultInD (.frcp f) one (res frcp)) ∧ (∀ f, ResultInD (.frcpB32 f) one (res frcp)) ∧
  (∀ f, ResultInD (.frsq f) one (res frsq)) ∧ (∀ f, ResultInD (.frsqB32 f) one (res frsq)) ∧
  (∀ f, ResultInD (.fexp2 f) one (res fexp2)) ∧ (∀ f, ResultInD (.fexp2B32 f) one (res fexp2)) ∧
  (∀ f, ResultInD (.flog2 f) one (res flog2)) ∧ (∀ f, ResultInD (.flog2B32 f) one (res flog2)) ∧
  (∀ f, ResultInD (.fsin f) one (res (ftrig false))) ∧ (∀ f, ResultInD (.fsinB32 f) one (res (ftrig false))) ∧
  (∀ f, ResultInD (.fcos f) one (res (ftrig true))) ∧ (∀ f, ResultInD (.fcosB32 f) one (res (ftrig true))) ∧
  (∀ g ∈ [frcp, frsq, fexp2, flog2, ftrig false, ftrig true], g .nan = .nan) ∧
  (∀ e (s : Bool), frcp (.fin s 0 e) = .inf s ∧ frsq (.fin s 0 e) = .inf s ∧ (fexp2 (.fin s 0 e)).rat = 1 ∧
    flog2 (.fin s 0 e) = .inf true ∧ (∃ g, ftrig false (.fin s 0 e) = .fin s 0 g) ∧ (ftrig true (.fin s 0 e)).rat = 1) ∧
  (∀ s : Bool, (∃ e, frcp (.inf s) = .fin s 0 e) ∧ ftrig false (.inf s) = .nan ∧ ftrig true (.inf s) = .nan) ∧
  (∃ e, frsq (.inf false) = .fin false 0 e) ∧ frsq (.inf true) = .nan ∧ fexp2 (.inf false) = .inf false ∧
  (∃ e, fexp2 (.inf true) = .fin false 0 e) ∧ flog2 (.inf false) = .inf false ∧ flog2 (.inf true) = .nan ∧
  ∀ m e, m ≠ 0 → frsq (.fin true m e) = .nan ∧ flog2 (.fin true m e) = .nan

/-- R183, R184, R185: UNPK3 decodes the five trits of a byte, a reserved byte as zeros; UNPKN reads one code of a lane's
block, as an integer or as FP32; PACKN writes one clamped code into the group and keeps the other bits. R187, R188: SSI
compares two windows of four keys; KINS inserts a candidate and its payload into a sorted list of k keys, after the keys
that it does not better, and writes the list from that place on. R186, R195: BFPQ with an enabled lane quantises the
values of the enabled lanes, the others as 0.0, as one block by R74's quant_block: each enabled lane takes its code in
vD and the scale in kC, and kC is bound to vD alone, another binding over vD being lost; with no enabled lane nothing
changes. That UNPKN, PACKN and KINS with U = 1 take their sources, the old group among them, from the lowest enabled
lane, and that KINS leaves the registers before the insertion point unwritten, are the model's choices (log entries 25
and 26). -/
def Obligations.NarrowBlocksAndSearch : Prop :=
  (
    (∀ f, WritesRegs (.unpk3 f) fun c l =>
      let x := ((c.w.reg f.a.toNat (c.src l)).extractLsb' (8 * f.m.toNat) 8).toNat
      let b := if 243 ≤ x then 121 else x
      (List.range 5).map fun i => (f.d.toNat + i, BitVec.ofInt 32 (((b / 3 ^ i % 3 : Nat) : Int) - 1))) ∧
    (∀ f, ResultInD (.unpkn f) (fun _ => 1) fun c l =>
      let m := f.t.toNat + 2
      let q := codeAt m (blockBits c.w f.a.toNat m l) (c.opB 1 l % 32)
      if f.m = 1 then (f32.round 0 (decide (q < 0)) q.natAbs (1 - (m : Int))).1 else (BitVec.ofInt 32 q).toNat) ∧
    ∀ f, WritesRegs (.packn f) fun c l =>
      let m := f.t.toNat + 2
      let k := c.src l
      let i := c.opB 1 k % 32
      let q : Int := max (1 - 2 ^ (m - 1)) (min (2 ^ (m - 1) - 1) (c.w.reg f.a.toNat k).toInt)
      let mask : BitVec (32 * m) := ((BitVec.allOnes m).setWidth (32 * m)) <<< (m * i)
      let v := (blockBits c.w f.d.toNat m k &&& ~~~mask) ||| (((BitVec.ofInt m q).setWidth (32 * m)) <<< (m * i))
      (List.range m).map fun j => (f.d.toNat + j, v.extractLsb' (32 * j) 32)) ∧
  (
    let key := fun (c : Ctx) (r l : Nat) =>
      if tySigned c.f.t then (c.w.reg r l).toInt else ((c.w.reg r l).toNat : Int)
    (∀ f, ResultInD (.ssi f) (fun _ => 1) fun c l =>
      let a := fun i => key c (f.a.toNat + i) l
      let b := fun i => key c (f.b.toNat + i) l
      let lim := min (a 3) (b 3)
      let inA := fun x => x == a 0 || x == a 1 || x == a 2 || x == a 3
      let inB := fun x => x == b 0 || x == b 1 || x == b 2 || x == b 3
      let one := fun (p : Bool) (n : Nat) => if p then n else 0
      one (inB (a 0)) 1 + one (inB (a 1)) 2 + one (inB (a 2)) 4 + one (inB (a 3)) 8 +
      one (inA (b 0)) 16 + one (inA (b 1)) 32 + one (inA (b 2)) 64 + one (inA (b 3)) 128 +
      ((List.range 4).filter fun i => decide (a i ≤ lim)).length * 256 +
      ((List.range 4).filter fun i => decide (b i ≤ lim)).length * 4096) ∧
    ∀ f, WritesRegs (.kins f) fun c l =>
      let m := c.src l
      let k := f.imm.toNat % 8 + 1
      let x := key c f.a.toNat m
      let better := fun j =>
        let y := key c (f.d.toNat + j) m
        if f.imm.toNat / 8 % 2 = 1 then decide (x < y) else decide (y < x)
      let pos := ((List.range k).filter fun j => !better j).length
      (List.range k).flatMap fun j =>
        if j < pos then []
        else if j = pos then [(f.d.toNat + j, c.w.reg f.a.toNat m), (f.c.toNat + j, BitVec.ofNat 32 (c.opB 1 m))]
        else [(f.d.toNat + j, c.w.reg (f.d.toNat + j - 1) m), (f.c.toNat + j, c.w.reg (f.c.toNat + j - 1) m)]) ∧
  (
    ∀ f, Completes (.bfpq f) (fun _ _ => True) fun _ _ c w' =>
      let m := f.t.toNat + 2
      let block := quantBlock m ((List.range 32).map fun l =>
        if l ∈ c.lanes then f32.dec (c.w.reg f.a.toNat l).toNat else .fin false 0 0)
      KeptBesideScales c w' ∧
      RegsAre w' (fun r l =>
        if r = f.d.toNat ∧ l ∈ c.lanes then BitVec.ofInt 32 (block.2.getD l 0) else c.w.reg r l) ∧
      ScalesWritten c w' f.c.toNat (fun _ => BitVec.ofNat 8 block.1) ∧
      BindsAre w' fun b =>
        if c.lanes = [] then c.w.bind b
        else if b = f.c.toNat then mkBind 1 (groupInfo f.d.toNat 1 c.w.landing.mode)
        else if bindHasReg (c.w.bind b) f.d.toNat c.w.landing.mode then 0x80000000#32 else c.w.bind b)

/-- R189, R190: ACT reads the bank its IMM18 names: +0 where the launch does not own it; the canonical NaN for a NaN;
otherwise the entry of the interval that holds x, exactly, and one rounding to nearest even. An image that the wave
itself has loaded and that is not committed yet is committed first (R133, R191). -/
def Obligations.ActivationReadsOneBank : Prop :=
  let entry := fun (b : Bank) (x : FVal) =>
    let x0 := (f32.dec b.x0.toNat).rat
    match x with
    | .inf s => if s then 0 else 255
    | _ => (max 0 (min 255 ⌊(x.rat - x0) * (2 : ℚ) ^ (-b.e.toInt)⌋)).toNat
  let value := fun (f : XF) (own : Word) (b : Bank) (v : Word) =>
    let F := fmtOf f.t.toNat
    let x := f32.dec v.toNat
    let i := entry b x
    let sl := f32.dec (Tab.getD 0 i b.slope).toNat
    let ic := f32.dec (Tab.getD 0 i b.icept).toNat
    if b.owner ≠ some own then 0
    else if x = .nan then F.nan
    else F.enc 0 0 (if sl ≠ .nan ∧ (∀ s, sl ≠ .inf s) ∧ sl.rat = 0 then ic else (sl.mul x).add 0 ic)
  let bank := fun (s : State) (c : Ctx) (n : Nat) => if n = 0 then (s.core (coreOf c.k)).bank0 else (s.core (coreOf c.k)).bank1
  (∀ f, Completes (.act f)
    (fun s c => (s.launchOf c.w).isSome ∧
      ∀ p ∈ (s.core (coreOf c.k)).pending, p.wave ≠ some c.k ∨ p.bank ≠ f.imm.toNat)
    fun s _ c w' => ∀ la, s.launchOf c.w = some la →
      Wrote (fun c l => [(f.d.toNat, BitVec.ofNat 32
        (value f la.id (bank s c f.imm.toNat) (c.w.reg f.a.toNat (c.src l))))]) c w') ∧
  ∀ f, (Instr.act f).wellFormed = true → ∀ (s : State) (k i : Nat) (w : Wave) (fr : Frag) (la : Launch) (img : Bank),
    Issues s k i w fr → Admits (insOf (.act f)) w fr → Undisturbed (insOf (.act f)) w → s.launchOf w = some la →
    (s.core (coreOf k)).pending = [⟨f.imm.toNat, some k, img⟩] → img.owner = some la.id →
    (∀ e ∈ s.teams, e.2.parked = false) →
      let c := ctxOf (.act f) k i w fr
      ∃ t w', exec (.act f) s = .next t ∧ Tab.find k t.waves = some w' ∧ (t.core (coreOf k)).pending = [] ∧
        bank t c f.imm.toNat = img ∧
        RegsAre w' fun r l => if r = f.d.toNat ∧ l ∈ c.lanes
          then BitVec.ofNat 32 (value f la.id img (w.reg f.a.toNat (c.src l))) else w.reg r l

/-! ### Memory and scales -/

/-- R97, R104, R63, R96, R99, R102, R103, R196: LD and LDU read the n bytes of each acting lane's address, little-endian, at a
home, in the window or in a stash-mapped page, and write them, sign- or zero-extended or as a pair, to vD of each enabled
lane, which makes the bindings over vD stale; with U = 1 the one access serves every enabled lane. LDU's addresses are the
lowest enabled lane's plus n times the lane. No byte changes. The first lane in lane order that fails a check of R99 traps,
before any access; where a page cannot be pinned the fragment waits. A read that the core has performed ahead gives its value,
but where another lane names the same location by another address (R86, R104, R382): that a core may do so, and when, is the
model's form of it (log entry 19). -/
def Obligations.LoadsReadMemory : Prop :=
  let n := fun (c : Ctx) => 2 ^ (c.f.t.toNat % 4)
  let lane := fun (c : Ctx) l => c.ea l
  let block := fun (c : Ctx) l => c.ea (c.lanes.headD 0) + BitVec.ofNat 64 (n c * l)
  let accs := fun (ea : Ctx → Nat → Dword) (c : Ctx) =>
    (if c.f.u then c.lanes.take 1 else c.lanes).map fun l => (⟨l, ea c l, n c, n c, true, false⟩ : Acc)
  let loads := fun (ea : Ctx → Nat → Dword) (s : State) (tm : Team) (c : Ctx) (w' : Wave) =>
    let v := fun l => c.reads s tm ((accs ea c).map Acc.ea) (ea c (c.src l)) (n c)
    let word := fun l : Nat =>
      if tySigned c.f.t then (BitVec.ofNat (8 * n c) (v l)).signExtend 32 else BitVec.ofNat 32 (v l)
    w'.scales = c.w.scales ∧
    (∀ b, BindsOver (fun c _ => valueIn (n c / 8 + 1) c.f.d.toNat 0) c (c.w.bind b) →
      w'.bind b = c.w.bind b ||| 0x80000000#32) ∧
    RegsAre w' fun r l =>
      if l ∉ c.lanes then c.w.reg r l
      else if n c = 8 then
        (if r = c.f.d.toNat then BitVec.ofNat 32 (v l)
          else if r = c.f.d.toNat + 1 then BitVec.ofNat 32 (v l / 2 ^ 32) else c.w.reg r l)
      else if r = c.f.d.toNat then word l else c.w.reg r l
  (∀ f, ReadsMemory (.ld f) (accs lane) (loads lane)) ∧ (∀ f, ReadsMemory (.ldB32 f) (accs lane) (loads lane)) ∧
  (∀ f, ReadsMemory (.ldu f) (accs block) (loads block)) ∧ (∀ f, ReadsMemory (.lduB32 f) (accs block) (loads block)) ∧
  let eas := fun (ea : Ctx → Nat → Dword) (c : Ctx) => (accs ea c).map fun a => (a.lane, a.ea)
  (∀ f, TrapsOnAccess (.ld f) n (eas lane) true false) ∧ (∀ f, TrapsOnAccess (.ldB32 f) n (eas lane) true false) ∧
  (∀ f, TrapsOnAccess (.ldu f) n (eas block) true false) ∧ (∀ f, TrapsOnAccess (.lduB32 f) n (eas block) true false) ∧
  (∀ f, WaitsForRoom (.ld f) (accs lane)) ∧ (∀ f, WaitsForRoom (.ldB32 f) (accs lane)) ∧
  (∀ f, WaitsForRoom (.ldu f) (accs block)) ∧ ∀ f, WaitsForRoom (.lduB32 f) (accs block)

/-- R97, R104, R82, R96, R99, R102, R103: ST stores the low n bytes of vD of each acting lane, in ascending lane order, at the
lane's address; a stash-mapped line stored to becomes owned and dirty, and changes no byte at its home. The first lane in lane
order that fails a check of R99 or R103 traps, before any store; where a page cannot be pinned the fragment waits. A word that
the core has resolved under a binding that its page has no more goes there, of a plain page among what it held, which only such
accesses find (R110): that it does so where it has read the word ahead is the model's form of it (log entries 19 and 72). -/
def Obligations.StoresWriteMemory : Prop :=
  let n := fun (c : Ctx) => 2 ^ (c.f.t.toNat % 4)
  let stores := fun (c : Ctx) => (if c.f.u then c.lanes.take 1 else c.lanes).map fun l =>
    (l, c.ea l, if n c = 8 then (c.w.reg (c.f.d.toNat + 1) l ++ c.w.reg c.f.d.toNat l).toNat
      else (c.w.reg c.f.d.toNat l).toNat)
  let accs := fun (c : Ctx) => (stores c).map fun x => (⟨x.1, x.2.1, n c, n c, false, true⟩ : Acc)
  let eas := fun (c : Ctx) => (stores c).map fun x => (x.1, x.2.1)
  let stash := fun (j : Instr) => j.wellFormed = true → ∀ (s : State) (k i : Nat) (w : Wave) (fr : Frag) (tm : Team),
    Issues s k i w fr → Admits (insOf j) w fr → Undisturbed (insOf j) w →
    let c := ctxOf j k i w fr
    CanAccess s c tm (accs c) → OneBinding c tm (accs c) → InStash s c tm (accs c) → tm.core = coreOf k →
      ∃ t w', exec j s = .next t ∧ Tab.find k t.waves = some w' ∧ KeptBesideLoads c w' ∧ w'.outstanding = w.outstanding ∧
        (∀ r l, r < 128 → l < 32 → w'.reg r l = w.reg r l) ∧ w'.scales = w.scales ∧ StashStored s t c tm (accs c) ∧
        ∀ x, (∃ a ∈ accs c, ∃ y, placeOf s (s.partOf w) tm a.ea = some (.stash y) ∧ y / 4096 = x / 4096) →
          c.sees t (.stash x) =
            (stores c).foldl (fun v x => viewWrite v (c.places s tm x.2.1 (n c)) x.2.2) (c.sees s) (.stash x)
  (∀ f, StoresMemory (.st f) n stores n) ∧ (∀ f, StoresMemory (.stB32 f) n stores n) ∧
  (∀ f, stash (.st f)) ∧ (∀ f, stash (.stB32 f)) ∧
  (∀ (s : State) (c : Ctx) (tm : Team) (ea : Dword) (v : Nat) (e : Early), s.teamOf c.w = some tm →
    Tab.find ea.toNat c.fr.early = some e → e.n = 4 → e.bound ≠ tm.boundAt ea →
      (e.bound = none → let t := c.storeLane 4 ea v s
        t = { s with teams := t.teams } ∧ (∀ j, j ≠ c.w.team → Tab.find j t.teams = Tab.find j s.teams) ∧
        ∃ tm', Tab.find c.w.team t.teams = some tm' ∧ tm' = { tm with gone := tm'.gone } ∧ let at' := ea.toNat % 2 ^ 32
          ∀ x, Tab.getD 0 x tm'.gone = if at' ≤ x ∧ x < at' + 4 then BitVec.ofNat 8 (v / 256 ^ (x - at'))
            else Tab.getD 0 x tm.gone) ∧
      ∀ b x, e.bound = some b → s.translate (s.partOf c.w) (b.1 + ea.toNat % 4096) = some x → x.1.w = true →
        (∀ g ∈ s.teams, ∀ q ∈ g.2.pages, q.2.dirtyOf (lineOf e.loc) = none) →
        (∀ g ∈ s.clusters, Tab.find (lineOf e.loc) g.2.dirty = none ∧ Tab.find (lineOf e.loc) g.2.wrote = none) →
        ∀ a, memRead (c.storeLane 4 ea v s).mem a =
          if e.loc ≤ a ∧ a < e.loc + 4 then BitVec.ofNat 8 (v / 256 ^ (a - e.loc)) else memRead s.mem a) ∧
  (∀ f, TrapsOnAccess (.st f) n eas false true) ∧ (∀ f, TrapsOnAccess (.stB32 f) n eas false true) ∧
  (∀ f, WaitsForRoom (.st f) accs) ∧ ∀ f, WaitsForRoom (.stB32 f) accs

/-- R105: LDBF reads each enabled lane's block of m words, from its own address or, in joined form, four bytes after its
scale, writes them to the group vD to vD+m-1 with reserved codes replaced, writes the scale byte to kC, and binds kC to the
group; a word or scale that the core has read ahead has that value, as for LD (R86, R104, R382, log entry 19). R204, R77: SACC
with both scales fresh adds vA · 2^e to vD, where e comes from the two scales less M, exactly, and rounds once to nearest
even; a NaN or an infinity in vD stays. R197: with an enabled lane and a stale scale it traps with STALE_SCALE and the lower
of the stale k registers. -/
def Obligations.BlockLoadAndAccumulate : Prop :=
  (
    let m := fun (c : Ctx) => c.f.t.toNat + 2
    let man := fun (c : Ctx) l => if c.f.m = 0 then c.ea l + 4 else c.ea l
    let sc := fun (c : Ctx) l => if c.f.m = 0 then c.ea l else c.w.reg (c.f.b.toNat + 1) l ++ c.w.reg c.f.b.toNat l
    let accs := fun (c : Ctx) => c.lanes.flatMap fun l =>
      let ws := (List.range (m c)).map fun j => (⟨l, man c l + BitVec.ofNat 64 (4 * j), 4, 4, true, false⟩ : Acc)
      if c.f.m = 0 then (⟨l, sc c l, 4, 1, true, false⟩ : Acc) :: ws else ws ++ [(⟨l, sc c l, 1, 1, true, false⟩ : Acc)]
    ∀ f, ReadsMemory (.ldbf f) accs fun s tm c w' =>
      let ahead := s.sameWrite (c.who s) 1 (c.lanes.map (sc c)) (s.sameWrite (c.who s) 4
        (c.lanes.flatMap fun l => (List.range (m c)).map fun j => man c l + BitVec.ofNat 64 (4 * j)) c.fr.early)
      let word := fun l j => c.readsFrom ahead s tm (man c l + BitVec.ofNat 64 (4 * j)) 4
      let raw := fun l => (List.range (m c)).foldl
        (fun (v : BitVec (32 * m c)) j => v ||| (BitVec.ofNat (32 * m c) (word l j) <<< (32 * j))) 0
      let code := fun l i => codeAt (m c) (raw l) i
      (∀ l ∈ c.lanes, ∀ i, i < 32 → codeAt (m c) (blockBits w' f.d.toNat (m c) l) i = code l i ∧
        (blockBits w' f.d.toNat (m c) l).extractLsb' (m c * i) (m c) = BitVec.ofInt (m c) (code l i)) ∧
      (∀ r l, r < 128 → l < 32 → l ∉ c.lanes ∨ r < f.d.toNat ∨ f.d.toNat + m c ≤ r → w'.reg r l = c.w.reg r l) ∧
      ScalesWritten c w' f.c.toNat (fun l => BitVec.ofNat 8 (c.readsFrom ahead s tm (sc c l) 1)) ∧
      w'.bind f.c.toNat = mkBind 1 (groupInfo f.d.toNat (m c) c.w.landing.mode)) ∧
  (
    ∀ f, Completes (.sacc f)
      (fun _ c => c.lanes ≠ [] → bindStale (c.w.bind f.b.toNat) = false ∧ bindStale (c.w.bind f.c.toNat) = false)
      fun _ _ c w' => ∃ res : Nat → Word, Wrote (fun _ l => [(f.d.toNat, res l)]) c w' ∧ ∀ l ∈ c.lanes,
        let scale := fun (k : BitVec 7) => ((c.w.scale k.toNat l).toNat : Int) - 127
        let e := scale f.b + scale f.c - f.m.toNat
        let acc := f32.dec (c.w.reg f.d.toNat l).toNat
        let z : ℚ := acc.rat + (c.w.reg f.a.toNat l).toInt * (2 : ℚ) ^ e
        (acc = .nan → res l = 0x7FC00000) ∧ (∀ s, acc = .inf s → res l = if s then 0xFF800000 else 0x7F800000) ∧
        ((∃ s m g, acc = .fin s m g) → z ≠ 0 → |(z : ℝ)| < f32.mag f32.maxCode → ∃ n,
          res l = BitVec.ofNat 32 (f32.signed (decide (z < 0)) n) ∧ f32.RoundsTo 0 (decide (z < 0)) |(z : ℝ)| n) ∧
        ((∃ s m g, acc = .fin s m g) → (2 : ℝ) ^ (128 : Nat) ≤ |(z : ℝ)| →
          res l = if z < 0 then 0xFF800000 else 0x7F800000) ∧
        ((∃ s m g, acc = .fin s m g) → z = 0 → res l = if acc.sign = true ∧ acc.rat = 0 ∧
          (c.w.reg f.a.toNat l) = 0 then 0x80000000 else 0)) ∧
  (
    let stale := fun (c : Ctx) (k : BitVec 7) => bindStale (c.w.bind k.toNat) = true
    ∀ f, TrapsWith (.sacc f) (fun _ c => c.lanes ≠ [] ∧ (stale c f.b ∨ stale c f.c)) fun c =>
      { code := 0x08, lane := lowLane c.fr.mask, kreg :=
          if bindStale (c.w.bind f.b.toNat) = true ∧ (bindStale (c.w.bind f.c.toNat) = false ∨ f.b.toNat ≤ f.c.toNat)
          then f.b.toNat else f.c.toNat })

/-- R200: SLD loads one scale byte for each enabled lane, as read ahead where the core has (log entry 19), and leaves the binding
none and fresh; SST stores them; with .row
the addresses are the lowest enabled lane's plus the lane. R200, R256: SST .x and .w of a k register that is bound to
its stream and not stale, by a team that holds the matrix engine with room for 32 entries, push all 32 scales, tagged
from INFO on, and set STALE; nothing else of the core changes. R197, R200: a stale k register traps with STALE_SCALE, then one
not bound to the stream with STREAM_DESYNC, then a team that does not hold the engine with STREAM_DESYNC, NO_ENGINE and
QUEUE 2; the fragment waits while the FIFO has no room. SLD and SST trap at the first lane that fails a check of R99. -/
def Obligations.ScaleMemoryAndStreams : Prop :=
  (
    let ea := fun (c : Ctx) l => if c.f.m = 1 then c.ea (c.lanes.headD 0) + BitVec.ofNat 64 l else c.ea l
    (∀ f, ReadsMemory (.sld f) (fun c => c.lanes.map fun l => (⟨l, ea c l, 1, 1, true, false⟩ : Acc)) fun s tm c w' =>
      w'.regs = c.w.regs ∧
      ScalesWritten c w' f.d.toNat (fun l => BitVec.ofNat 8 (c.reads s tm (c.lanes.map (ea c)) (ea c l) 1)) ∧
      (c.lanes ≠ [] → w'.bind f.d.toNat = 0)) ∧
    (∀ f, StoresMemory (.sst f) (fun _ => 1)
      (fun c => c.lanes.map fun l => (l, ea c l, (c.w.scale f.d.toNat l).toNat)) (fun _ => 1)) ∧
    (∀ f, TrapsOnAccess (.sld f) (fun _ => 1) (fun c => c.lanes.map fun l => (l, ea c l)) true false) ∧
    ∀ f, TrapsOnAccess (.sst f) (fun _ => 1) (fun c => c.lanes.map fun l => (l, ea c l)) false true) ∧
  (
    ∀ f, let toW := decide (f.m = 3)
      let entries := fun (c : Ctx) => (List.range 32).map fun l =>
        (⟨c.w.scale f.d.toNat l, (bindInfo (c.w.bind f.d.toNat) + l) % 2 ^ 24⟩ : ScaleEntry)
      let old := fun (s : State) (c : Ctx) =>
        if toW then (s.core (coreOf c.k)).mx.wScale else (s.core (coreOf c.k)).mx.xScale
      let fresh := fun (c : Ctx) => bindStale (c.w.bind f.d.toNat) = false
      let bound := fun (c : Ctx) => bindKind (c.w.bind f.d.toNat) = if toW then 4 else 3
      let holds := fun (s : State) (c : Ctx) => (s.core (coreOf c.k)).mx.holder = some c.w.team
      TrapsWith (.sstStream f) (fun _ c => c.lanes ≠ [] ∧ ¬ fresh c)
        (fun c => { code := 0x08, lane := lowLane c.fr.mask, kreg := f.d.toNat }) ∧
      TrapsWith (.sstStream f) (fun _ c => c.lanes ≠ [] ∧ fresh c ∧ ¬ bound c)
        (fun c => { code := 0x09, lane := lowLane c.fr.mask }) ∧
      TrapsWith (.sstStream f) (fun s c => c.lanes ≠ [] ∧ fresh c ∧ bound c ∧ ¬ holds s c)
        (fun c => { code := 0x09, sub := 7, queue := 2, lane := lowLane c.fr.mask }) ∧
      Completes (.sstStream f) (fun s c => c.lanes ≠ [] ∧ fresh c ∧ bound c ∧ holds s c ∧ 4096 < (old s c).length + 32)
        (fun _ _ c w' => Stands .stall c w') ∧
      CompletesVia
        (fun s c => if c.lanes = [] then s else s.setCore (coreOf c.k) fun x =>
          { x with mx := if toW then { x.mx with wScale := x.mx.wScale ++ entries c }
                         else { x.mx with xScale := x.mx.xScale ++ entries c } })
        Team.unstepped (.sstStream f)
        (fun s c => c.lanes ≠ [] → fresh c ∧ bound c ∧ holds s c ∧ (old s c).length + 32 ≤ 4096)
        fun _ _ c w' => KeptBesideScales c w' ∧ w'.regs = c.w.regs ∧ w'.scales = c.w.scales ∧
          BindsAre w' fun b =>
            if b = f.d.toNat ∧ c.lanes ≠ [] then c.w.bind b ||| 0x80000000#32 else c.w.bind b)

/-- R203: SADD, SSUB, SMAX and SMIN combine two scales in each enabled lane, held to 0 to 254; SCVT converts a scale to the
FP32 power of two, and an FP32 value to the scale of its leading bit. No binding changes but by a register written.
R201, R202, R205: SMOV copies scales, the binding becoming none with the source's STALE bit; SBIND binds a group, a tile
or a stream position, or nothing, and takes the binding from every other k register that shares with it; SQRY reads the
binding. With no enabled lane, none of them changes anything. -/
def Obligations.ScaleArithmeticAndBindings : Prop :=
  (
    let two := fun (g : Int → Int → Int) (f : XF) (_ _ : State) (c : Ctx) (w' : Wave) =>
      KeptBesideScales c w' ∧ w'.regs = c.w.regs ∧ w'.binds = c.w.binds ∧
      ScalesWritten c w' f.d.toNat fun l => BitVec.ofInt 8
        (max 0 (min 254 (g (c.w.scale f.a.toNat l).toNat (c.w.scale f.b.toNat l).toNat)))
    let legal := fun (_ : State) (c : Ctx) => ∀ j l, j < 32 → l < 32 → c.w.scale j l ≠ 0xFF
    (∀ f, Completes (.sadd f) legal (two (fun a b => a + b - 127) f)) ∧
    (∀ f, Completes (.ssub f) legal (two (fun a b => a - b + 127) f)) ∧
    (∀ f, Completes (.smax f) legal (two max f)) ∧ (∀ f, Completes (.smin f) legal (two min f)) ∧
    (∀ f, f.m = 0 → WritesRegs (.scvt f) fun c l =>
      let a := c.w.scale f.a.toNat l
      [(f.d.toNat, if a = 0 then 0x00400000 else a.setWidth 32 <<< 23)]) ∧
    ∀ f, f.m = 1 → Completes (.scvt f) (fun _ _ => True) fun _ _ c w' =>
      KeptBesideScales c w' ∧ w'.regs = c.w.regs ∧ w'.binds = c.w.binds ∧
      ScalesWritten c w' f.d.toNat fun l =>
        let x := f32.dec (c.w.reg f.a.toNat l).toNat
        if x = .inf true ∨ x = .inf false then 254
        else if x.rat = 0 then 0 else BitVec.ofInt 8 (max 0 (min 254 (Int.log 2 |x.rat| + 127)))) ∧
  (
    (∀ f, f.m = 2 → WritesRegs (.smov f) fun c l => [(f.d.toNat, (c.w.scale f.a.toNat l).setWidth 32)]) ∧
    (∀ f, f.m ≠ 2 → Completes (.smov f) (fun _ _ => True) fun _ _ c w' =>
      KeptBesideScales c w' ∧ w'.regs = c.w.regs ∧
      ScalesWritten c w' f.d.toNat
        (fun l => if f.m = 0 then c.w.scale f.a.toNat l else (c.w.reg f.a.toNat l).setWidth 8) ∧
      BindsAre w' fun b =>
        if b = f.d.toNat ∧ c.lanes ≠ [] then (if f.m = 0 then c.w.bind f.a.toNat &&& 0x80000000#32 else 0)
        else c.w.bind b) ∧
    (∀ f, Completes (.sbind f)
      (fun s c => f.m = 1 → c.lanes ≠ [] → ∃ tm, s.teamOf c.w = some tm ∧
        (c.w.reg f.a.toNat (c.lanes.headD 0)).toNat % 16 = 0 ∧
        (c.w.reg f.a.toNat (c.lanes.headD 0)).toNat + f.imm.toNat ≤ tm.window)
      fun _ _ c w' =>
        let v := (c.w.reg f.a.toNat (c.lanes.headD 0)).toNat
        let made := match f.m.toNat with
          | 0 => mkBind 1 (groupInfo f.a.toNat (f.imm.toNat + 1) c.w.landing.mode)
          | 1 => mkBind 2 (v / 16 + (f.imm.toNat / 16 - 1) * 2 ^ 16)
          | 2 => mkBind 3 (v % 2 ^ 24)
          | _ => mkBind 4 (v % 2 ^ 24)
        KeptBesideScales c w' ∧ w'.regs = c.w.regs ∧ w'.scales = c.w.scales ∧
        BindsAre w' fun b =>
          if c.lanes = [] then c.w.bind b
          else if f.m = 4 then (if b = f.d.toNat then 0 else c.w.bind b)
          else bindsAfterMaking c.w f.d.toNat made b) ∧
    ∀ f, WritesRegs (.sqry f) fun c _ => [(f.d.toNat, c.w.bind f.a.toNat)])

/-- R107, R108: SPMAP and STASH, whose addresses pass the checks of R107, bind each acting lane's page in ascending lane
order, and UNSTASH makes them plain. Binding a page writes back its dirty lines and nothing else, drops its contents and
leaves its 32 lines unfilled, which STASH requests; a page made plain holds the bytes of the lines filled since it was bound,
also of those whose copy has been taken away (log entry 103), and zero in the others. The page is pinned (R102); it keeps the
physical page that its range is mapped to at the instruction (log entry 87), and reads that the core has performed ahead for
the wave are given up (log entry 19). What a plain page held is kept for accesses resolved under that binding (log entry 72). A
write-back, a fill that STASH requests or a line that UNSTASH reads is a partition fault where a stop blocks it, or where a line
read is poisoned (R353, R370), with nothing bound. -/
def Obligations.PageBindingAndUnbinding : Prop :=
  let team := fun (c : Ctx) (s : State) (l : Nat) (bind : Bool) => ∃ t tm, classify (c.ea l) = .scratch t ∧ t % 4096 = 0 ∧
    s.teamOf c.w = some tm ∧ t < tm.window ∧
    (bind = true → ∃ va e pa, classify (c.w.reg (c.f.b.toNat + 1) l ++ c.w.reg c.f.b.toNat l) = .global va ∧ va % 4096 = 0 ∧
      s.translate (s.partOf c.w) va = some (e, pa) ∧ e.r = true)
  let acting := fun (c : Ctx) => if c.f.u then c.lanes.take 1 else c.lanes
  let bindOp := fun (fill : Bool) (s : State) (c : Ctx) => (acting c).foldl (fun s l =>
    let s := s.setWave c.k Wave.noEarly
    match classify (c.ea l), classify (c.w.pair c.f.b.toNat l) with
    | .scratch t, .global va => ((s.translate (s.partOf c.w) va).map fun x =>
        let s := (s.pin c.w.team t).bindPage c.w.team (t / 4096) va x.2
        if fill then s.fillPage c.w.team (t / 4096) (hintOf c.f.h) else s).getD s
    | _, _ => s) s
  let plainOp := fun (s : State) (c : Ctx) => (acting c).foldl (fun s l =>
    let s := s.setWave c.k Wave.noEarly
    match classify (c.ea l) with
    | .scratch t => (s.pin c.w.team t).unstash (clusterOf (coreOf c.k)) c.w.team (t / 4096)
    | _ => s) s
  let broken := fun (s : State) (p : Nat) (pg : Page) (keeps : Bool) => ∃ va pa e, pg.bound = some (va, pa) ∧ e ∈ pg.lines ∧
    let at' := pa + 128 * e.1
    (e.2.dirty ≠ none ∧ s.ownsStop p at' = false) ∨ (keeps = true ∧ e.2.filled = false ∧ e.2.away = true ∧
      (s.ownsStop p at' = false ∨ lineOf at' ∈ s.poison))
  let breaks := fun (bind fill : Bool) (s : State) (c : Ctx) => ∃ l ∈ acting c, ∃ tm, s.teamOf c.w = some tm ∧
    (broken s (s.partOf c.w) (tm.page (bits (c.ea l) 0 32).toNat) (!bind) ∨ (fill = true ∧ ∃ va e pa j,
      classify (c.w.reg (c.f.b.toNat + 1) l ++ c.w.reg c.f.b.toNat l) = .global va ∧
      s.translate (s.partOf c.w) va = some (e, pa) ∧ j < 32 ∧ s.ownsStop (s.partOf c.w) (pa + 128 * j) = false))
  let fits := fun (bind : Bool) (s : State) (c : Ctx) => (s.teamOf c.w).isSome = true ∧ ∀ l ∈ acting c, team c s l bind
  let ok := fun (bind fill : Bool) (s : State) (c : Ctx) => fits bind s c ∧ ¬ breaks bind fill s c ∧
    s.canPin c.w.team ((acting c).map fun l => (bits (c.ea l) 0 32).toNat) = true
  let stops := fun (j : Instr) (bind fill : Bool) => CompletesVia (fun s c => s.foundFault (s.partOf c.w)) Team.unstepped j
    (fun s c => fits bind s c ∧ breaks bind fill s c) fun _ _ c w' => Stands .stall c w'
  (∀ f, ActsBy (bindOp false) (.spmap f) (ok true false)) ∧ (∀ f, ActsBy (bindOp true) (.stash f) (ok true true)) ∧
  (∀ f, ActsBy plainOp (.unstash f) (ok false false)) ∧
  (∀ f, stops (.spmap f) true false) ∧ (∀ f, stops (.stash f) true true) ∧ (∀ f, stops (.unstash f) false false) ∧
  (∀ (s : State) (k p va pa : Nat) (tm : Team), Tab.find k s.teams = some tm →
    let t := s.bindPage k p va pa
    ∃ tm', Tab.find k t.teams = some tm' ∧
      (Tab.getD Page.plain p tm'.pages).bound = some (va, pa) ∧
      (∀ j, j < 32 → let l := Tab.getD StashLine.empty j (Tab.getD Page.plain p tm'.pages).lines
        l.filled = false ∧ l.dirty = none ∧ l.requested = false) ∧
      (∀ q, q ≠ p → Tab.find q tm'.pages = Tab.find q tm.pages) ∧
      (∀ x, Tab.getD 0 x tm'.scratch = if x / 4096 = p then 0 else Tab.getD 0 x tm.scratch) ∧
      (Tab.sorted tm.scratch = true → ∀ x, Tab.getD 0 x tm'.gone =
        if x / 4096 = p ∧ (Tab.getD Page.plain p tm.pages).bound = none then Tab.getD 0 x tm.scratch else Tab.getD 0 x tm.gone) ∧
      (∀ k', k' ≠ k → Tab.find k' t.teams = Tab.find k' s.teams) ∧
      (∀ c, (t.cluster c).uncached = (s.cluster c).uncached) ∧
      ((Tab.getD Page.plain p tm.pages).bound = none → t.mem = s.mem) ∧
      ∀ old, (Tab.getD Page.plain p tm.pages).bound = some old →
        Tab.sorted (Tab.getD Page.plain p tm.pages).lines = true →
        (∀ e ∈ (Tab.getD Page.plain p tm.pages).lines, e.1 < 32 ∧ ∀ bs, e.2.dirty = some bs → bs.length = 128) →
        ∀ a, memRead t.mem a =
          let line := Tab.getD StashLine.empty ((a - old.2) / 128) (Tab.getD Page.plain p tm.pages).lines
          if old.2 ≤ a ∧ a < old.2 + 4096 then
            (match line.dirty with | some bs => bs.getD ((a - old.2) % 128) 0 | none => memRead s.mem a)
          else memRead s.mem a) ∧
  (∀ (s : State) (k p : Nat) (hint : Hint) (tm : Team), Tab.find k s.teams = some tm →
    (Tab.getD Page.plain p tm.pages).bound ≠ none →
    let t := s.fillPage k p hint
    t.mem = s.mem ∧ t.waves = s.waves ∧ ∃ tm', Tab.find k t.teams = some tm' ∧ tm' = { tm with pages := tm'.pages } ∧
      (∀ q, q ≠ p → Tab.find q tm'.pages = Tab.find q tm.pages) ∧
      ∀ j, j < 32 → let line := fun (tm : Team) => Tab.getD StashLine.empty j (Tab.getD Page.plain p tm.pages).lines
        line tm' = { line tm with requested := (line tm).requested || !(line tm).filled }) ∧
  ∀ (s : State) (cl k p : Nat) (tm : Team) (b : Nat × Nat), Tab.find k s.teams = some tm →
    (tm.page (4096 * p)).bound = some b → b.2 % 128 = 0 → Tab.sorted (tm.page (4096 * p)).lines = true →
    (∀ e ∈ (tm.page (4096 * p)).lines, e.1 < 32 ∧ ∀ bs, e.2.dirty = some bs →
      bs.length = 128 ∧ Tab.find (lineOf b.2 + e.1) (s.cluster cl).dirty = none) →
    (∀ j, j < 32 → (∀ e ∈ s.teams, ∀ q ∈ e.2.pages, e.1 ≠ k ∨ q.1 ≠ p → q.2.dirtyOf (lineOf b.2 + j) = none) ∧
      ∀ e ∈ s.clusters, e.1 ≠ cl → Tab.find (lineOf b.2 + j) e.2.dirty = none) →
    let t := s.unstash cl k p
    ∃ tm', Tab.find k t.teams = some tm' ∧ (tm'.page (4096 * p)).bound = none ∧
      ∀ x, x < 4096 → Tab.getD 0 (4096 * p + x) tm'.scratch =
        let line := (tm.page (4096 * p)).line (4096 * p + x)
        if line.filled || line.away then s.view cl k (.stash (4096 * p + x)) else 0

/-- R106, R109, R103: PREF, whose lines no stop blocks, requests unfilled stash lines and global lines that no cache has, and
changes no value that a read returns; FLUSH and INVAL, whose addresses pass the checks of R99 as reads, bring a dirty global
line to its home slice; FLUSH writes back a dirty stash line, which stays filled and clean, and INVAL discards a filled one;
STASH_FILL fills a requested line, or is a partition fault where a stop blocks it or the line is poisoned (R353, R370). PREF
has no size, so that the model calls no address of it misaligned (log entry 86). -/
def Obligations.PrefetchFlushInvalidate : Prop :=
  let acting := fun (c : Ctx) => if c.f.u then c.lanes.take 1 else c.lanes
  let pref := fun (j : Instr) => j.wellFormed = true → ∀ (s : State) (k i : Nat) (w : Wave) (fr : Frag) (tm : Team),
    Issues s k i w fr → Admits (insOf j) w fr → Undisturbed (insOf j) w → s.teamOf w = some tm →
    let c := ctxOf j k i w fr
    (∀ l ∈ acting c, s.breaks (s.partOf w) tm ⟨l, c.ea l, 1, 1, false, false⟩ = false) →
    ∃ t w', exec j s = .next t ∧ Looked s t k ∧ Tab.find k t.waves = some w' ∧ KeptBesideLoads c w' ∧ w'.regs = w.regs ∧
      w'.scales = w.scales ∧ w'.binds = w.binds ∧ w'.outstanding = w.outstanding ∧ (∀ p, c.sees t p = c.sees s p) ∧
      (∀ l ∈ acting c, ∀ va e pa, classify (c.ea l) = .global va → s.translate (s.partOf w) va = some (e, pa) → e.r = true →
        s.lineOwner (lineOf pa) (coreOf k) < 16 → (s.core (coreOf k)).inL1 (lineOf pa) = true ∨
          (Tab.find (lineOf pa) (t.cluster (s.homeOf (s.lineOwner (lineOf pa) (coreOf k)) (lineOf pa))).slice).isSome) ∧
      ∀ l ∈ acting c, ∀ x, classify (c.ea l) = .scratch x → x < tm.window → (tm.page x).bound.isSome = true →
        ∃ tm', Tab.find w.team t.teams = some tm' ∧
          (((tm'.page x).line x).filled = true ∨ ((tm'.page x).line x).requested = true)
  let op := fun (inval : Bool) (s : State) (c : Ctx) =>
    ((acting c).foldl (fun s l => s.flushAt (c.who s) inval (c.ea l)) s).addFoot c.w.team
      ((acting c).map fun l => (⟨l, c.ea l, 1, 1, true, false⟩ : Acc))
  let ok := fun (s : State) (c : Ctx) => ∃ tm, s.teamOf c.w = some tm ∧
    c.failing s tm ((acting c).map fun l => (⟨l, c.ea l, 1, 1, true, false⟩ : Acc)) = none ∧
    s.canPin c.w.team (teamAddrs ((acting c).map fun l => (⟨l, c.ea l, 1, 1, true, false⟩ : Acc))) = true ∧
    ∀ l ∈ acting c, ∀ pa, s.physOf (s.partOf c.w) tm (c.ea l) = some pa → s.ownsStop (s.partOf c.w) pa = true
  (∀ f, pref (.pref f)) ∧ (∀ f, pref (.prefB32 f)) ∧
  (∀ f, ActsBy (op false) (.flush f) ok) ∧ (∀ f, ActsBy (op true) (.inval f) ok) ∧
  (∀ (s : State) (who : Who) (inval : Bool) (ea : Dword) (va pa : Nat) (e : Pte), classify ea = .global va →
    s.translate who.part va = some (e, pa) → Tab.sorted (s.cluster who.cl).dirty = true →
    (∀ x ∈ (s.cluster who.cl).dirty, ∀ y ∈ x.2.bytes, y.1 < 128) →
    (∀ x ∈ (s.cluster who.cl).dirty, Tab.sorted x.2.bytes = true) →
    let t := s.flushAt who inval ea
    Tab.find (lineOf pa) (t.cluster who.cl).dirty = none ∧ ∀ a, t.seen who.cl a = s.seen who.cl a) ∧
  (∀ (s : State) (who : Who) (ea : Dword) (x : Nat) (tm : Team) (b : Nat × Nat) (bs : List Byte), classify ea = .scratch x →
    Tab.find who.team s.teams = some tm → (tm.page x).bound = some b → ((tm.page x).line x).dirty = some bs →
    bs.length = 128 → ((tm.page x).line x).filled = true → Roomy s tm [x] →
    let after := fun (t : State) => (Tab.find who.team t.teams).map fun tm' => ((tm'.page x).line x).filled
    let clean := fun (t : State) => (Tab.find who.team t.teams).map fun tm' => ((tm'.page x).line x).dirty
    after (s.flushAt who false ea) = some true ∧ clean (s.flushAt who false ea) = some none ∧
    (∀ n, n < 128 → memRead (s.flushAt who false ea).mem (b.2 + x % 4096 / 128 * 128 + n) = bs.getD n 0) ∧
    after (s.flushAt who true ea) = some false ∧ clean (s.flushAt who true ea) = some none ∧
    (s.flushAt who true ea).mem = s.mem) ∧
  ∀ (s : State) (k p n : Nat) (tm : Team), Tab.find k s.teams = some tm → n < 32 →
    let line := fun (tm : Team) => (tm.page (4096 * p + 128 * n)).line (4096 * p + 128 * n)
    let a : Acc := ⟨0, apertureOf (4096 * p + 128 * n), 128, 128, true, false⟩
    let part := ((Tab.find tm.launch s.launches).map Launch.part).getD 0
    (line tm).requested = true → (line tm).filled = false → (tm.page (4096 * p + 128 * n)).pinned = true →
    (s.breaks part tm a = true → exec (.stashFill k p n) s = .next (s.foundFault part)) ∧ (s.breaks part tm a = false →
    (∀ b, (tm.page (4096 * p + 128 * n)).bound = some b →
      Quiet s (clusterOf tm.core) (lineOf (b.2 + (4096 * p + 128 * n) % 4096))) →
      ∃ t tm', exec (.stashFill k p n) s = .next t ∧ Tab.find k t.teams = some tm' ∧ (line tm').filled = true ∧
      (line tm').requested = false ∧ t.mem = s.mem ∧ (∀ c, (t.cluster c).uncached = (s.cluster c).uncached) ∧
      ∀ j, (Tab.find j t.waves).map Wave.unbound = (Tab.find j s.waves).map Wave.unbound)

/-- R189, R191: ACTLD, whose 2,064 bytes pass the checks as reads, reads the image in words, as read ahead where the core has
(log entry 19), and leaves it pending for the bank it names; a commit replaces the bank's contents and its owner at once and
returns the result the wave waits for. R221: the bank of another launch with a parked team on the core is spilt first, and an
image takes the place of its launch's bank also where that is spilt (log entry 61). That the oldest pending image of a core is
committed first is the model's choice (log entry 85). -/
def Obligations.TableLoadAndCommit : Prop :=
  (∀ f, (Instr.actld f).wellFormed = true → ∀ (s : State) (k i : Nat) (w : Wave) (fr : Frag) (tm : Team) (la : Launch),
    Issues s k i w fr → Admits (insOf (.actld f)) w fr → Undisturbed (insOf (.actld f)) w → s.launchOf w = some la →
    let c := ctxOf (.actld f) k i w fr
    let ea := c.w.reg (f.a.toNat + 1) (c.lanes.headD 0) ++ c.w.reg f.a.toNat (c.lanes.headD 0)
    let word := fun n => BitVec.ofNat 32 (c.reads s tm ((List.range 516).map fun i => ea + BitVec.ofNat 64 (4 * i))
      (ea + BitVec.ofNat 64 (4 * n)) 4)
    c.lanes ≠ [] →
    CanAccess s c tm ((⟨c.lanes.headD 0, ea, 16, 4, true, false⟩ : Acc) ::
      (List.range 515).map fun n => ⟨c.lanes.headD 0, ea + BitVec.ofNat 64 (4 * (n + 1)), 4, 4, true, false⟩) →
    ∃ t w' img, exec (.actld f) s = .next t ∧
      Looked (s.setCore (coreOf k) fun x => { x with pending := x.pending ++ [⟨f.imm.toNat, some k, img⟩] }) t k ∧
      Tab.find k t.waves = some w' ∧ KeptBesideLoads c w' ∧ w'.outstanding = w.outstanding + 1 ∧ w'.regs = w.regs ∧
      img.owner = some la.id ∧ img.x0 = word 0 ∧ img.e = (word 1).setWidth 8 ∧
      ∀ n, n < 256 → Tab.getD 0 n img.slope = word (4 + 2 * n) ∧ Tab.getD 0 n img.icept = word (5 + 2 * n)) ∧
  ∀ (s : State) (core : Nat) (p : PendingBank) (rest : List PendingBank), (s.core core).pending = p :: rest →
    ∃ t, exec (.actldCommit core) s = .next t ∧
      t.core core = { s.core core with
        banksSpilt :=
          let spilt := match s.bankLoser core p.bank p.image.owner with
            | none => (s.core core).banksSpilt
            | some l => Tab.put (2 * l + p.bank) (if p.bank = 0 then (s.core core).bank0 else (s.core core).bank1)
                (s.core core).banksSpilt
          match s.launches.find? fun e => p.image.owner == some e.2.id with
          | none => spilt
          | some e => Tab.del (2 * e.1 + p.bank) spilt
        pending := rest, bank0 := if p.bank = 0 then p.image else (s.core core).bank0,
        bank1 := if p.bank = 0 then (s.core core).bank1 else p.image } ∧
      (∀ c, c ≠ core → t.core c = s.core c) ∧
      (∀ k, Tab.find k t.waves = (Tab.find k s.waves).map fun w =>
        if p.wave = some k then { w with outstanding := w.outstanding - 1 } else w) ∧
      t = { s with cores := t.cores, waves := t.waves }

/-- R113 to R117, R82: the atomics read, modify and write their lanes' locations one after another in ascending lane order,
each lane's old value going to vD; ATOM's operation is M's, ACAS swaps where the location equals vB, AINCB counts up below vB,
AFADD adds FP32 to nearest with subnormals kept. Global locations are changed at their home, those of a stash-mapped page in
its line, which becomes owned and dirty (R103). The first lane in lane order that fails a check of R99 traps, before any
access. A word resolved under the plain page that stood there before (R110) is changed among what that page held, which every such
atomic finds (log entries 19 and 72). -/
def Obligations.AtomicsReadModifyWrite : Prop :=
  let serial := fun (ps : Nat → List Place) (g : Nat → Nat → Nat) (ls : List Nat) (v : Place → Byte) =>
    ls.foldl (fun (r : (Nat → Nat) × (Place → Byte)) l =>
      let old := viewRead r.2 (ps l)
      (fun m => if m = l then old else r.1 m, viewWrite r.2 (ps l) (g l old))) (fun _ => 0, v)
  let atomic := fun (j : Instr) (n : Ctx → Nat) (g : Ctx → Nat → Nat → Nat) => j.wellFormed = true →
    ∀ (s : State) (k i : Nat) (w : Wave) (fr : Frag) (tm : Team),
      Issues s k i w fr → Admits (insOf j) w fr → Undisturbed (insOf j) w →
      let c := ctxOf j k i w fr
      let acting := if c.f.u then c.lanes.take 1 else c.lanes
      let as := acting.map fun l => (⟨l, c.ea l, n c, n c, true, true⟩ : Acc)
      let r := serial (fun l => c.places s tm (c.ea l) (n c)) (g c) acting (c.sees s)
      let regs := fun (w' : Wave) => RegsAre w' fun q l =>
        if l ∉ c.lanes then w.reg q l
        else if q = c.f.d.toNat then BitVec.ofNat 32 (r.1 (c.src l))
        else if n c = 8 ∧ q = c.f.d.toNat + 1 then BitVec.ofNat 32 (r.1 (c.src l) / 2 ^ 32) else w.reg q l
      CanAccess s c tm as → OneBinding c tm as →
      (InStash s c tm as → tm.core = coreOf k →
        ∃ t w', exec j s = .next t ∧ Tab.find k t.waves = some w' ∧ KeptBesideLoads c w' ∧ w'.scales = w.scales ∧ regs w' ∧
          w'.outstanding = w.outstanding + (if acting = [] then 0 else 1) ∧ StashStored s t c tm as ∧
          ∀ x, (∃ a ∈ as, ∃ y, placeOf s (s.partOf w) tm a.ea = some (.stash y) ∧ y / 4096 = x / 4096) →
            c.sees t (.stash x) = r.2 (.stash x)) ∧
      ((∀ a ∈ as, ∀ t, placeOf s (s.partOf w) tm a.ea ≠ some (.stash t)) →
      (∀ a ∈ as, ∀ pa, placeOf s (s.partOf w) tm a.ea = some (.home pa) → ∀ e ∈ s.clusters, Tab.find (lineOf pa) e.2.dirty = none) →
      ∃ t w', exec j s = .next t ∧ Tab.find k t.waves = some w' ∧ KeptBesideLoads c w' ∧
        w'.outstanding = w.outstanding + (if acting = [] then 0 else 1) ∧ w'.scales = w.scales ∧
        (∀ p, (∀ x, p ≠ .stash x) → c.sees t p = r.2 p) ∧
        (∀ cl, (t.cluster cl).uncached = (s.cluster cl).uncached) ∧
        (∀ n, (t.core n).uncached = (s.core n).uncached) ∧
        (Tab.find w.team t.teams).map (fun x => { x.unaccessed with scratch := [] }) =
          (Tab.find w.team s.teams).map (fun x => { x.unaccessed with scratch := [] }) ∧
        (∀ q, q ≠ k → (Tab.find q t.waves).map Wave.unbound = (Tab.find q s.waves).map Wave.unbound) ∧
        (∀ q, q ≠ w.team → (Tab.find q t.teams).map Team.unaccessed = (Tab.find q s.teams).map Team.unaccessed) ∧
        t = { s with waves := t.waves, teams := t.teams, cores := t.cores, clusters := t.clusters, mem := t.mem,
                     loose := t.loose, frees := t.frees } ∧
        regs w')
  let size := fun (c : Ctx) => if c.f.t = 3 ∨ c.f.t = 7 then 8 else 4
  let num := fun (c : Ctx) (v : Nat) =>
    if tySigned c.f.t then (BitVec.ofNat (32 * typeWords c) v).toInt else ((BitVec.ofNat (32 * typeWords c) v).toNat : Int)
  let val := fun (c : Ctx) (r : BitVec 7) (l : Nat) =>
    if typeWords c = 2 then (c.w.reg (r.toNat + 1) l ++ c.w.reg r.toNat l).toNat else (c.w.reg r.toNat l).toNat
  (∀ f, atomic (.atom f) size fun c l old =>
    let b := val c f.b l
    match f.m.toNat with
    | 0 => (old + b) % 2 ^ (32 * typeWords c)
    | 1 => if num c old ≤ num c b then old else b
    | 2 => if num c b ≤ num c old then old else b
    | 3 => old &&& b | 4 => old ||| b | 5 => old ^^^ b | _ => b) ∧
  (∀ f, atomic (.acas f) size fun c l old => if old = val c f.b l then val c f.c l else old) ∧
  (∀ f, atomic (.aincb f) size fun c l old =>
    if num c old < num c (val c f.b l) then (old + 1) % 2 ^ (32 * typeWords c) else old) ∧
  (∀ f, atomic (.afadd f) (fun _ => 4) fun c l old =>
    f32.enc 0 0 ((f32.dec old).add 0 (f32.dec (c.w.reg f.b.toNat l).toNat))) ∧
  (∀ (s : State) (c : Ctx) (tm : Team) (ea : Dword) (g : Nat → Nat) (e : Early), s.teamOf c.w = some tm →
    Tab.find ea.toNat c.fr.early = some e → e.n = 4 → e.bound = none → tm.boundAt ea ≠ none →
    let at' := ea.toNat % 2 ^ 32
    let old := leNat ((List.range 4).map fun i => Tab.getD 0 (at' + i) tm.gone)
    ∃ t tm', c.rmwLane 4 ea g s = (old, t) ∧ t = { s with teams := t.teams } ∧
      (∀ j, j ≠ c.w.team → Tab.find j t.teams = Tab.find j s.teams) ∧
      Tab.find c.w.team t.teams = some tm' ∧ tm' = { tm with gone := tm'.gone } ∧
      ∀ x, Tab.getD 0 x tm'.gone = if at' ≤ x ∧ x < at' + 4 then BitVec.ofNat 8 (g old / 256 ^ (x - at'))
        else Tab.getD 0 x tm.gone) ∧
  let eas := fun (c : Ctx) => (if c.f.u then c.lanes.take 1 else c.lanes).map fun l => (l, c.ea l)
  (∀ f, TrapsOnAccess (.atom f) size eas true true) ∧ (∀ f, TrapsOnAccess (.acas f) size eas true true) ∧
  (∀ f, TrapsOnAccess (.aincb f) size eas true true) ∧ ∀ f, TrapsOnAccess (.afadd f) (fun _ => 4) eas true true

/-! ### Ordering, barriers and queues -/

/-- R119, R84, R88, R90: FENCE with a release publishes at .die and wider scopes every byte its cluster holds dirty, which
then stands at its home slice; at a narrower scope it marks those lines narrow-held; no byte that a party of the cluster sees
changes. A party of another cluster that reads a narrow-held line, or one written after a narrow release, gets the bytes of
the holding cluster. An acquire gives up, of the reads that the core has performed ahead for the fragment, those that are
older than its last read (R85), but for one over which a write is not followed by a release of its writer (R86): that stores
take effect when they issue, and only plain reads ahead of their instruction, is the model's form of R83 to R90 (log entry
19). -/
def Obligations.FencesPublishWrites : Prop :=
  let wf := fun (s : State) (cl : Nat) => Tab.sorted (s.cluster cl).dirty = true ∧
    ∀ e ∈ (s.cluster cl).dirty, Tab.sorted e.2.bytes = true ∧ ∀ b ∈ e.2.bytes, b.1 < 128
  let hid := fun (s : State) (e : Early) => ∃ x ∈ s.loose, x.loc ≤ e.loc ∧ e.loc + e.n ≤ x.loc + x.old.length ∧
    leNat ((x.old.drop (e.loc - x.loc)).take e.n) = e.v
  (∀ f, ActsBy (fun s c => if c.lanes ≠ [] ∧ f.m ≠ 2 then c.release f.c.toNat s else s) (.fence f) fun _ _ => True) ∧
  (∀ f, f.m.toNat = 2 → Completes (.fence f) (fun _ c => c.lanes ≠ []) fun s _ c w' =>
    ∃ fr', w'.frags[c.i]? = some fr' ∧ ∀ e, e ∈ fr'.early ↔ e ∈ c.fr.early ∧ (e.2.aged = false ∨ hid s e.2)) ∧
  (∀ f, f.m.toNat = 3 → CompletesVia (fun s c => c.release f.c.toNat s) Team.unstepped (.fence f)
    (fun _ c => c.lanes ≠ []) fun s _ c w' =>
      ∃ fr', w'.frags[c.i]? = some fr' ∧
        (∀ e ∈ fr'.early, e ∈ c.fr.early ∧ (e.2.aged = false ∨ hid (c.release f.c.toNat s) e.2)) ∧
        (3 ≤ f.c.toNat → fr'.early = [])) ∧
  (∀ (s : State) (cl scope : Nat), 3 ≤ scope → wf s cl →
    let t := s.release cl scope
    (t.cluster cl).dirty = [] ∧ (∀ a, memRead t.mem a = s.seen cl a) ∧ (∀ a, t.seen cl a = s.seen cl a) ∧
      { (t.cluster cl).uncached with dirty := [] } = { (s.cluster cl).uncached with dirty := [] } ∧
      (∀ c, c ≠ cl → (t.cluster c).uncached = (s.cluster c).uncached) ∧ (∀ c, (t.core c).uncached = (s.core c).uncached) ∧
      (∀ k, (Tab.find k t.teams).map Team.unaccessed = (Tab.find k s.teams).map Team.unaccessed) ∧
      t = { s with clusters := t.clusters, mem := t.mem, cores := t.cores, teams := t.teams }) ∧
  (∀ (s : State) (cl scope : Nat), scope < 3 →
    let t := s.release cl scope
    t = { s with clusters := t.clusters } ∧ (∀ c, c ≠ cl → t.cluster c = s.cluster c) ∧
      (∀ c a, t.seen c a = s.seen c a) ∧
      ∀ line d, Tab.find line (t.cluster cl).dirty = some d → 0 < d.narrow) ∧
  ∀ (s : State) (cl other pa : Nat) (d : DirtyLine), cl ≠ other → wf s cl → Tab.sorted s.clusters = true →
    Tab.find (lineOf pa) (s.cluster cl).dirty = some d → 0 < d.narrow ∨ 0 < d.after →
    (∀ c, c ≠ cl → Tab.find (lineOf pa) (s.cluster c).dirty = none) →
    (∀ e ∈ s.teams, ∀ q ∈ e.2.pages, q.2.dirtyOf (lineOf pa) = none) →
    (s.readGlobal none other pa 1).1 = [s.seen cl pa]

/-- R120 to R125: BARI, BARX and BARA, whose objects pass the checks of R121, update the object of each acting lane in turn:
BARI makes it await vB arrivals held to 1 to 65,535, BARX adds vB to its pending bytes, and BARA, of a wave whose live lanes
all have arrived, counts one arrival after a .team release; before that it only notes the fragment's lanes in the wave's
arrival record, which the BARA of the last fragment of a diverged wave completes. An update that leaves no arrival and no byte
pending completes the phase. An arrival on an object that has none left to count is held; those held for EXPECT = 0 are
counted by a BARI, in hold order, and no other (R123). An update wakes the fragments that wait in BARW for a phase that is
past. -/
def Obligations.BarrierObjectUpdates : Prop :=
  let addr := fun (c : Ctx) (l : Nat) => (c.w.reg c.f.a.toNat l + c.f.imm.signExtend 32).toNat
  let acting := fun (c : Ctx) => if c.f.u then c.lanes.take 1 else c.lanes
  let fits := fun (s : State) (c : Ctx) (t : Nat) => ∃ tm, s.teamOf c.w = some tm ∧ t % 16 = 0 ∧ t + 16 ≤ tm.window ∧
    (tm.page t).bound = none
  let ok := fun (s : State) (c : Ctx) => (s.teamOf c.w).isSome = true ∧ (∀ l ∈ acting c, fits s c (addr c l)) ∧
    s.canPin c.w.team ((acting c).map (addr c)) = true
  let each := fun (g : Ctx → Nat → Nat → State → State) (s : State) (c : Ctx) => (acting c).foldl (fun s l =>
    g c l (addr c l) (s.pin c.w.team (addr c l))) s
  let low := fun (c : Ctx) => c.lanes.headD 0
  let arriving := fun (s : State) (c : Ctx) => c.lanes ≠ [] ∧ c.w.landing.inReg = false ∧ c.fr.wait ≠ .held ∧
    fits s c (addr c (low c)) ∧ s.canPin c.w.team [addr c (low c)] = true ∧
    ∀ tm, s.teamOf c.w = some tm → ∀ h ∈ tm.holds, h.obj ≠ addr c (low c) ∨ h.who ≠ .wave c.k
  let counts := fun (s : State) (c : Ctx) => (s.bar c.w.team (addr c (low c))).pending ≠ 0 ∧
    (s.bar c.w.team (addr c (low c))).expect ≠ 0
  let ready := fun (s : State) (c : Ctx) =>
    (c.release 1 s).pin c.w.team (addr c (low c))
  let counted := fun (c : Ctx) (s : State) =>
    s.updateBar (coreOf c.k) c.w.team (addr c (low c)) fun b => { b with pending := b.pending - 1 }
  let sound := fun (b : Bar) => b.phase < 2 ^ 32 ∧ b.pending < 65536 ∧ b.expect < 65536 ∧ -2 ^ 63 ≤ b.pbytes ∧ b.pbytes < 2 ^ 63
  (∀ f, ActsBy (each fun c l t s =>
      let n := max 1 (min 65535 (c.w.reg c.f.b.toNat l).toNat)
      let s := s.updateBar (coreOf c.k) c.w.team t fun _ => ⟨0, n, n, 0⟩
      s.letInit (coreOf c.k) c.w.team t (s.holds c.w.team).length) (.bari f) ok) ∧
  (∀ f, ActsBy (each fun c l t s => s.updateBar (coreOf c.k) c.w.team t fun b =>
      { b with pbytes := b.pbytes + (c.w.reg c.f.b.toNat l).toNat }) (.barx f) ok) ∧
  (∀ f, ActsBy (fun s c => if c.lanes = [] then s else counted c (ready s c)) (.bara f)
    fun s c => c.w.landing.inReg = false ∧ (c.lanes ≠ [] → arriving s c ∧ c.w.arrivals = [] ∧
      c.w.live &&& ~~~c.fr.mask = 0 ∧ counts s c)) ∧
  (∀ f, ActsBy (fun s c => counted c ((ready s c).setWave c.k fun w => { w with arrivals := [] })) (.bara f)
    fun s c => arriving s c ∧ counts s c ∧ ∃ m, c.w.arrivals = [⟨addr c (low c), m⟩] ∧ c.fr.mask &&& ~~~m ≠ 0 ∧
      c.w.live &&& ~~~(m ||| c.fr.mask) = 0) ∧
  (∀ f, ActsBy (fun s c => (ready s c).setWave c.k fun w => { w with arrivals := [⟨addr c (low c), c.fr.mask⟩] }) (.bara f)
    fun s c => arriving s c ∧ c.w.arrivals = [] ∧ c.w.live &&& ~~~c.fr.mask ≠ 0) ∧
  (∀ f, CompletesVia (fun s c => c.release 1 s) Team.unstepped (.bara f)
    (fun s c => arriving s c ∧ ∃ m, c.w.arrivals = [⟨addr c (low c), m⟩] ∧ c.fr.mask &&& ~~~m = 0)
    fun _ _ c w' => Stands .retry c w') ∧
  (∀ f, CompletesVia (fun s c => (ready s c).setTeam c.w.team fun tm => { tm with holds := tm.holds ++
      [⟨addr c (low c), .wave c.k, (s.bar c.w.team (addr c (low c))).expect == 0⟩] }) Team.unstepped (.bara f)
    (fun s c => arriving s c ∧ c.w.arrivals = [] ∧ c.w.live &&& ~~~c.fr.mask = 0 ∧ ¬ counts s c)
    fun _ _ c w' => KeptButFrags { c.w with arrivals := w'.arrivals } w' ∧ w'.arrivals = [⟨addr c (low c), c.fr.mask⟩] ∧
      OtherFrags c.w w' c.i ∧ ∃ fr', w'.frags[c.i]? = some fr' ∧ fr'.wait = .held ∧ fr'.pc = c.fr.pc ∧
        fr'.mask = c.fr.mask ∧ fr'.tokens = c.fr.tokens) ∧
  (∀ (s : State) (core k t : Nat) (g : Bar → Bar) (tm : Team), Tab.find k s.teams = some tm → (∀ h ∈ tm.holds, h.obj ≠ t) →
    let b := g (s.bar k t)
    sound b →
    let u := s.updateBar core k t g
    u.bar k t = (if b.expect ≠ 0 ∧ b.pending = 0 ∧ b.pbytes = 0 then ⟨(b.phase + 1) % 2 ^ 32, b.expect, b.expect, 0⟩ else b) ∧
    (∃ tm', Tab.find k u.teams = some tm' ∧ tm' = { tm with scratch := tm'.scratch } ∧
      ∀ x, x < t ∨ t + 16 ≤ x → Tab.getD 0 x tm'.scratch = Tab.getD 0 x tm.scratch) ∧
    (∀ j, j ≠ k → Tab.find j u.teams = Tab.find j s.teams) ∧
    (∀ j, (Tab.find j u.waves).map (fun w => { w.unbound with frags := [] }) =
      (Tab.find j s.waves).map fun w => { w.unbound with frags := [] }) ∧
    (∀ (j i : Nat) (w : Wave) (f : Frag), Tab.find j s.waves = some w → w.frags[i]? = some f → ∃ w' f', Tab.find j u.waves = some w' ∧
      w'.frags[i]? = some f' ∧ f' = { f with wait := f'.wait } ∧
      ((w.team = k ∧ ∃ p, f.wait = .barw t p ∧
        0 < (BitVec.ofNat 32 (u.bar k t).phase - p).toInt) → f'.wait = .retry) ∧
      (¬ (w.team = k ∧ ∃ p, f.wait = .barw t p ∧
        0 < (BitVec.ofNat 32 (u.bar k t).phase - p).toInt) → f'.wait = f.wait)) ∧
    u = { s with teams := u.teams, waves := u.waves, loose := u.loose }) ∧
  ∀ (s : State) (core k t n : Nat) (tm : Team), Tab.find k s.teams = some tm →
    let init := fun (h : Hold) => h.obj == t && h.uninit
    (tm.holds.filter init).length < n → n < 65536 →
    let s1 := s.updateBar core k t fun _ => ⟨0, n, n, 0⟩
    let u := s1.letInit core k t (s1.holds k).length
    u.bar k t = ⟨0, n - (tm.holds.filter init).length, n, 0⟩ ∧
    (Tab.find k u.teams).map Team.holds = some (tm.holds.filter fun h => !init h) ∧
    ∀ h ∈ tm.holds, init h = true → ∀ j w, h.who = .wave j → Tab.find j s.waves = some w → w.team = k →
      (Tab.find j u.waves).map Wave.arrivals = some (w.arrivals.filter fun r => r.obj != t)

/-- R126, R128: BARW on an object of a plain page waits until its phase is past the one in vB of the lowest enabled lane, then
writes the phase to vD in every enabled lane, and the reads that the core has performed ahead for the wave are given up (R20,
R93); once it waits only an update of the object lets it go on (R127), or a fault. One that is pending as it issues it takes
without a write (R15); one that becomes pending while a fragment waits stops that fragment, of several a free one (log entry
80), which takes it without a write (R246), and while the handler flag is set it is held (R211); WAITA, whose reads pass the
checks, waits until every acting lane has read a value that meets its condition, then writes those values to vD. A waiting
fragment stands at the instruction. A lane once satisfied stays so, and a waiting WAITA of a wave that runs, whose lanes all
are satisfied, becomes ready. -/
def Obligations.WaitsOnBarriersAndMemory : Prop :=
  let addr := fun (c : Ctx) => (c.w.reg c.f.a.toNat (c.lanes.headD 0) + c.f.imm.signExtend 32).toNat
  let pinned := fun (s : State) (c : Ctx) => s.pin c.w.team (addr c)
  let phase := fun (s : State) (c : Ctx) => BitVec.ofNat 32 (s.bar c.w.team (addr c)).phase
  let past := fun (s : State) (c : Ctx) => 0 < (phase s c - c.w.reg c.f.b.toNat (c.lanes.headD 0)).toInt
  let calm := fun (c : Ctx) => c.w.faults = [] ∨ c.w.handlerFlag = true
  let unstopped := fun (c : Ctx) => ∀ a, c.fr.wait ≠ .stopped a
  let fits := fun (s : State) (c : Ctx) => c.lanes ≠ [] ∧ unstopped c ∧ ∃ tm, s.teamOf c.w = some tm ∧ addr c % 16 = 0 ∧
    addr c + 16 ≤ tm.window ∧ (tm.page (addr c)).bound = none ∧ s.canPin c.w.team [addr c] = true
  let limit := fun (c : Ctx) => c.w.reg c.f.b.toNat (c.lanes.headD 0)
  let waits := fun (s : State) (c : Ctx) => ¬ past s c ∨ c.fr.wait = .barw (addr c) (limit c)
  let still := fun (c : Ctx) (w' : Wave) => ∃ fr', w'.frags[c.i]? = some fr' ∧ fr'.wait = .retry ∧ fr'.pc = c.fr.pc ∧
    fr'.mask = c.fr.mask ∧ fr'.tokens = c.fr.tokens ∧ fr'.rep = c.fr.rep
  let acting := fun (c : Ctx) => if c.f.u then c.lanes.take 1 else c.lanes
  let size := fun (c : Ctx) => 4 * typeWords c
  let as := fun (c : Ctx) => (acting c).map fun l => (⟨l, c.ea l, size c, size c, true, false⟩ : Acc)
  let met := fun (c : Ctx) (l v : Nat) =>
    let x : BitVec (32 * typeWords c) := BitVec.ofNat _ v
    match c.f.m.toNat with
    | 0 => x = BitVec.ofNat _ (c.w.val (typeWords c) c.f.b.toNat l)
    | 1 => x ≠ BitVec.ofNat _ (c.w.val (typeWords c) c.f.b.toNat l)
    | 2 => if tySigned c.f.t then (BitVec.ofNat (32 * typeWords c) (c.w.val (typeWords c) c.f.b.toNat l)).sle x
        else (BitVec.ofNat (32 * typeWords c) (c.w.val (typeWords c) c.f.b.toNat l)).ule x
    | _ => if tySigned c.f.t then x.slt (BitVec.ofNat _ (c.w.val (typeWords c) c.f.b.toNat l))
        else x.ult (BitVec.ofNat _ (c.w.val (typeWords c) c.f.b.toNat l))
  let reads := fun (s : State) (tm : Team) (c : Ctx) (l : Nat) => if c.fr.wait = .none
    then c.reads s tm ((acting c).map c.ea) (c.ea l) (size c) else viewRead (c.sees s) (c.places s tm (c.ea l) (size c))
  (∀ f, CompletesVia pinned Team.unstepped (.barw f) (fun s c => fits s c ∧ ¬ waits s c ∧ calm c) fun s _ c w' =>
    Wrote (fun c _ => [(f.d.toNat, phase s c)]) { c with w := c.w.noEarly } w') ∧
  (∀ f, CompletesVia pinned Team.unstepped (.barw f) (fun s c => fits s c ∧ waits s c ∧ calm c) fun _ _ c w' =>
    Stands (.barw (addr c) (limit c)) c w') ∧
  (∀ f, (Instr.barw f).wellFormed = true → ∀ (s : State) (k i : Nat) (w : Wave) (fr : Frag) (a : AsyncFault)
      (rest : List AsyncFault), Issues s k i w fr → Admits (insOf (.barw f)) w fr → fits s (ctxOf (.barw f) k i w fr) →
    waits s (ctxOf (.barw f) k i w fr) → w.handlerFlag = false → w.faults = a :: rest →
      ∃ t w', exec (.barw f) s = .next t ∧ Tab.find k t.waves = some w' ∧ w'.faults = rest ∧
        ∀ r l, r < 128 → l < 32 → w'.reg r l = w.reg r l) ∧
  (∀ f, (Instr.barw f).wellFormed = true → ∀ (s : State) (k i : Nat) (w : Wave) (fr : Frag) (a : AsyncFault),
    Issues s k i w fr → Admits (insOf (.barw f)) w fr → fr.wait = .stopped a →
      ∃ t w', exec (.barw f) s = .next t ∧ Tab.find k t.waves = some w' ∧ w'.faults = w.faults ∧
        (∀ r l, r < 128 → l < 32 → w'.reg r l = w.reg r l) ∧ ∀ fr', w'.frags[i]? = some fr' → ∀ b, fr'.wait ≠ .stopped b) ∧
  (∀ (s : State) (k team : Nat) (w : Wave) (a : AsyncFault), Tab.find k s.waves = some w → w.team = team →
    let calm := w.handlerFlag = true ∨ ∀ f ∈ w.frags, ∀ o p, f.wait ≠ .barw o p
    ∃ w', Tab.find k (s.engineFault k team a).waves = some w' ∧
      (calm → w' = { w with faults := w.faults ++ [a] }) ∧
      (¬ calm → ∃ i f o p, w.frags[i]? = some f ∧ f.wait = .barw o p ∧
        w' = { w with frags := w.frags.set i { f with wait := .stopped a } })) ∧
  (∀ f, Completes (.barw f) (fun _ c => c.lanes = [] ∧ unstopped c ∧ calm c) fun _ _ c w' =>
    KeptButFrags c.w w' ∧ OtherFrags c.w w' c.i ∧ ∃ fr', w'.frags[c.i]? = some fr' ∧ GoesOn c.fr fr' c.ins.len) ∧
  (∀ f, (Instr.waita f).wellFormed = true → ∀ (s : State) (k i : Nat) (w : Wave) (fr : Frag) (tm : Team),
    Issues s k i w fr → Admits (insOf (.waita f)) w fr → Undisturbed (insOf (.waita f)) w → fr.got = [] →
    let c := ctxOf (.waita f) k i w fr
    CanAccess s c tm (as c) →
      ∃ t w', exec (.waita f) s = .next t ∧ Looked s t k ∧ Tab.find k t.waves = some w' ∧
        (∀ p, c.sees t p = c.sees s p) ∧
        ((∀ l ∈ acting c, met c l (reads s tm c l)) → KeptBesideLoads c w' ∧ w'.outstanding = w.outstanding ∧
          w'.scales = w.scales ∧ RegsAre w' fun q l =>
            if l ∈ c.lanes then afterWrites (valueIn (typeWords c) f.d.toNat (reads s tm c (c.src l))) q (w.reg q l)
            else w.reg q l) ∧
        ((∃ l ∈ acting c, ¬ met c l (reads s tm c l)) → w'.regs = w.regs ∧ w'.scales = w.scales ∧ still c w' ∧
          ∀ fr', w'.frags[i]? = some fr' → ∀ l, l ∈ acting c → met c l (reads s tm c l) →
            fr'.got.lookup l = some (reads s tm c l))) ∧
  ∀ (s : State) (k i : Nat) (w : Wave) (fr : Frag) (tm : Team) (f : XF) (ws : List Word),
    Tab.find k s.waves = some w → w.frags[i]? = some fr → fr.wait = .retry → s.ready k i = true →
    s.fetchWords (s.whoOf k w) fr.held fr.pc 3 = .ok ws → decode ws = .ok (.waita f) →
    let c := ctxOf (.waita f) k i w fr
    CanAccess s c tm (as c) →
      ∃ t w' fr', exec (.waitaWake k i) s = .next t ∧ Tab.find k t.waves = some w' ∧ w'.frags[i]? = some fr' ∧
        w'.regs = w.regs ∧ OtherFrags w w' i ∧
        fr' = { fr with wait := fr'.wait, got := fr'.got, early := fr'.early } ∧
        (∀ l v, fr.got.lookup l = some v → fr'.got.lookup l = some v) ∧
        (fr'.wait = .none ↔ ∀ l ∈ acting c, fr'.got.lookup l ≠ none) ∧
        (∀ l ∈ acting c, fr.got.lookup l = none → met c l (reads s tm c l) → fr'.got.lookup l = some (reads s tm c l)) ∧
        (∀ p, c.sees t p = c.sees s p)

/-- R236, R92, R94: PUSH queues the 64-byte records of its acting lanes in ascending order, behind what its wave has written,
a message behind what its fragment has (log entry 19). In exact mode all of them, with the flag 0, when the wave's quota has
room for them; it waits while it has not, and traps with QUEUE_MODE where the quota is below the lanes. In shared mode the
lowest lanes for which the partition finds entries, with flag 0 in those and 1 in the others. A copy joins the wave's open
batch under the next entry number; a message is a .cluster release first. R238 to R240: SEAL closes the wave's open batch and
writes its number to vD in every enabled lane; WAITB goes on when no copy of the wave in the batches it names is in flight,
taking a pending fault first, and waits otherwise, never on the open batch, and has no effect without an enabled lane; QSTAT
writes the wave's entries in flight and what PUSH could take now, or the last batch up to which every batch has ended. -/
def Obligations.QueuesAndBatches : Prop :=
  (
    let acting := fun (c : Ctx) => if c.f.u then c.lanes.take 1 else c.lanes
    let rec512 := fun (c : Ctx) (l : Nat) => (blockBits c.w c.f.a.toNat 16 l : BitVec 512)
    let cmd := fun (c : Ctx) (l n : Nat) =>
      (⟨rec512 c l, c.k, c.w.team, c.w.sealed + 1, c.w.entries + BitVec.ofNat 32 n, 0, false, none, [], none⟩ : CopyCmd)
    let cmds := fun (c : Ctx) (ls : List Nat) => (List.range ls.length).map fun n => cmd c (ls.getD n 0) n
    let recs := fun (c : Ctx) (ls : List Nat) => ls.map fun l => (⟨rec512 c l, c.k, c.w.team⟩ : Cmd)
    let count := fun (c : Ctx) (n : Nat) (s : State) => s.setWave c.k fun w => { w with entries := w.entries + BitVec.ofNat 32 n }
    let queued := fun (c : Ctx) (ls : List Nat) (s : State) =>
      if ls = [] then s else State.firm c.k (if c.f.imm.toNat = 3 then c.fr.mask else 0xFFFFFFFF) (
      match c.f.imm.toNat with
      | 0 => count c ls.length (s.setCore (coreOf c.k) fun x => { x with copy0 := x.copy0 ++ cmds c ls })
      | 1 => count c ls.length (s.setCore (coreOf c.k) fun x => { x with copy1 := x.copy1 ++ cmds c ls })
      | 2 => s.setCore (coreOf c.k) fun x => { x with mx := { x.mx with fifo := x.mx.fifo ++ recs c ls } }
      | _ => (ls.foldl (fun s _ => s.release (clusterOf (coreOf c.k)) 2) s).setCluster (clusterOf (coreOf c.k)) fun x =>
          { x with queue := x.queue ++ (recs c ls).map .fresh })
    let flight := fun (s : State) (c : Ctx) =>
      ((s.entriesOf (coreOf c.k) c.f.imm.toNat).filter fun e => e == (c.k, c.w.team)).length
    let pushed := fun (took : State → Ctx → List Nat) (s : State) (c : Ctx) (w' : Wave) =>
      w' = { c.w with regs := w'.regs, binds := w'.binds, frags := w'.frags, parked := w'.parked, evictable := w'.evictable,
                      entries := c.w.entries +
                        (if c.f.imm.toNat < 2 then BitVec.ofNat 32 (took s c).length else 0) } ∧
      (∀ n, n ≠ c.i → w'.frags[n]? = c.w.frags[n]?) ∧ (∃ fr', w'.frags[c.i]? = some fr' ∧ GoesOn c.fr fr' c.ins.len) ∧
      RegsAre w' fun r l =>
        if l ∈ c.lanes ∧ r = c.f.d.toNat then (if c.src l ∈ took s c then 0 else 1) else c.w.reg r l
    let free := fun (s : State) (c : Ctx) => (acting c).take (s.pushFree c.k c.w c.f.imm.toNat)
    (∀ f, CompletesVia (fun s c => queued c (acting c) s) Team.unstepped (.push f)
      (fun s c => ∃ qs, s.quotas c.w.team = some qs ∧ flight s c + (acting c).length ≤ qs.getD f.imm.toNat 0)
      fun s _ c w' => pushed (fun _ c => acting c) s c w') ∧
    (∀ f, CompletesVia (fun s c => queued c (free s c) s) Team.unstepped (.push f)
      (fun s c => s.quotas c.w.team = none)
      fun s _ c w' => pushed free s c w') ∧
    (∀ f, Completes (.push f)
      (fun s c => c.lanes ≠ [] ∧ ∃ qs, s.quotas c.w.team = some qs ∧ (acting c).length ≤ qs.getD f.imm.toNat 0 ∧
        qs.getD f.imm.toNat 0 < flight s c + (acting c).length)
      fun _ _ c w' => Stands .retry c w') ∧
    (∀ f, TrapsWith (.push f)
      (fun s c => ∃ qs, s.quotas c.w.team = some qs ∧ qs.getD f.imm.toNat 0 < (acting c).length)
      fun c => { code := 0x0B, lane := lowLane c.fr.mask }) ∧
    ∀ (w : Wave) (r l j n : Nat), j < 16 → n < 32 →
      (blockBits w r 16 l).getLsbD (32 * j + n) = (w.reg (r + j) l).getLsbD n) ∧
  (
    let batches := fun (s : State) (c : Ctx) =>
      ((s.core (coreOf c.k)).copy0 ++ (s.core (coreOf c.k)).copy1).filter fun x => x.wave == c.k && x.team == c.w.team
    let upTo := fun (c : Ctx) =>
      let n := c.w.reg c.f.a.toNat (c.lanes.headD 0)
      if 0 < (n - c.w.sealed).toInt then c.w.sealed else n
    let calm := fun (c : Ctx) => c.w.faults = [] ∨ c.w.handlerFlag = true
    let flight := fun (s : State) (c : Ctx) =>
      ((s.entriesOf (coreOf c.k) c.f.imm.toNat).filter fun e => e == (c.k, c.w.team)).length
    let result := fun (c : Ctx) (w' : Wave) (v : Word) =>
      (∀ n, n ≠ c.i → w'.frags[n]? = c.w.frags[n]?) ∧ (∃ fr', w'.frags[c.i]? = some fr' ∧ GoesOn c.fr fr' c.ins.len) ∧
      RegsAre w' fun r l => if l ∈ c.lanes ∧ r = c.f.d.toNat then v else c.w.reg r l
    (∀ f, Completes (.seal f) (fun _ c => c.lanes ≠ []) fun _ _ c w' =>
      w' = { c.w with sealed := c.w.sealed + 1, outstanding := c.w.outstanding + 1, regs := w'.regs, binds := w'.binds,
                      frags := w'.frags, parked := w'.parked, evictable := w'.evictable } ∧ result c w' (c.w.sealed + 1)) ∧
    (∀ f, Completes (.seal f) (fun _ c => c.lanes = []) fun _ _ c w' => KeptButFrags c.w w' ∧ result c w' 0) ∧
    (∀ f, Completes (.waitb f) (fun _ c => c.lanes = [])
      fun _ _ c w' => KeptButFrags c.w w' ∧ OtherFrags c.w w' c.i ∧ ∃ fr', w'.frags[c.i]? = some fr' ∧
        GoesOn c.fr fr' c.ins.len) ∧
    (∀ f, Completes (.waitb f)
      (fun s c => calm c ∧ c.lanes ≠ [] ∧ ∀ x ∈ batches s c, (upTo c - x.batch).toInt < 0)
      fun _ _ c w' => KeptButFrags c.w w' ∧ OtherFrags c.w.noEarly w' c.i ∧ ∃ fr', w'.frags[c.i]? = some fr' ∧
        GoesOn c.fr fr' c.ins.len) ∧
    (∀ f, (Instr.waitb f).wellFormed = true → ∀ (s : State) (k i : Nat) (w : Wave) (fr : Frag) (a : AsyncFault)
        (rest : List AsyncFault), Issues s k i w fr → Admits (insOf (.waitb f)) w fr →
      let c := ctxOf (.waitb f) k i w fr
      c.lanes ≠ [] → (∀ x ∈ batches s c, (upTo c - x.batch).toInt < 0) → w.handlerFlag = false → w.faults = a :: rest →
        ∃ t w', exec (.waitb f) s = .next t ∧ Tab.find k t.waves = some w' ∧ w'.faults = rest ∧
          ∀ r l, r < 128 → l < 32 → w'.reg r l = w.reg r l) ∧
    (∀ f, Completes (.waitb f) (fun s c => c.lanes ≠ [] ∧ ∃ x ∈ batches s c, 0 ≤ (upTo c - x.batch).toInt)
      fun _ _ c w' => Stands .retry c w') ∧
    ∀ f, Completes (.qstat f) (fun _ _ => True) fun s _ c w' =>
      w' = { c.w with outstanding := c.w.outstanding + (if c.lanes = [] then 0 else 1), regs := w'.regs, binds := w'.binds,
                      frags := w'.frags, parked := w'.parked, evictable := w'.evictable } ∧
      ∃ v, result c w' v ∧
        (f.imm ≠ 4 → v = BitVec.ofNat 32 (flight s c % 65536 * 65536 + min 65535 (s.pushFree c.k c.w f.imm.toNat))) ∧
        (f.imm = 4 → (∀ x ∈ batches s c, x.batch ≠ c.w.sealed + 1 →
            0 ≤ (c.w.sealed - x.batch).toInt ∧ (c.w.sealed - x.batch).toInt < 2 ^ 30) →
          0 ≤ (c.w.sealed - v).toInt ∧ (∀ x ∈ batches s c, ¬ 0 ≤ (v - x.batch).toInt) ∧
          (v = c.w.sealed ∨ ∃ x ∈ batches s c, x.batch = v + 1)))

/-! ### Regions, traps and waves -/

/-- R271 to R279: GEN opens a region over its fragment's lanes when a Landing slot of its quadrant is free, beside those that
spilt waves of its launch hold (R223, log entry 99); YLD appends the
entries of its enabled lanes, in ascending order, and starts a batch of B once B are held, or before it acts where the
slot would overflow; GFLIP forces a batch; GEND retires lanes, and once none is left a batch of what is held starts, or
the region ends at its exit label with the consumer frame as the only one; GNEXT ends a batch when every other consumer
fragment waits at GNEXT, and resumes the producers, starts the next batch, or ends the region. A batch parks the
producers and starts one consumer fragment, as long as the wave holds fewer than 32 fragments; YLD and GFLIP trap with LANDING 4
where it would be one beyond 32 (R273, R282; log entry 36). The producers give up their reads performed ahead (log entry 19). -/
def Obligations.GeneratorRegions : Prop :=
  let size := fun (x : Landing) => 8 * 2 ^ x.bsz.toNat
  let count := fun (m : Word) => (lanesOf m).length
  let next := fun (c : Ctx) => (c.fr.pc + BitVec.ofNat 64 c.ins.len : Dword)
  let rest := fun (c : Ctx) (w' : Wave) =>
    w' = { c.w with landing := w'.landing, regs := w'.regs, binds := w'.binds, frags := w'.frags, parked := w'.parked,
                    evictable := w'.evictable }
  let ended := fun (c : Ctx) (w' : Wave) => rest { c with w := { c.w with kin := w'.kin, late := w'.late } } w' ∧ w'.kin = [] ∧
    (c.w.kin = [] → w'.late = c.w.late)
  let same := fun (c : Ctx) (w' : Wave) => rest c w' ∧ w'.regs = c.w.regs ∧ w'.binds = c.w.binds
  let released := fun (s : State) (c : Ctx) => (s.release (clusterOf (coreOf c.k)) 0).firm c.k 0xFFFFFFFF
  let producing := fun (c : Ctx) => c.w.handlerFlag = false ∧ c.w.landing.inReg = true ∧ c.w.landing.mode = false
  let consuming := fun (c : Ctx) => c.w.handlerFlag = false ∧ c.w.landing.inReg = true ∧ c.w.landing.mode = true
  let on := fun (c : Ctx) (w' : Wave) => ∃ fr', w'.frags[c.i]? = some fr' ∧ GoesOn c.fr fr' c.ins.len
  let quiet := fun (fs : List Frag) => fs.map fun (g : Frag) => { g with early := [] }
  let others := fun (c : Ctx) (w' : Wave) =>
    ∀ n, n < c.w.frags.length → n ≠ c.i → w'.frags[n]? = (quiet c.w.frags)[n]?
  let room := fun (c : Ctx) => c.w.frags.length < 32
  let consumer := fun (x : Landing) (k : Nat) (f : Frag) => f.pc = x.consPc ∧ f.tokens = 0 ∧ f.prio = 0 ∧ f.rep = none ∧
    f.wait = .none ∧ f.cons = true ∧
    ∀ l, l < 32 → (f.mask.getLsbD l = true ↔ x.regMask.getLsbD l = true ∧
      ((List.range l).filter fun n => x.regMask.getLsbD n).length < k)
  let started := fun (x x' : Landing) (k : Nat) (es : List (Word × Word × Word × Word)) =>
    x' = { x with mode := true, batch := k, entries := es }
  let exits := fun (c : Ctx) (w' : Wave) => w'.landing = Landing.zero ∧
    (∃ f, w'.frags = [f] ∧ Goes f c.w.landing.exitPc c.w.landing.regMask c.w.landing.genTok ∧ f.prio = 0 ∧ f.cons = false) ∧
    (∀ r l, r < 128 → l < 32 → w'.reg r l =
      if 48 ≤ r ∧ r < 64 then Tab.getD 0 (4096 + 32 * (r - 48) + l) c.w.regs else c.w.reg r l) ∧
    BindsAre w' fun b =>
      let v := c.w.bind b
      if bindKind v ≠ 1 then v
      else if v.getLsbD 10 then v &&& ~~~(0x400#32)
      else if v.toNat % 128 < 64 ∧ 48 ≤ v.toNat % 128 + v.toNat / 128 % 8 then 0x80000000 else v
  let framed := fun (c : Ctx) => ∀ e ∈ c.w.regs, e.1 < 4608
  let entry := fun (c : Ctx) (l : Nat) =>
    let v := fun j => if j < c.f.imm.toNat then c.w.reg (c.f.a.toNat + j) l else 0
    (v 0, v 1, v 2, v 3)
  let yields := fun (c : Ctx) => c.w.landing.entries ++ c.lanes.map (entry c)
  let left := fun (c : Ctx) => (c.fr.mask &&& ~~~(maskOf c.lanes) : Word)
  let leftOver := fun (c : Ctx) => (c.w.landing.prodMask &&& ~~~(maskOf c.lanes) : Word)
  let retired := fun (c : Ctx) => { c.w.landing with prodMask := leftOver c, drain := leftOver c == 0 }
  let atNext := fun (c : Ctx) => ∀ n g, n ≠ c.i → c.w.frags[n]? = some g → g.cons = true → g.wait = .gnext
  let remain := fun (c : Ctx) => c.w.landing.entries.drop c.w.landing.batch
  (∀ f, Completes (.gen f)
    (fun s c => c.w.handlerFlag = false ∧ c.w.frags.length = 1 ∧ c.w.landing = Landing.zero ∧ c.fr.cons = false ∧
      8 * 2 ^ f.m.toNat ≤ count c.w.live ∧ s.landingUse (quadOf (slotOf c.k)) +
        s.landingKept (quadOf (slotOf c.k)) c.w + s.gensBefore (slotOf c.k) < 4)
    fun _ _ c w' => rest c w' ∧ w'.binds = c.w.binds ∧ on c w' ∧ w'.frags.length = 1 ∧
      w'.landing = ⟨c.fr.pc + 4 * f.imm.signExtend 64,
        c.fr.pc + 4 * f.imm.signExtend 64 + 4 * BitVec.ofNat 64 (f.c.toNat + 128 * f.e.toNat), c.fr.mask, c.fr.mask,
        c.fr.tokens, f.m.setWidth 2, true, false, false, 0, []⟩ ∧
      (∀ r l, r < 128 → l < 32 → w'.reg r l = c.w.reg r l) ∧
      ∀ r l, 48 ≤ r → r < 64 → l < 32 → Tab.getD 0 (4096 + 32 * (r - 48) + l) w'.regs = c.w.reg r l) ∧
  (∀ f, Completes (.yld f)
    (fun _ c => producing c ∧ (c.lanes ≠ [] → (yields c).length ≤ 128 ∧ (yields c).length < size c.w.landing))
    fun _ _ c w' => same c w' ∧ on c w' ∧ OtherFrags c.w w' c.i ∧
      w'.landing = { c.w.landing with entries := yields c }) ∧
  (∀ f, CompletesVia released Team.unstepped (.yld f)
    (fun _ c => producing c ∧ room c ∧ c.lanes ≠ [] ∧ (yields c).length ≤ 128 ∧ size c.w.landing ≤ (yields c).length)
    fun _ _ c w' => same c w' ∧ on c w' ∧ others c w' ∧ w'.frags.length = c.w.frags.length + 1 ∧
      (∃ f', w'.frags[c.w.frags.length]? = some f' ∧ consumer c.w.landing (size c.w.landing) f') ∧
      started c.w.landing w'.landing (size c.w.landing) (yields c)) ∧
  (∀ f, CompletesVia released Team.unstepped (.yld f)
    (fun _ c => producing c ∧ room c ∧ c.lanes ≠ [] ∧ 128 < (yields c).length)
    fun _ _ c w' => same c w' ∧ others c w' ∧ w'.frags.length = c.w.frags.length + 1 ∧
      (∃ fr', w'.frags[c.i]? = some fr' ∧ fr'.pc = c.fr.pc ∧ fr'.mask = c.fr.mask ∧ fr'.tokens = c.fr.tokens ∧
        fr'.rep = c.fr.rep ∧ fr'.wait = c.fr.wait) ∧
      (∃ f', w'.frags[c.w.frags.length]? = some f' ∧ consumer c.w.landing (size c.w.landing) f') ∧
      started c.w.landing w'.landing (size c.w.landing) c.w.landing.entries) ∧
  (∀ f, TrapsWith (.yld f) (fun _ c => producing c ∧ ¬ room c ∧ c.lanes ≠ [] ∧ size c.w.landing ≤ (yields c).length)
    fun c => { code := 0x0A, sub := 4, lane := lowLane c.fr.mask, info := c.ins.word }) ∧
  (∀ f, TrapsWith (.gflip f) (fun _ c => producing c ∧ ¬ room c ∧ c.w.landing.entries ≠ [])
    fun c => { code := 0x0A, sub := 4, lane := lowLane c.fr.mask, info := c.ins.word }) ∧
  (∀ f, Completes (.gflip f) (fun _ c => producing c ∧ c.w.landing.entries = [])
    fun _ _ c w' => KeptButFrags c.w w' ∧ OtherFrags c.w w' c.i ∧ on c w') ∧
  (∀ f, CompletesVia released Team.unstepped (.gflip f) (fun _ c => producing c ∧ room c ∧ c.w.landing.entries ≠ [])
    fun _ _ c w' => same c w' ∧ on c w' ∧ others c w' ∧ w'.frags.length = c.w.frags.length + 1 ∧
      let k := min (size c.w.landing) c.w.landing.entries.length
      (∃ f', w'.frags[c.w.frags.length]? = some f' ∧ consumer c.w.landing k f') ∧
      started c.w.landing w'.landing k c.w.landing.entries) ∧
  (∀ f, Completes (.gend f) (fun _ c => producing c ∧ left c ≠ 0)
    fun _ _ c w' => same c w' ∧ OtherFrags c.w w' c.i ∧ w'.landing = retired c ∧
      ∃ fr', w'.frags[c.i]? = some fr' ∧ fr'.mask = left c ∧ fr'.tokens = c.fr.tokens ∧ fr'.wait = .none ∧
        (c.fr.rep = none → fr'.pc = next c)) ∧
  (∀ f, Completes (.gend f) (fun _ c => producing c ∧ left c = 0 ∧ leftOver c ≠ 0 ∧ ∀ g ∈ c.w.frags, g.due = none)
    fun _ _ c w' => ∃ pk,
      w' = { ({ c.w with frags := c.w.frags.eraseIdx c.i, landing := retired c } : Wave).resolveJoins with
        parked := pk, evictable := false }) ∧
  (∀ f, CompletesVia released Team.unstepped (.gend f)
    (fun _ c => producing c ∧ left c = 0 ∧ leftOver c = 0 ∧ c.w.landing.entries ≠ [])
    fun _ _ c w' => same c w' ∧
      let k := min (size c.w.landing) c.w.landing.entries.length
      (∃ f', w'.frags = quiet (c.w.frags.eraseIdx c.i) ++ [f'] ∧ consumer c.w.landing k f') ∧
      started (retired c) w'.landing k c.w.landing.entries) ∧
  (∀ f, Completes (.gend f)
    (fun _ c => producing c ∧ left c = 0 ∧ leftOver c = 0 ∧ c.w.landing.entries = [] ∧ framed c)
    fun _ _ c w' => ended c w' ∧ exits c w') ∧
  (∀ f, Completes (.gnext f) (fun _ c => consuming c ∧ c.fr.cons = true ∧ ¬ atNext c)
    fun _ _ c w' => KeptButFrags c.w w' ∧ OtherFrags c.w w' c.i ∧
      ∃ fr', w'.frags[c.i]? = some fr' ∧ fr'.wait = .gnext ∧ fr'.pc = c.fr.pc ∧ fr'.mask = c.fr.mask) ∧
  (∀ f, CompletesVia released Team.unstepped (.gnext f)
    (fun _ c => consuming c ∧ atNext c ∧ c.w.landing.prodMask ≠ 0)
    fun _ _ c w' => same c w' ∧ w'.frags = quiet (c.w.frags.filter fun g => !g.cons) ∧
      w'.landing = { c.w.landing with entries := remain c, batch := 0, mode := false }) ∧
  (∀ f, CompletesVia (fun s c => released (released s c) c) Team.unstepped (.gnext f)
    (fun _ c => consuming c ∧ atNext c ∧ c.w.landing.prodMask = 0 ∧ remain c ≠ [])
    fun _ _ c w' => same c w' ∧
      let k := min (size c.w.landing) (remain c).length
      (∃ f', w'.frags = quiet (c.w.frags.filter fun g => !g.cons) ++ [f'] ∧ consumer c.w.landing k f') ∧
      started c.w.landing w'.landing k (remain c)) ∧
  ∀ f, CompletesVia released Team.unstepped (.gnext f)
    (fun _ c => consuming c ∧ atNext c ∧ c.w.landing.prodMask = 0 ∧ remain c = [] ∧ framed c)
    fun _ _ c w' => ended c w' ∧ exits c w'

/-- R280, R281, R282: TAKE writes the words of its lane's entry, the j-th lowest lane of the batch having the j-th oldest
entry; GSTAT writes the low half of the record; a Landing instruction in a handler, outside a region or in the wrong
mode traps with LANDING, with no effect, and with the first word in trap.info (log entry 109). That the case is 5 where the
handler flag and another case hold is the model's choice (log entry 108). -/
def Obligations.LandingEntriesAndTraps : Prop :=
  let rank := fun (c : Ctx) (l : Nat) => ((List.range l).filter fun n => c.w.landing.regMask.getLsbD n).length
  let word := fun (e : Word × Word × Word × Word) (j : Nat) =>
    if j = 0 then e.1 else if j = 1 then e.2.1 else if j = 2 then e.2.2.1 else e.2.2.2
  let traps := fun (consumer : Bool) (j : Instr) => TrapsWith j
    (fun _ c => c.w.handlerFlag = true ∨ c.w.landing.inReg = false ∨ c.w.landing.mode ≠ consumer)
    fun c => { code := 0x0A, sub := if c.w.handlerFlag then 5 else if consumer then 2 else 1, lane := lowLane c.fr.mask,
               info := c.ins.word }
  (∀ f, Completes (.take f)
    (fun _ c => c.w.handlerFlag = false ∧ c.w.landing.inReg = true ∧ c.w.landing.mode = true ∧
      ∀ l ∈ c.lanes, c.w.landing.regMask.getLsbD l = true ∧ rank c l < c.w.landing.batch)
    fun _ _ c w' => Wrote (fun c l => (List.range f.imm.toNat).map fun j =>
      (f.d.toNat + j, word (c.w.landing.entries.getD (rank c l) (0, 0, 0, 0)) j)) c w') ∧
  (∀ f, WritesRegs (.gstat f) fun c _ => [(f.d.toNat,
    BitVec.ofNat 32 (c.w.landing.entries.length + 2 ^ 8 * c.w.landing.batch + 2 ^ 16 * c.w.landing.mode.toNat +
      2 ^ 17 * c.w.landing.drain.toNat + 2 ^ 18 * c.w.landing.inReg.toNat + 2 ^ 19 * c.w.landing.bsz.toNat))]) ∧
  (∀ f, traps false (.yld f)) ∧ (∀ f, traps false (.gend f)) ∧ (∀ f, traps false (.gflip f)) ∧
  (∀ f, traps true (.take f)) ∧ (∀ f, traps true (.gnext f)) ∧
  ∀ f, TrapsWith (.gen f)
    (fun _ c => c.w.handlerFlag = true ∨ 1 < c.w.frags.length ∨ c.w.landing.inReg = true ∨
      (lanesOf c.w.live).length < 8 * 2 ^ f.m.toNat)
    fun c => { code := 0x0A, sub := if c.w.handlerFlag then 5 else 0, lane := lowLane c.fr.mask, info := c.ins.word }

/-- R209, R210, R212, R213: a trap in fragment i of a wave outside a handler, where Leyth does not catch its code, enters the
handler: the trap registers take the fragment's PC, mask, tokens and repeat state and the cause, the fragment goes on at the
vector, whose low two bits count as 0 (log entry 110), with no token and no repeat state, the handler flag is set, its wave
waits no more without a break (R129), and nothing else changes. With no vector the launch ends with the trap's code, in a
handler with DOUBLE_TRAP: its cutter stops and no wave of it issues again. Where Leyth catches the code, the team halts with
the trap pending, and DEBUG_CONTINUE takes it up; the team's waiting fragments execute their instructions again from the start
(R219). -/
def Obligations.TrapsEnterTheHandler : Prop :=
  let cause := fun (t : TrapInfo) => (BitVec.ofNat 32 (t.code + 2 ^ 8 * t.lane + 2 ^ 13 * t.redo.toNat +
    2 ^ 14 * t.write.toNat + 2 ^ 15 * t.isAsync.toNat + 2 ^ 16 * t.kreg + 2 ^ 21 * t.queue + 2 ^ 24 * t.sub))
  let small := fun (t : TrapInfo) => t.code < 256 ∧ t.lane < 32 ∧ t.kreg < 32 ∧ t.queue < 8 ∧ t.sub < 256
  let enters := fun (s t : State) (k i : Nat) (w : Wave) (fr : Frag) (x : TrapInfo) (vec : Dword) =>
    t = { s with waves := t.waves } ∧ (∀ j, j ≠ k → Tab.find j t.waves = Tab.find j s.waves) ∧
    ∃ w', Tab.find k t.waves = some w' ∧
      w' = { w with frags := w'.frags, trap := w'.trap, handlerFlag := true, tretLanes := 0, evictable := false } ∧
      w'.trap = ⟨cause x, x.info, x.addr, fr.pc, fr.mask, fr.tokens, fr.rep, false, fr.cons⟩ ∧ OtherFrags w w' i ∧
      ∃ fr', w'.frags[i]? = some fr' ∧ Goes fr' (vec &&& ~~~3#64) fr.mask 0 ∧ fr'.handler = true ∧ fr'.prio = fr.prio
  let ends := fun (s t : State) (tm : Team) (la : Launch) (status : Nat) (x : TrapInfo) =>
    t = { s with launches := t.launches, teams := t.teams } ∧
    Tab.find tm.launch t.launches = some { la with
      stopped := true, error := if la.error = none then some (status, cause x) else la.error } ∧
    (∀ j, j ≠ tm.launch → Tab.find j t.launches = Tab.find j s.launches) ∧
    ∀ j, Tab.find j t.teams = (Tab.find j s.teams).map fun u => if u.launch = tm.launch then { u with dead := true } else u
  (∀ (s : State) (k i : Nat) (w : Wave) (fr : Frag) (tm : Team) (la : Launch) (x : TrapInfo), small x →
    Tab.find k s.waves = some w → w.frags[i]? = some fr → Tab.find w.team s.teams = some tm →
    Tab.find tm.launch s.launches = some la →
    let caught := la.dbg.taken = true ∧ ((0x10 ≤ x.code ∧ x.code ≤ 0x12) ∨ x.code ∈ la.dbg.catches)
    let t := s.takeTrap k i x
    (w.handlerFlag = true → ends s t tm la 0x20 x) ∧
    (w.handlerFlag = false → caught → t = { s with teams := t.teams } ∧
      ∀ j, Tab.find j t.teams = (Tab.find j s.teams).map fun u =>
        if j = w.team then { u with halt := some ⟨x.code, x.info.toNat, k, i, some x⟩, step := none } else u) ∧
    (w.handlerFlag = false → ¬ caught → la.desc.trapVec = 0 → ends s t tm la x.code x) ∧
    (w.handlerFlag = false → ¬ caught → la.desc.trapVec ≠ 0 → enters s t k i w fr x la.desc.trapVec)) ∧
  ∀ (s : State) (team : Nat) (tm : Team) (h : Halt), Tab.find team s.teams = some tm → tm.halt = some h →
    let again := fun (u : State) => ∀ j, Tab.find j u.waves =
      (Tab.find j s.waves).map fun v =>
        if v.team = team then { v.restart with evictable := v.evictable && v.spilt } else v
    (h.pending = none → ∃ t, exec (.debugContinue team) s = .next t ∧ again t ∧ t = { s with teams := t.teams, waves := t.waves } ∧
      ∀ j, Tab.find j t.teams = (Tab.find j s.teams).map fun u =>
        if j = team then { u with halt := none, step := none } else u) ∧
    ∀ x w fr la, h.pending = some x → small x → Tab.find h.wave s.waves = some w → w.team = team →
      w.frags[h.frag]? = some fr → Tab.find tm.launch s.launches = some la →
      ∃ t u, exec (.debugContinue team) s = .next t ∧
        (Tab.find team u.teams).map Team.halt = some none ∧
        again u ∧ u = { s with teams := u.teams, waves := u.waves } ∧
        (w.handlerFlag = true → ends u t tm la 0x20 x) ∧
        (w.handlerFlag = false → la.desc.trapVec = 0 → ends u t tm la x.code x) ∧
        (w.handlerFlag = false → la.desc.trapVec ≠ 0 → enters u t h.wave h.frag { w.restart with evictable := w.evictable && w.spilt } fr.restart x
          la.desc.trapVec)

/-- R214, R215, R217, R218: TRAP raises TRAP_INSN of class after, with its code in trap.info and the enabled lanes in
trap.addr; BKPT halts the team while Leyth holds the context, otherwise enters the handler with BREAKPOINT, otherwise
does nothing; neither acts with no enabled lane. TRET waits until every other handler fragment has executed it, and then one
fragment of the lanes that did goes on at trap.pc with the saved tokens and repeat state; outside a handler it traps
with ILLEGAL_ENCODING. ICINV with an enabled lane discards the words held for its fragment, and those only. -/
def Obligations.TrapInstructionsAndReturn : Prop :=
  let passes := fun (c : Ctx) (w' : Wave) => KeptButFrags c.w w' ∧ OtherFrags c.w w' c.i ∧ ∃ fr', w'.frags[c.i]? = some fr' ∧
    GoesOn c.fr fr' c.ins.len
  let taken := fun (s : State) (c : Ctx) => ((s.launchOf c.w).map fun l => l.dbg.taken) = some true
  let vec := fun (s : State) (c : Ctx) => ((s.launchOf c.w).map fun l => l.desc.trapVec).getD 0
  let entry := fun (code info : Nat) (addr : Ctx → Dword) (s _ : State) (c : Ctx) (w' : Wave) =>
    w' = { c.w with frags := w'.frags, trap := w'.trap, handlerFlag := true, tretLanes := 0, parked := w'.parked,
                    evictable := w'.evictable } ∧
    OtherFrags c.w w' c.i ∧
    (∃ fr', w'.frags[c.i]? = some fr' ∧ Goes fr' (vec s c &&& ~~~3#64) c.fr.mask 0 ∧ fr'.handler = true) ∧
    w'.trap = { w'.trap with
      cause := BitVec.ofNat 32 (code + 256 * lowLane c.fr.mask), info := BitVec.ofNat 32 info, addr := addr c, mask := c.fr.mask,
      tok := c.fr.tokens, moved := false } ∧
    (c.fr.rep = none → w'.trap.pc = c.fr.pc + BitVec.ofNat 64 c.ins.len ∧ w'.trap.rep = none)
  let open' := fun (code : Nat) (s : State) (c : Ctx) => c.lanes ≠ [] ∧ c.w.handlerFlag = false ∧ vec s c ≠ 0 ∧
    ∀ l, s.launchOf c.w = some l → l.dbg.taken = true → code = 0x13 ∧ 0x13 ∉ l.dbg.catches
  let trap := fun (j : Instr) (code : Nat) => Completes j (open' 0x13) (entry 0x13 code fun c => (maskOf c.lanes).setWidth 64) ∧
    Completes j (fun _ c => c.lanes = []) fun _ _ c w' => passes c w'
  let bkpt := fun (j : Instr) (code : Nat) => Completes j (open' 0x10) (entry 0x10 code fun _ => 0) ∧
    Completes j (fun s c => c.lanes = [] ∨ (¬ taken s c ∧ vec s c = 0)) (fun _ _ c w' => passes c w') ∧
    Completes j (fun s c => c.lanes ≠ [] ∧ taken s c ∧ ∀ tm, s.teamOf c.w = some tm → tm.step = none)
      fun _ t c w' => passes c w' ∧ ∃ tm, t.teamOf c.w = some tm ∧ tm.halt = some ⟨0x10, code, c.k, c.i, none⟩
  (∀ f, trap (.trap f) f.imm.toNat) ∧ (∀ f, trap (.trapB32 f) f.b.toNat) ∧
  (∀ f, bkpt (.bkpt f) f.imm.toNat) ∧ (∀ f, bkpt (.bkptB32 f) f.b.toNat) ∧
  (∀ f, Completes (.tret f)
    (fun _ c => c.w.handlerFlag = true ∧ c.w.live ≠ 0 ∧
      ∃ n g, n ≠ c.i ∧ c.w.frags[n]? = some g ∧ g.handler = true ∧ g.wait ≠ .tret ∧ ∀ t nx, g.wait ≠ .join t nx)
    fun _ _ c w' => Stands .tret { c with w := { c.w with tretLanes := c.w.tretLanes ||| c.fr.mask } } w') ∧
  (∀ f, Completes (.tret f)
    (fun _ c => c.w.handlerFlag = true ∧ c.w.arrivals = [] ∧ c.w.faults = [] ∧ c.w.live ≠ 0 ∧ c.fr.mask ≠ 0 ∧
      (∀ g ∈ c.w.frags, g.due = none) ∧
      ∀ n g, n ≠ c.i → c.w.frags[n]? = some g → g.handler = true → g.wait = .tret)
    fun _ _ c w' => ∃ (pk : Option Nat) (wb : Wave) (fr' : Frag) (j n : Nat),
      wb = { c.w with frags := wb.frags, handlerFlag := false, trap := TrapRegs.zero, tretLanes := 0 } ∧
      w' = { wb.resolveJoins.setFrag j (·.issued n) with parked := pk, evictable := false } ∧
      (c.fr.handler = true → wb.frags = (c.w.frags.filter fun g => !g.handler) ++ [fr']) ∧
      fr'.pc = c.w.trap.pc ∧ fr'.mask = c.w.tretLanes ||| c.fr.mask ∧ fr'.tokens = c.w.trap.tok ∧ fr'.wait = .none ∧
      fr'.handler = false ∧ fr'.cons = c.w.trap.cons ∧ fr'.rep = if c.w.trap.moved then none else c.w.trap.rep) ∧
  (∀ f, TrapsWith (.tret f) (fun _ c => c.w.handlerFlag = false)
    fun c => { code := 0x02, lane := lowLane c.fr.mask, info := c.ins.word }) ∧
  ∀ f, Completes (.icinv f) (fun _ _ => True) fun _ _ c w' =>
    KeptButFrags c.w w' ∧ OtherFrags c.w w' c.i ∧ ∃ fr', w'.frags[c.i]? = some fr' ∧
      fr'.held = (if c.lanes = [] then c.fr.held else []) ∧ GoesOn c.fr { fr' with held := c.fr.held } c.ins.len

/-- R213, R216, R369: SYSR writes the system register that IMM18 names to vD in every enabled lane; SYSW writes trap.pc in a
handler, the scratch registers, and host.req: with bit 0 set it appends a record with the trap's address, code and WRITE bit
to the partition's fault queue and the fragment waits, or host.resp reads 2 at once where no queue is placed. SYSW of trap.pc
traps outside a handler, before every other check of its operands, and on a misaligned value, where it is the model's choice
that WRITE is 0 (log entry 77). FAULT_ANSWER, where the partition's function exists (R377; that partition 0's registers are
there without virtual functions is log entry 104), lets the fragment go on, with the answer in host.resp; a response above 2
is none. -/
def Obligations.SystemRegistersAndRequests : Prop :=
  let low := fun (c : Ctx) => c.lanes.headD 0
  let passes := fun (c : Ctx) (w' : Wave) => OtherFrags c.w w' c.i ∧ ∃ fr', w'.frags[c.i]? = some fr' ∧
    GoesOn c.fr fr' c.ins.len
  let value := fun (s : State) (c : Ctx) =>
    let x := c.w.trap
    let la := s.launchOf c.w
    match c.f.imm.toNat with
    | 0 => ((la.map fun (l : Launch) => l.desc.trapVec).getD 0).toNat
    | 1 => x.cause.toNat | 2 => x.info.toNat | 3 => x.addr.toNat | 4 => x.pc.toNat | 5 => x.mask.toNat
    | 6 => x.tok.toNat | 7 => (x.rep.map fun r => r.left.toNat).getD 0 | 9 => c.w.hostResp.toNat
    | 10 => c.w.scratch.1.toNat | 11 => c.w.scratch.2.1.toNat | 12 => c.w.scratch.2.2.1.toNat
    | 13 => c.w.scratch.2.2.2.toNat | 14 => (s.part (s.partOf c.w)).wait
    | _ => if (la.map fun (l : Launch) => l.dbg.taken) = some true then 1 else 0
  let v := fun (f : XF) (c : Ctx) => c.w.reg f.a.toNat (low c)
  let pair := fun (f : XF) (c : Ctx) => (c.w.reg (f.a.toNat + 1) (low c) ++ c.w.reg f.a.toNat (low c) : Dword)
  (∀ f, Completes (.sysr f) (fun _ _ => True) fun s _ c w' => Wrote (fun c _ =>
    valueIn (if f.imm = 0 ∨ f.imm = 3 ∨ f.imm = 4 then 2 else 1) f.d.toNat (value s c)) c w') ∧
  (∀ f, Completes (.sysw f)
    (fun _ c => (c.lanes = [] ∧ (f.imm = 4 → c.w.handlerFlag = true)) ∨ (f.imm = 8 ∧ (v f c).getLsbD 0 = false))
    fun _ _ c w' => KeptButFrags c.w w' ∧ passes c w') ∧
  (∀ f, f.imm = 4 → Completes (.sysw f)
    (fun _ c => c.lanes ≠ [] ∧ c.w.handlerFlag = true ∧ (pair f c).toNat % 4 = 0) fun _ _ c w' =>
    KeptButFrags { c.w with trap := { c.w.trap with pc := pair f c, moved := true } } w' ∧ passes c w') ∧
  (∀ f, f.imm = 4 → ∀ (s : State) (k i : Nat) (w : Wave) (fr : Frag), Issues s k i w fr → w.handlerFlag = false →
    exec (.sysw f) s = .next ((s.tick (coreOf k)).trapIssue k i w
      { code := 0x02, lane := lowLane fr.mask, info := (insOf (.sysw f)).word })) ∧
  (∀ f, f.imm = 4 → TrapsWith (.sysw f) (fun _ c => c.w.handlerFlag = true ∧ c.lanes ≠ [] ∧ (pair f c).toNat % 4 ≠ 0)
    fun c => { code := 0x04, lane := low c, addr := pair f c }) ∧
  (∀ f, 10 ≤ f.imm.toNat → Completes (.sysw f) (fun _ c => c.lanes ≠ []) fun _ _ c w' =>
    let x := c.w.scratch
    let n := f.imm.toNat
    KeptButFrags { c.w with scratch := (if n = 10 then v f c else x.1, if n = 11 then v f c else x.2.1,
      if n = 12 then v f c else x.2.2.1, if n = 13 then v f c else x.2.2.2) } w' ∧ passes c w') ∧
  (∀ f, f.imm = 8 → Completes (.sysw f)
    (fun s c => c.lanes ≠ [] ∧ (v f c).getLsbD 0 = true ∧ (∀ n, c.fr.wait ≠ .host n) ∧ (s.part (s.partOf c.w)).ring = none)
    fun _ _ c w' => KeptButFrags { c.w with hostResp := 2 } w' ∧ passes c w') ∧
  (∀ f, f.imm = 8 → CompletesVia (fun s c =>
      let p := s.partOf c.w
      let pt := s.part p
      let r := pt.ring.getD (0, 1)
      (s.homeWrite p (hostPa (r.1 + 32 * (pt.tag % r.2)))
        (leBytes 8 0 ++ leBytes 8 pt.tag ++
          leBytes 1 (c.w.trap.cause.toNat % 128 + 128 * (c.w.trap.cause.toNat / 2 ^ 14 % 2)) ++ leBytes 1 (c.k % 48) ++
          leBytes 2 (((s.teamOf c.w).map fun tm => tm.place.1).getD 0) ++ leBytes 4 (((s.launchOf c.w).map fun l => l.id.toNat).getD 0) ++
          leBytes 8 c.w.trap.addr.toNat)).setPart p fun t => { t with tag := t.tag + 1, reqs := t.reqs ++ [⟨t.tag, c.k⟩] })
      Team.unstepped (.sysw f)
    (fun s c => c.lanes ≠ [] ∧ (v f c).getLsbD 0 = true ∧ (∀ n, c.fr.wait ≠ .host n) ∧
      ∃ r, (s.part (s.partOf c.w)).ring = some r ∧ (s.part (s.partOf c.w)).reqs.length < r.2)
    fun s _ c w' => KeptButFrags c.w w' ∧ OtherFrags c.w w' c.i ∧ ∃ fr', w'.frags[c.i]? = some fr' ∧
      fr'.wait = .host (s.part (s.partOf c.w)).tag ∧ fr'.pc = c.fr.pc) ∧
  (∀ f, f.imm = 8 → Completes (.sysw f)
    (fun s c => c.lanes ≠ [] ∧ (v f c).getLsbD 0 = true ∧ ∃ n, c.fr.wait = .host n ∧
      ∀ r ∈ (s.part (s.partOf c.w)).reqs, r.tag ≠ n)
    fun _ _ c w' => KeptButFrags c.w w' ∧ passes c w') ∧
  ∀ (s : State) (p : Nat) (tag : BitVec 64) (resp : Word) (r : FaultReq) (w : Wave),
    (s.part p).reqs.find? (fun x => x.tag == tag.toNat) = some r → Tab.find r.wave s.waves = some w →
    (∃ g ∈ w.frags, g.wait = .host r.tag) →
    (2 < resp.toNat ∨ (s.feature 2 = false ∧ p ≠ 0) → exec (.faultAnswer p tag resp) s = .next s) ∧
    (resp.toNat ≤ 2 → s.feature 2 = true ∨ p = 0 →
      ∃ t, exec (.faultAnswer p tag resp) s = .next t ∧ t = { s with waves := t.waves, parts := t.parts } ∧
      Tab.find r.wave t.waves = some { w with hostResp := resp } ∧
      (∀ j, j ≠ r.wave → Tab.find j t.waves = Tab.find j s.waves) ∧ (∀ q, q ≠ p → t.part q = s.part q) ∧
      t.part p = { s.part p with reqs := (s.part p).reqs.filter fun x => x.tag != tag.toNat })

/-- R129, R133, R136, R141, R143, R191, R223: the cycle counter of a core runs on in turns of its own, whether or not an
instruction issues there; a result returns, but an ACTLD's by its commit alone; the park of a wave of a running team completes
once none is outstanding, and the oldest pending fault is delivered to the fragment that parked, or, where it waits at a JOIN,
is due to it once it goes on (log entry 80); of the fragments ready for 64 issue cycles the first in the order of R140 issues
next (the order among several is the model's, log entry 88); a wave of a team that is not parked whose fragments all have
waited past the threshold becomes evictable, and no other; an evicted wave of a running team returns once its condition holds
(the model's reading of that moment is log entry 42) and what it gave up is free, and a parked team whose launch runs goes on
when what it gave up is free. -/
def Obligations.WaveEvents : Prop :=
  let waved := fun (s t : State) (k : Nat) (w : Wave) => t = { s with waves := t.waves } ∧
    (∀ j, j ≠ k → Tab.find j t.waves = Tab.find j s.waves) ∧ Tab.find k t.waves = some w
  let ends := fun (s : State) (k i : Nat) (w : Wave) => Tab.find k s.waves = some w ∧ w.parked = some i ∧ w.outstanding = 0 ∧
    ∀ tm, s.teamOf w = some tm → tm.dead = false ∧ tm.parked = false ∧ tm.halt = none
  (∀ (s : State) (k : Nat) (w : Wave), Tab.find k s.waves = some w →
    let held := ((s.core (coreOf k)).pending.filter fun p => p.wave = some k).length
    ∃ t, exec (.resultReturn k) s = .next t ∧
      waved s t k (if held < w.outstanding then { w with outstanding := w.outstanding - 1 } else w)) ∧
  (∀ (s : State) (k i : Nat) (w : Wave), ends s k i w →
    (∀ fr, w.frags[i]? = some fr → (∀ n nx, fr.wait ≠ .join n nx) ∧ (fr.wait = .none → w.faults = [] ∨ w.handlerFlag = true)) →
    ∃ t, exec (.parkComplete k) s = .next t ∧ waved s t k { w with parked := none }) ∧
  (∀ (s : State) (k i : Nat) (w : Wave) (fr : Frag) (f : AsyncFault) (rest : List AsyncFault), ends s k i w →
    w.handlerFlag = false → w.faults = f :: rest → w.frags[i]? = some fr → fr.wait = .none →
    ∃ u t, waved s u k { w with parked := none, faults := rest } ∧ exec (.parkComplete k) s = .next t ∧
      t = u.takeTrap k i { code := f.code, sub := f.sub, queue := f.queue, isAsync := true, redo := false,
                           lane := lowLane fr.mask, info := f.info }) ∧
  (∀ (s : State) (k i n : Nat) (nx : Dword) (w : Wave) (fr : Frag), ends s k i w → w.frags[i]? = some fr → fr.wait = .join n nx →
    ∃ t, exec (.parkComplete k) s = .next t ∧
      waved s t k { w with parked := none, frags := w.frags.set i { fr with due := w.faults.head? } }) ∧
  (∀ (s : State) (core quad : Nat),
    let hungry := fun (x : Nat × Nat) => x ∈ s.quadReady core quad ∧ 64 ≤ s.readyFor x
    (∃ x, hungry x) → ∃ x, hungry x ∧ (∀ y, hungry y → rankLt (s.rank y) (s.rank x) = false) ∧
      exec (.starvationIssue core quad) s = .next { s with agenda := .issue x.1 x.2 :: s.agenda }) ∧
  (∀ (s : State) (k : Nat) (w : Wave), Tab.find k s.waves = some w →
    let waits := fun (f : Frag) => (f.wait = .retry ∨ (∃ o ph, f.wait = .barw o ph) ∨ f.wait = .gen ∨ f.wait = .held ∨
      ∃ n, f.wait = .host n) ∧ (s.part (s.partOf w)).wait ≤ (s.core (coreOf k)).clock.toNat - f.waitSince
    let parked := (s.teamOf w).map Team.parked = some true
    (¬ parked → (∀ f ∈ w.frags, waits f) →
      ∃ t, exec (.waitThreshold k) s = .next t ∧ waved s t k { w with evictable := true }) ∧
    (parked ∨ (∃ f ∈ w.frags, ¬ waits f) → exec (.waitThreshold k) s = .next s)) ∧
  (∀ (s : State) (core n : Nat) (rest : List Turn), s.agenda = .cycles core n :: rest →
    ∃ t, step s = .next t ∧ t = { s with agenda := rest, cores := t.cores } ∧ (∀ c, c ≠ core → t.core c = s.core c) ∧
      t.core core = { s.core core with clock := (s.core core).clock + BitVec.ofNat 64 n }) ∧
  (∀ (s : State) (k : Nat) (w : Wave) (tm : Team), Tab.find k s.waves = some w → Tab.find w.team s.teams = some tm →
    w.spilt = true → tm.dead = false → tm.parked = false → tm.halt = none →
    (s.canReturn k w = true → s.wakesSpilt k w = true →
      ∃ t, exec (.evictedWaveResume k) s = .next t ∧ waved s t k { w with spilt := false, evictable := false }) ∧
    (s.canReturn k w = false ∨ s.wakesSpilt k w = false → exec (.evictedWaveResume k) s = .next s)) ∧
  ∀ (s : State) (n : Nat) (tm : Team) (la : Launch), Tab.find n s.teams = some tm → Tab.find tm.launch s.launches = some la →
    tm.parked = true → la.parked = false → la.desc.cores = false → s.canResume n tm = true →
    ∃ t, exec (.teamResume n) s = .next t ∧ t = { s with waves := t.waves, teams := t.teams, cores := t.cores } ∧
      (∀ j, j ≠ n → Tab.find j t.teams = Tab.find j s.teams) ∧
      (∃ tm', Tab.find n t.teams = some tm' ∧ tm' = { tm with parked := false, pages := tm'.pages } ∧
        ∀ p, (Tab.find p tm'.pages) = (Tab.find p tm.pages).map fun pg => { pg with pinned := true }) ∧
      (∀ j, Tab.find j t.waves = (Tab.find j s.waves).map fun w =>
        if w.team = n then { w with spilt := false, evictable := false } else w) ∧
      (∀ c, c ≠ tm.core → t.core c = s.core c) ∧ t.core tm.core = (s.core tm.core).giveBack n tm.launch

/-- R219, R220, R371: PREEMPT of 1 to 8 launches, where the mailbox takes commands, parks those of the partition that are in
flight and their teams, and nothing of them issues; RESUME lets them go on. R225 to R229: DEBUG_CONTEXT_TAKE sets who holds a
launch's debug context; a step on a halted team lets one fragment, or any of one wave, issue one instruction, and no other
fragment of the team; that issue, or the trap that it raises, halts the team again with STEP or the trap's code, and a JOIN
that waits stays the step's (R228); Leyth numbers a wave's fragments by their lowest lanes (R229); a lane-step first takes the
lane out of its fragment, unless it is alone. The lowest breakpoint that fires at a fragment's next instruction halts its team
before that issues (R226). A load that touches a byte of a watchpoint's range halts it after (R227). A register write through
Leyth sets the register and makes bindings over it stale. -/
def Obligations.PreemptionAndDebugger : Prop :=
  let takes := fun (s : State) => s.repart = none ∧ s.box = [] ∧ s.stage = 6 ∧ s.accepted.isSome = true
  let named := fun (s : State) (p : Nat) (ids : List Word) (l : Nat) => ∃ id ∈ ids, s.inFlight p id = some l
  let halted := fun (s : State) (n : Nat) (tm : Team) (h : Halt) => Tab.find n s.teams = some tm ∧ tm.halt = some h ∧
    h.pending = none
  let again := fun (w : Wave) => ({ w.restart with evictable := w.evictable && w.spilt } : Wave)
  let restarted := fun (s : State) (n j : Nat) => (Tab.find j s.waves).map fun w => if w.team = n then again w else w
  let ordered := fun (s t : State) (n : Nat) (tm : Team) (num : Nat) (i : Option Nat) =>
    t = { s with teams := t.teams, waves := t.waves } ∧ (∀ j, j ≠ n → Tab.find j t.teams = Tab.find j s.teams) ∧
    Tab.find n t.teams = some { tm with step := some (num, i) }
  (∀ (s : State) (p : Nat) (ids : List Word), takes s → ids ≠ [] → ids.length ≤ 8 →
    ∃ t, exec (.preempt p ids) s = .next t ∧
      t = { s with launches := t.launches, teams := t.teams, waves := t.waves, answer := .done } ∧
      (∀ l, named s p ids l → (Tab.find l t.launches).map Launch.parked = some true) ∧
      (∀ l, ¬ named s p ids l → Tab.find l t.launches = Tab.find l s.launches) ∧
      (Tab.sorted s.teams = true → ∀ n tm, Tab.find n s.teams = some tm →
        (named s p ids tm.launch → Tab.find n t.teams = some { tm with parked := true } ∧
          ∀ k w, Tab.find k s.waves = some w → w.team = n → Tab.find k t.waves = some (again w)) ∧
        (¬ named s p ids tm.launch → Tab.find n t.teams = some tm ∧
          ∀ k w, Tab.find k s.waves = some w → w.team = n → Tab.find k t.waves = some w)) ∧
      (Tab.sorted s.teams = true → ∀ n tm, Tab.find n s.teams = some tm → named s p ids tm.launch → ∀ k w i,
        Tab.find k t.waves = some w → w.team = n → t.ready k i = false)) ∧
  (∀ (s : State) (p : Nat) (ids : List Word), takes s → ids = [] ∨ 8 < ids.length →
    exec (.preempt p ids) s = .next { s with answer := .refused }) ∧
  (∀ (s : State) (p : Nat) (ids : List Word), takes s →
    ∃ t, exec (.resume p ids) s = .next t ∧ t = { s with launches := t.launches, answer := .done } ∧
      (∀ l la, Tab.find l s.launches = some la → named s p ids l → Tab.find l t.launches = some { la with parked := false }) ∧
      ∀ l, ¬ named s p ids l → Tab.find l t.launches = Tab.find l s.launches) ∧
  (∀ (s : State) (l : Nat) (la : Launch) (on : Bool), Tab.find l s.launches = some la → s.feature 6 = true →
    ∃ t, exec (.debugContextTake l on) s = .next t ∧ t = { s with launches := t.launches } ∧
      (∀ j, j ≠ l → Tab.find j t.launches = Tab.find j s.launches) ∧
      Tab.find l t.launches = some { la with dbg := { la.dbg with taken := on } }) ∧
  (∀ (s : State) (n num k : Nat) (tm : Team) (h : Halt), halted s n tm h → s.waveOf n num = some k →
    ∃ t, exec (.waveStep n num) s = .next t ∧ ordered s t n tm num none ∧ ∀ j, Tab.find j t.waves = restarted s n j) ∧
  (∀ (s : State) (n num k f i : Nat) (w : Wave) (tm : Team) (h : Halt), halted s n tm h → s.waveOf n num = some k →
    Tab.find k s.waves = some w → w.byLane[f]? = some i →
    ∃ t, exec (.fragmentStep n num f) s = .next t ∧ ordered s t n tm num (some i) ∧
      ∀ j, Tab.find j t.waves = restarted s n j) ∧
  (∀ w : Wave, w.landing.inReg = false → w.byLane.Perm (List.range w.frags.length) ∧
    w.byLane.Pairwise fun a b => ∀ f g, w.frags[a]? = some f → w.frags[b]? = some g → lowLane f.mask ≤ lowLane g.mask) ∧
  (∀ (s : State) (n num k l i : Nat) (w : Wave) (fr : Frag) (tm : Team) (h : Halt), halted s n tm h →
    s.waveOf n num = some k → Tab.find k s.waves = some w → w.fragAt l = some i → w.frags[i]? = some fr → l < 32 →
    ∃ t, exec (.laneStep n num l) s = .next t ∧
      (fr.mask = 1#32 <<< l → ordered s t n tm num (some i) ∧ ∀ j, Tab.find j t.waves = restarted s n j) ∧
      (fr.mask ≠ 1#32 <<< l → w.landing.inReg = false ∨ w.frags.length < 32 →
        ordered s t n tm num (some w.frags.length) ∧ (∀ j, j ≠ k → Tab.find j t.waves = restarted s n j) ∧
        ∃ w' one, Tab.find k t.waves = some w' ∧ w' = { again w with frags := w'.frags, kin := w'.kin } ∧
          w'.frags = (w.restart.frags.modify i fun g => { g with mask := g.mask &&& ~~~(1#32 <<< l) }) ++ [one] ∧
          one.mask = 1#32 <<< l ∧ one.pc = fr.pc ∧ one.tokens = fr.tokens ∧ one.prio = fr.prio ∧ one.rep = fr.rep ∧
          one.wait = (if fr.wait = .tret then .tret else .none) ∧ one.launchLane = fr.launchLane ∧ one.bpSkip = fr.bpSkip)) ∧
  (∀ (s : State) (k i : Nat) (w : Wave) (tm : Team), Tab.find k s.waves = some w → Tab.find w.team s.teams = some tm →
    tm.halt.isSome = true → tm.step = none ∨ (∃ p, tm.step = some p ∧ (p.1 ≠ w.num ∨ ∃ j, p.2 = some j ∧ j ≠ i)) →
    s.ready k i = false) ∧
  (
    let stepped := fun (s : State) (w : Wave) (tm : Team) (num : Nat) (f : Option Nat) =>
      Tab.find w.team s.teams = some tm ∧ tm.halt.isSome = true ∧ tm.step = some (num, f)
    let ends := fun (j : Instr) => j.wellFormed = true → ∀ (s : State) (k i num : Nat) (g : Option Nat) (w : Wave) (fr : Frag)
      (tm : Team), Issues s k i w fr → Admits (insOf j) w fr → Undisturbed (insOf j) w → stepped s w tm num g →
        ∃ t, exec j s = .next t ∧ Tab.find w.team t.teams = some { tm with step := none, halt := some ⟨0x12, 0, k, i, none⟩ }
    (∀ f, ends (.nop f)) ∧ (∀ f, ends (.bra f)) ∧ (∀ f, ends (.iadd f)) ∧ (∀ f, ends (.imulImm f)) ∧ (∀ f, ends (.sel f)) ∧
    (∀ (s : State) (k i num : Nat) (g : Option Nat) (w : Wave) (fr : Frag) (tm : Team) (tr : TrapInfo), Issues s k i w fr →
      stepped s w tm num g → ∃ tm', Tab.find w.team (s.trapIssue k i w tr).teams = some tm' ∧ tm'.step = none ∧
        ∃ h, tm'.halt = some h ∧ (h.code = 0x12 ∨ h.code = tr.code)) ∧
    ∀ f, CompletesVia (fun s c => c.release 0 s) Team.unstepped (.join f)
      (fun s c => c.w.active c.fr = true ∧ (∃ tm num f, stepped s c.w tm num f) ∧
        (∃ n g, n ≠ c.i ∧ c.w.frags[n]? = some g ∧ c.w.active g = true ∧ g.tokens.getLsbD f.imm.toNat = true ∧
          ∀ t nx, g.wait ≠ .join t nx) ∧
        (∀ n g, n ≠ c.i → c.w.frags[n]? = some g → g.mask &&& c.fr.mask = 0) ∧ c.fr.mask ≠ 0)
      fun s t c _ => ∀ tm num g, stepped s c.w tm num g →
        Tab.find c.w.team t.teams = some { tm with step := some (num, some c.i) }) ∧
  (
    let fires := fun (d : Debug) (f : Frag) (b : Nat) =>
      let ctl := Tab.getD 0 b d.bpCtl
      b < 8 ∧ ctl.getLsbD 31 = true ∧ Tab.getD 0 b d.bpAddr = f.pc ∧ b ∉ f.bpSkip ∧
      (ctl.getLsbD 29 = true → f.mask.getLsbD (ctl.extractLsb' 24 5).toNat = true) ∧
      (ctl.getLsbD 30 = true → ∃ r, f.rep = some r ∧ (r.n - r.left).toNat % 2 ^ 24 = ctl.toNat % 2 ^ 24)
    ∀ (s : State) (k i b : Nat) (rest : List Turn) (w : Wave) (fr : Frag) (tm : Team) (la : Launch),
      s.agenda = .issue k i :: rest → s.ready k i = true → ({ s with agenda := rest } : State).goes (k, i) = true →
      Tab.find k s.waves = some w → w.frags[i]? = some fr → fr.wait = .none → Tab.find w.team s.teams = some tm →
      s.launchOf w = some la → la.dbg.taken = true →
      fires la.dbg fr b → (∀ b', b' < b → ¬ fires la.dbg fr b') →
      ∃ t w', step s = .next t ∧ t = { s with agenda := rest, waves := t.waves, teams := t.teams } ∧
        (∀ j, j ≠ w.team → Tab.find j t.teams = Tab.find j s.teams) ∧
        Tab.find w.team t.teams = some { tm with halt := some ⟨0x10, b, k, i, none⟩, step := none } ∧
        (∀ j, j ≠ k → Tab.find j t.waves = Tab.find j s.waves) ∧ Tab.find k t.waves = some w' ∧ KeptButFrags w w' ∧
        OtherFrags w w' i ∧ w'.frags[i]? = some { fr with bpSkip := b :: fr.bpSkip }) ∧
  (
    let hits := fun (d : Debug) (a : Acc) (b : Nat) =>
      let ctl := Tab.getD 2 b d.wpCtl
      let at0 := (Tab.getD 0 b d.wpAddr).toNat
      b < 8 ∧ ctl.getLsbD 31 = true ∧ (ctl.getLsbD 29 = true ∧ a.rd = true ∨ ctl.getLsbD 30 = true ∧ a.wr = true) ∧
      ∃ x, at0 ≤ x ∧ x < at0 + 2 ^ (ctl.toNat % 16) ∧ a.ea.toNat ≤ x ∧ x < a.ea.toNat + a.n
    ∀ f, (Instr.ld f).wellFormed = true → ∀ (s : State) (k i : Nat) (w : Wave) (fr : Frag) (tm : Team) (la : Launch),
      Issues s k i w fr → Admits (insOf (.ld f)) w fr → Undisturbed (insOf (.ld f)) w → s.launchOf w = some la →
      la.dbg.taken = true → tm.halt = none → tm.step = none →
      let c := ctxOf (.ld f) k i w fr
      let n := 2 ^ (f.t.toNat % 4)
      let as := (if f.u then c.lanes.take 1 else c.lanes).map fun l => (⟨l, c.ea l, n, n, true, false⟩ : Acc)
      CanAccess s c tm as →
        ∃ t tm' w' fr', exec (.ld f) s = .next t ∧ Tab.find w.team t.teams = some tm' ∧ Tab.find k t.waves = some w' ∧
          w'.frags[i]? = some fr' ∧ GoesOn fr fr' c.ins.len ∧
          ((∃ a ∈ as, ∃ b, hits la.dbg a b) → ∃ a ∈ as, ∃ b, hits la.dbg a b ∧ tm'.halt = some ⟨0x11, b, k, i, none⟩) ∧
          ((∀ a ∈ as, ∀ b, ¬ hits la.dbg a b) → tm'.halt = none)) ∧
  ∀ (s : State) (k r l : Nat) (v : Word) (w : Wave) (la : Launch), Tab.find k s.waves = some w → s.launchOf w = some la →
    la.dbg.taken = true → l < 32 → r < 64 ∨ (r < 128 ∧ w.ext = true) →
    ∃ t w', exec (.leythRegisterWrite k r l v) s = .next t ∧ t = { s with waves := t.waves } ∧
      (∀ j, j ≠ k → Tab.find j t.waves = Tab.find j s.waves) ∧ Tab.find k t.waves = some w' ∧
      w' = { w with regs := w'.regs, binds := w'.binds } ∧
      (∀ q m, q < 128 → m < 32 → w'.reg q m = if q = r ∧ m = l then v else w.reg q m) ∧
      ∀ b, w'.bind b = if bindHasReg (w.bind b) r w.landing.mode then w.bind b ||| 0x80000000#32 else w.bind b

/-! ### Launches, handlers and engines -/

/-- R306, R307: LAUNCH, one acting lane after another, releases at .device and enters the child its record describes in the
partition's device-launch pool, whose launch.id goes to vD; a lane that finds no entry waits, with its number as the LAUNCH
progress, from which the LAUNCH goes on; a LAUNCH waits too while one of the partition that issued before it waits, and one
that a halt has stopped takes its place anew when it issues again (log entry 102). CUTQ writes the summary word that IMM18
selects, as it stands at the issue (log entry 22). The order of launch.id values is the model's (log entry 10). -/
def Obligations.LaunchesFromWaves : Prop :=
  let acting := fun (c : Ctx) => if c.f.u then c.lanes.take 1 else c.lanes
  let child := fun (c : Ctx) (s : State) (l : Nat) =>
    let v := fun j => (c.w.reg (c.f.a.toNat + j) l).toNat
    let work := if v 7 / 65536 = 0 then Work.launch (v 0 + 2 ^ 32 * v 1) (v 2) (v 3) (v 4) else .bad
    { Launch.fresh (s.partOf c.w) (Config.launchBase + BitVec.ofNat 32 s.nextLaunch) none s.nextLaunch work with
      sig := v 5 + 2 ^ 32 * v 6, acq := v 7 % 256, rel := v 7 / 256 % 256 }
  let entered := fun (c : Ctx) (s : State) (l : Nat) =>
    let s := c.release 4 s
    { s with launches := Tab.put s.nextLaunch (child c s l) s.launches, nextLaunch := s.nextLaunch + 1 }
  let idOf := fun (s : State) (n : Nat) => Config.launchBase + BitVec.ofNat 32 (s.nextLaunch + n)
  let earlier := fun (s : State) (c : Ctx) (n : Nat) => ∃ e ∈ s.waves, s.partOf e.2 = s.partOf c.w ∧ e.2.spilt = false ∧
    ∃ i g, e.2.frags[i]? = some g ∧ s.letsFrag e.2 i = true ∧ g.launchLane.isSome = true ∧ g.wait = .retry ∧ g.ticket < n
  let tickets := fun (s : State) (c : Ctx) => (s.part (s.partOf c.w)).tickets
  let place := fun (s : State) (c : Ctx) => if c.fr.wait = .retry then c.fr.ticket else tickets s c
  let ticketed := fun (s : State) (c : Ctx) => s.setPart (s.partOf c.w) fun p => { p with tickets := p.tickets + 1 }
  let room := fun (s : State) (c : Ctx) (ls : List Nat) => s.affected (s.partOf c.w) = false ∧
    ls.length ≤ s.poolFree 6 (s.partOf c.w) s.childrenOf ∧ (∀ n, s.nextLaunch ≤ n → Tab.find n s.launches = none) ∧
    ∀ tm, s.teamOf c.w = some tm → tm.launch < s.nextLaunch
  let free := fun (s : State) (c : Ctx) => s.poolFree 6 (s.partOf c.w) s.childrenOf
  let left := fun (c : Ctx) => (acting c).filter fun l => c.fr.launchLane.getD 0 ≤ l
  let waits := fun (n : Nat) (c : Ctx) (w' : Wave) => Stands .retry c w' ∧ ∃ fr', w'.frags[c.i]? = some fr' ∧
    fr'.launchLane = (left c).head? ∧ fr'.ticket = n
  (∀ f, CompletesVia (fun s c => (acting c).foldl (entered c) s) Team.unstepped (.launch f)
    (fun s c => c.fr.launchLane = none ∧ ¬ earlier s c (tickets s c) ∧ room s c (acting c))
    fun s _ c w' => Wrote (fun c l => [(c.f.d.toNat, idOf s ((acting c).idxOf (c.src l)))]) c w') ∧
  (∀ f, CompletesVia (fun s c => (left c).foldl (entered c) s) Team.unstepped (.launch f)
    (fun s c => c.fr.launchLane.isSome = true ∧ ¬ earlier s c (place s c) ∧ room s c (left c))
    fun s _ c w' => Wrote (fun c l =>
      if c.src l ∈ left c then [(c.f.d.toNat, idOf s ((left c).idxOf (c.src l)))] else []) c w') ∧
  (∀ f, CompletesVia (fun s c => ticketed (c.release 4 s) c) Team.unstepped (.launch f)
    (fun s c => c.fr.launchLane = none ∧ c.lanes ≠ [] ∧ ¬ earlier s c (tickets s c) ∧
      (s.affected (s.partOf c.w) = true ∨ free s c = 0))
    fun s _ c w' => waits (tickets s c) c w') ∧
  (∀ f, CompletesVia (fun s c => ticketed (c.release 4 (((acting c).take (free s c)).foldl (entered c) s)) c)
      Team.unstepped (.launch f)
    (fun s c => c.fr.launchLane = none ∧ ¬ earlier s c (tickets s c) ∧ free s c < (acting c).length ∧
      room s c ((acting c).take (free s c)))
    fun s _ c w' => (∃ fr', w'.frags[c.i]? = some fr' ∧ fr'.wait = .retry ∧ fr'.pc = c.fr.pc ∧ fr'.ticket = tickets s c ∧
        fr'.launchLane = (acting c)[free s c]?) ∧
      RegsAre w' fun r l => if r = c.f.d.toNat ∧ l ∈ (acting c).take (free s c) then idOf s ((acting c).idxOf l) else c.w.reg r l) ∧
  (∀ f, CompletesVia ticketed Team.unstepped (.launch f)
    (fun s c => c.fr.launchLane = none ∧ c.lanes ≠ [] ∧ earlier s c (tickets s c))
    fun s _ c w' => waits (tickets s c) c w') ∧
  (∀ f, CompletesUpTo Team.unstepped (.launch f)
    (fun s c => c.fr.launchLane.isSome = true ∧ c.fr.wait = .retry ∧ left c ≠ [] ∧ earlier s c c.fr.ticket)
    fun _ _ c w' => waits c.fr.ticket c w') ∧
  (∀ f, CompletesVia ticketed Team.unstepped (.launch f)
    (fun s c => c.fr.launchLane.isSome = true ∧ c.fr.wait ≠ .retry ∧ left c ≠ [] ∧ earlier s c (tickets s c))
    fun s _ c w' => waits (tickets s c) c w') ∧
  ∀ f, Completes (.cutq f) (fun s c => (s.launchOf c.w).isSome = true) fun s _ c w' => ∀ la, s.launchOf c.w = some la →
    Wrote (fun c _ => [(c.f.d.toNat, BitVec.ofNat 32 (
      match f.imm.toNat, la.cut with
      | 0, some x => (x.shape.1 - 1) + 2 ^ 9 * (x.shape.2.1 - 1) + 2 ^ 18 * (x.shape.2.2 - 1) + 2 ^ 27 * x.order
      | 1, _ => la.recuts | 2, _ => la.dispatched | 3, _ => la.retired | 4, _ => la.fw
      | 5, some x => la.lastCase + 256 * x.regions.length
      | _, _ => 0))]) c w'

/-- R319 to R322: TLPOP gives each acting lane, in ascending order, the next tile that can be delivered, whose expert is
ready or has failed, and END lanes once every tile is delivered; it waits where a tile is still to become ready or the
slot holds no job; a slot above 15, or a job that excludes its die, answers END with FAIL. TLDONE releases at .device
and retires a delivered tile, answering 0, or 2 for the job's last, which brings the job to stage 5: it keeps its slot until it
completes, and TLPOP answers END from it (R314, R321); anything else answers 1. -/
def Obligations.TilesPoppedAndRetired : Prop :=
  let acting := fun (c : Ctx) => if c.f.u then c.lanes.take 1 else c.lanes
  let low := fun (c : Ctx) (r : BitVec 7) => c.w.reg r.toNat (c.lanes.headD 0)
  let slot := fun (s : State) (c : Ctx) => 16 * s.partOf c.w + (low c c.f.a).toNat
  let open' := fun (j : Job) (n : Nat) => ∃ x e, j.tiles[n]? = some x ∧ x.team = none ∧ x.retired = false ∧
    Tab.find x.expert j.experts = some e ∧ (e.ready = true ∨ e.failed = true)
  let desc := fun (job : Word) (j : Job) (n : Nat) (i : Nat) => match j.tiles[n]? with
    | none => (0 : Word)
    | some x =>
      let e := Tab.getD ⟨0, 0, false, false⟩ x.expert j.experts
      let flags := (if e.failed then 2 else 0) + (if x.valid < 8 * 2 ^ x.mh then 4 else 0)
      match i with
      | 0 => job | 1 => BitVec.ofNat 32 x.recIx | 2 => BitVec.ofNat 32 (flags + 256 * x.mh + 65536 * x.valid)
      | 3 => BitVec.ofNat 32 x.off | 4 => BitVec.ofNat 32 x.expert | 5 => BitVec.ofNat 32 n
      | 6 => e.waddr.setWidth 32 | _ => (e.waddr >>> 32).setWidth 32
  let ended := fun (job : Word) (fail : Bool) (i : Nat) =>
    if i = 0 then job else if i = 2 then (if fail then 3 else 1) else (0 : Word)
  let popped := fun (ws : Ctx → Nat → Nat → Word) (c : Ctx) (w' : Wave) =>
    w' = { c.w with regs := w'.regs, binds := w'.binds, frags := w'.frags, parked := w'.parked, evictable := w'.evictable,
                    outstanding := c.w.outstanding + 1 } ∧
    (∀ n, n ≠ c.i → w'.frags[n]? = c.w.frags[n]?) ∧ (∃ fr', w'.frags[c.i]? = some fr' ∧ GoesOn c.fr fr' c.ins.len) ∧
    RegsAre w' fun r l => if l ∈ c.lanes ∧ c.f.d.toNat ≤ r ∧ r < c.f.d.toNat + 8 then ws c l (r - c.f.d.toNat) else c.w.reg r l
  let waits := fun (c : Ctx) (w' : Wave) => KeptButFrags c.w w' ∧ OtherFrags c.w w' c.i ∧ ∃ fr', w'.frags[c.i]? = some fr' ∧
    fr'.wait = .retry ∧ fr'.pc = c.fr.pc
  let mine := fun (s : State) (c : Ctx) (j : Job) => c.lanes ≠ [] ∧ (low c c.f.a).toNat < 16 ∧
    Tab.find (slot s c) s.jobs = some j
  let admits := fun (s : State) (c : Ctx) (j : Job) =>
    j.dies = 0 ∨ j.dies.testBit (s.dieNum (s.partOf c.w) (clusterOf (coreOf c.k) / 16)) = true
  let took := fun (j : Job) (c : Ctx) => j.offerable.take (acting c).length
  let delivered := fun (j : Job) (c : Ctx) =>
    { j with tiles := j.tiles.mapIdx fun n x => if n ∈ took j c then { x with team := some c.w.team } else x }
  let released := fun (s : State) (c : Ctx) => c.release 4 s
  let retire := fun (c : Ctx) (j : Job) =>
    { j with tiles := j.tiles.modify (low c c.f.b).toNat fun x => { x with retired := true } }
  let answers := fun (v : Word) (c : Ctx) (w' : Wave) => Wrote (fun c _ => [(c.f.d.toNat, v)]) c w'
  (∀ (j : Job), j.offerable.Pairwise (· < ·) ∧ ∀ n, n ∈ j.offerable ↔ open' j n) ∧
  (∀ f, Completes (.tlpop f)
    (fun s c => c.lanes ≠ [] ∧ (16 ≤ (low c c.f.a).toNat ∨ ∃ j, mine s c j ∧ ¬ admits s c j))
    fun _ _ c w' => popped (fun c _ => ended (low c c.f.a) true) c w') ∧
  (∀ f, Completes (.tlpop f) (fun s c => c.lanes ≠ [] ∧ (low c c.f.a).toNat < 16 ∧ Tab.find (slot s c) s.jobs = none)
    fun _ _ c w' => waits c w') ∧
  (∀ f (j : Job), Completes (.tlpop f)
    (fun s c => mine s c j ∧ admits s c j ∧ j.offerable.length < (acting c).length ∧ j.offerable.length < j.undelivered)
    fun _ _ c w' => waits c w') ∧
  (∀ f (j : Job), CompletesVia (fun s c => { s with jobs := Tab.put (slot s c) (delivered j c) s.jobs })
      Team.unstepped (.tlpop f)
    (fun s c => mine s c j ∧ admits s c j ∧
      ((acting c).length ≤ j.offerable.length ∨ j.undelivered ≤ j.offerable.length))
    fun _ _ c w' => popped (fun c l i => match (took j c)[(acting c).idxOf (c.src l)]? with
      | some n => desc (low c c.f.a) j n i
      | none => ended (low c c.f.a) false i) c w') ∧
  (∀ f (j : Job) (x : Tile), CompletesVia (fun s c => { released s c with jobs := Tab.upd (slot s c) (retire c) s.jobs })
      Team.unstepped (.tldone f)
    (fun s c => mine s c j ∧ j.tiles[(low c c.f.b).toNat]? = some x ∧ x.team.isSome = true ∧ x.retired = false ∧
      ∃ n y, n ≠ (low c c.f.b).toNat ∧ j.tiles[n]? = some y ∧ y.retired = false)
    fun _ _ c w' => answers 0 c w') ∧
  (∀ f (j : Job) (x : Tile), CompletesVia (fun s c =>
      { (released s c).setLaunch j.launch (fun l => { l with
          stage := 5, error := if l.peerLost = true ∧ l.error = none then some (0x22, 0x22) else l.error }) with
        jobs := Tab.upd (slot s c) (retire c) s.jobs })
      Team.unstepped (.tldone f)
    (fun s c => mine s c j ∧ j.tiles[(low c c.f.b).toNat]? = some x ∧ x.team.isSome = true ∧ x.retired = false ∧
      ∀ n y, n ≠ (low c c.f.b).toNat → j.tiles[n]? = some y → y.retired = true)
    fun _ _ c w' => answers 2 c w') ∧
  (∀ f (j : Job), CompletesVia (fun s c => { s with jobs := Tab.put (slot s c) j s.jobs }) Team.unstepped (.tlpop f)
    (fun s c => mine s c j ∧ admits s c j ∧ ∀ x ∈ j.tiles, x.team.isSome = true ∨ x.retired = true)
    fun _ _ c w' => popped (fun c _ => ended (low c c.f.a) false) c w') ∧
  ∀ f, CompletesVia released Team.unstepped (.tldone f)
    (fun s c => c.lanes ≠ [] ∧ ∀ j x, mine s c j → j.tiles[(low c c.f.b).toNat]? = some x → x.team = none ∨ x.retired = true)
    fun _ _ c w' => answers 1 c w'

/-- R12, R290 to R301, R304, R13, R306, R367: the life of a launch. A descriptor's fields stand where R290 lays them out; it
is good exactly where R291 finds nothing, a space exactly where R292 and R304 do, and the allowed shapes are R293's.
Acceptance of a launch or a child reads its descriptor and begins the first cut over the whole space, with the shape of most
items (R296), or ends it with BAD_DESCRIPTOR; a field of a child's record or an address of a packet that fails its check ends
it at stage 5. R297's classes and boundaries of minority maps decide the case of a window, and R300's table the next shape and
order: aligned to the boundaries for a column or a row window, by the 65,536 bytes of the footprint, the cycles and the L2
bytes otherwise, with its ties. While no window waits for its evaluation a core pops the head group of its die's run, and its
team takes its slots, every wave at the entry with the lanes of its items; a co-resident launch is placed whole, or ends with
NO_FIT; a team with no wave and no command left retires and enters the game record; a full window is evaluated, and a new
choice cuts the remainder anew. That team.id goes on behind the groups dispatched is log entry 48, and that a window with more
than 16 boxes left still records Fw and moves on is log entry 50. At completion, of a launch, a child, a job, a copy or
another packet alike, the status record is written, the release of its scope performed in every cluster of the partition (log
entry 51), and the completion signal falls by 1 or turns negative; the launch is in flight no more, its job's slot and its
banks are free, and its game record stays. -/
def Obligations.LaunchLifecycle : Prop :=
  let others := fun (s t : State) (l : Nat) => ∀ j, j ≠ l → Tab.find j t.launches = Tab.find j s.launches
  let sane := fun (s : State) (la : Launch) (a : Nat) (rd : Bool) =>
    a = 0 ∨ (a % 8 = 0 ∧ s.usable la.part (addr a) rd true = true)
  let stands := fun (s : State) (l : Nat) (la : Launch) => Tab.find l s.launches = some la ∧ la.stage = 2 ∧
    s.affected la.part = false ∧ (s.part la.part).faulting = false
  let fits := fun (e : Desc) (x : Shape) => x.1 ∈ e.xs ∧ x.2.1 ∈ e.ys ∧ x.2.2 ∈ e.zs ∧ e.lo ≤ items x ∧ items x ≤ e.hi ∧
    e.fixed + e.perItem * items x ≤ 1048576 ∧ ∀ qs, e.quotas = some qs →
      ∀ q, q < 4 → (items x + 31) / 32 * qs.getD q 0 ≤ [256, 256, 32, 64].getD q 0
  let aligned := fun (y : Bool) (rem : List Region) (gs : List GroupRec) (n : Nat) => ∀ q ∈ rem, ∀ g ∈ gs, ∀ b ∈ g.bounds y,
    (if y then q.oy else q.ox) < b → b < (if y then q.oy + q.qy else q.ox + q.qx) → (b - if y then q.oy else q.ox) % n = 0
  let greatest := fun (e : Desc) (ok : Shape → Prop) (key : Shape → List Nat) (x : Shape) =>
    x ∈ e.shapes ∧ ok x ∧ ∀ t ∈ e.shapes, ok t → ¬ key x < key t
  let mixed := fun (y : Bool) (gs : List GroupRec) => (∃ g ∈ gs, g.cls ≠ .clean) ∧
    ∀ g ∈ gs, g.cls = .clean ∨ g.cls = if y then .row else .column
  let mean := fun (f : GroupRec → Nat) (gs : List GroupRec) => (gs.map f).sum / (gs.map fun g => items g.shape).sum
  let foot := fun (gs : List GroupRec) => mean (fun g => g.foot * items g.shape) gs
  (∀ d : Nat,
    let b := fun (lo n : Nat) => d / 2 ^ (8 * lo) % 2 ^ (8 * n)
    let sizes := fun (lo n : Nat) => (List.range (min n 8)).map fun i => b (lo + 2 * i) 2
    let e := descOf d
    (e.entry = BitVec.ofNat 64 (b 0 8) ∧ e.trapVec = BitVec.ofNat 64 (b 8 8) ∧ e.fixed = b 16 4 ∧ e.perItem = b 20 4 ∧
      e.dcut = (b 24 1).testBit 0 ∧ e.cores = (b 24 1).testBit 1 ∧ e.mxuse = (b 24 1).testBit 2 ∧ e.order = b 24 1 / 16 % 4 ∧
      e.quotas = (if (b 24 1).testBit 3 then some [b 28 1, b 29 1, b 30 1, b 31 1] else none) ∧ e.window = b 25 1 ∧
      e.lo = b 32 2 ∧ e.hi = b 34 2 ∧ e.xs = sizes 40 (b 36 1) ∧ e.ys = sizes 56 (b 37 1) ∧ e.zs = sizes 72 (b 38 1) ∧
      (e.pin = true ↔ b 39 1 = 1)) ∧
    (descOk d = true ↔ b 88 40 = 0 ∧ b 39 1 < 2 ∧ b 26 2 = 0 ∧ b 24 1 < 64 ∧ b 0 8 % 4 = 0 ∧ e.order ≠ 3 ∧
      1 ≤ e.window ∧ e.window ≤ 64 ∧
      (∀ a ∈ [(36, 40), (37, 56), (38, 72)], 1 ≤ b a.1 1 ∧ b a.1 1 ≤ 8 ∧ ∀ i, i < 8 →
        (i < b a.1 1 → 1 ≤ b (a.2 + 2 * i) 2 ∧ b (a.2 + 2 * i) 2 ≤ 512) ∧ (b a.1 1 ≤ i → b (a.2 + 2 * i) 2 = 0)) ∧
      1 ≤ e.lo ∧ e.lo ≤ e.hi ∧ e.hi ≤ 512 ∧ e.fixed % 16 = 0 ∧ e.fixed ≤ 1048576 ∧ e.perItem % 16 = 0 ∧ e.perItem ≤ 65536 ∧
      (∀ q, q < 4 → b (28 + q) 1 ≤ if (b 24 1).testBit 3 then [64, 64, 32, 16].getD q 0 else 0) ∧
      (e.pin = true → b 36 1 = 1 ∧ b 37 1 = 1 ∧ b 38 1 = 1) ∧ (e.cores = true → e.pin = true) ∧ ∃ x, x ∈ e.shapes)) ∧
  (∀ (e : Desc) (x : Shape), x ∈ e.shapes ↔ fits e x) ∧
  (∀ (e : Desc) (x : Shape), spaceOk e x = true ↔ items x ≤ 2 ^ 40 ∧ (e.cores = true →
    x.1 % e.xs.headD 1 = 0 ∧ x.2.1 % e.ys.headD 1 = 0 ∧ x.2.2 % e.zs.headD 1 = 0)) ∧
  (∀ g : GroupRec,
    let ins := fun (x y z : Nat) => x < g.shape.1 ∧ y < g.shape.2.1 ∧ z < g.shape.2.2
    let varies := ∃ x y z x' y' z', ins x y z ∧ ins x' y' z' ∧ g.bit x y z ≠ g.bit x' y' z'
    (g.cls = .clean ↔ ∀ x y z, ins x y z → g.bit x y z = false) ∧
    (g.cls = .column ↔ varies ∧ ∀ x y z, ins x y z → g.bit x y z = g.bit x 0 0) ∧
    (g.cls = .row ↔ varies ∧ ∀ x y z, ins x y z → g.bit x y z = g.bit 0 y 0) ∧
    (∀ b, b ∈ g.bounds false ↔ ∃ p, 1 ≤ p ∧ p < g.shape.1 ∧ b = g.origin.1 + p ∧ g.bit p 0 0 ≠ g.bit (p - 1) 0 0) ∧
    ∀ b, b ∈ g.bounds true ↔ ∃ p, 1 ≤ p ∧ p < g.shape.2.1 ∧ b = g.origin.2.1 + p ∧ g.bit 0 p 0 ≠ g.bit 0 (p - 1) 0) ∧
  (∀ (e : Desc) (rem : List Region) (gs : List GroupRec) (s : Shape) (o : Nat),
    let x := chooseNext e rem gs s o
    let at' := fun (y : Bool) (t : Shape) => if y then t.2.1 else t.1
    let most := fun (ok : Shape → Prop) => greatest e ok fun t => [items t, t.1, t.2.1]
    let uneven := ∃ a ∈ gs, ∃ b ∈ gs, 2 * (b.cycles * items a.shape) < a.cycles * items b.shape
    (∀ y, mixed y gs →
      ((∀ t ∈ e.shapes, ¬ aligned y rem gs (at' y t)) → x = (s, o)) ∧
      ((∃ t ∈ e.shapes, aligned y rem gs (at' y t)) → x.2 = (if y then 0 else 1) ∧
        greatest e (fun t => aligned y rem gs (at' y t)) (fun t => [at' y t, items t, at' (!y) t]) x.1)) ∧
    (¬ mixed false gs → ¬ mixed true gs →
      (65536 < foot gs * items s → x.2 = o ∧
        ((∃ t ∈ e.shapes, foot gs * items t ≤ 65536) → most (fun t => foot gs * items t ≤ 65536) x.1) ∧
        ((∀ t ∈ e.shapes, 65536 < foot gs * items t) → e.shapes ≠ [] →
          most (fun t => ∀ u ∈ e.shapes, items t ≤ items u) x.1)) ∧
      (foot gs * items s ≤ 65536 →
        (e.dcut = true → x = (s, o)) ∧
        (e.dcut = false → uneven → x.2 = o ∧
          ((∃ t ∈ e.shapes, 2 * items t ≤ items s) → most (fun t => 2 * items t ≤ items s) x.1) ∧
          ((∀ t ∈ e.shapes, items s < 2 * items t) → x.1 = s)) ∧
        (e.dcut = false → ¬ uneven → x = (s, if 2 * foot gs < mean (·.l2) gs then 2 else o))))) ∧
  (∀ (s : State) (l d ex ey ez : Nat) (la : Launch), stands s l la → la.work = .launch d ex ey ez → sane s la la.sig true →
    (la.queue = none ∧ la.acq ≤ 5 ∧ la.rel ≤ 5 ∧ s.feature 8 = true) ∨ (la.queue.isSome = true ∧ sane s la la.staddr false) →
    d % 128 = 0 → s.usable la.part (addr d) true false = true → s.packetBreaks la.part (addr d) true = false →
    let r := s.packetRead la.part (addr d) 128
    let e := descOf r.1
    let la := { la with sigOk := decide (la.sig ≠ 0), staOk := if la.queue.isSome then decide (la.staddr ≠ 0) else la.staOk }
    ∃ t, exec (.launchAcceptance l) s = .next t ∧ others s t l ∧ t = { r.2 with launches := t.launches } ∧
      (descOk r.1 = true → spaceOk e (ex, ey, ez) = true → ex * ey * ez ≠ 0 →
        ∃ c, Tab.find l t.launches = some { la with desc := e, space := (ex, ey, ez), stage := 3, cut := some c } ∧
          c.regions = [⟨0, 0, 0, ex, ey, ez⟩] ∧ c.order = e.order ∧ c.base = 0 ∧ c.sent = 0 ∧ c.finished = [] ∧
          c.windowAt = 0 ∧ c.closed = false ∧ c.shape ∈ e.shapes ∧
          (∀ x ∈ e.shapes, items x ≤ items c.shape ∧ (items x = items c.shape →
            x.1 < c.shape.1 ∨ x.1 = c.shape.1 ∧ x.2.1 ≤ c.shape.2.1)) ∧
          (e.cores = false → ∀ i, i < (s.partDies la.part).length → Tab.find i c.runs =
            some (let n := (c.groups + (s.partDies la.part).length - 1) / (s.partDies la.part).length
              (min c.groups (i * n), min c.groups ((i + 1) * n))))) ∧
      (descOk r.1 = true → spaceOk e (ex, ey, ez) = true → ex * ey * ez = 0 →
        Tab.find l t.launches = some { la with desc := e, space := (ex, ey, ez), stage := 5, cut := none }) ∧
      (descOk r.1 = false ∨ spaceOk e (ex, ey, ez) = false → la.error = none →
        Tab.find l t.launches = some { la with stage := 5, error := some (0x30, 0) })) ∧
  (∀ (s : State) (l d ex ey ez : Nat) (la : Launch), stands s l la → la.work = .launch d ex ey ez → sane s la la.sig true →
    (la.queue = none ∧ la.acq ≤ 5 ∧ la.rel ≤ 5 ∧ s.feature 8 = true) ∨ (la.queue.isSome = true ∧ sane s la la.staddr false) →
    d % 128 ≠ 0 ∨ s.usable la.part (addr d) true false = false → la.error = none →
    ∃ t, exec (.launchAcceptance l) s = .next t ∧ others s t l ∧ t = { s with launches := t.launches } ∧
      Tab.find l t.launches = some { la with
        stage := 5, error := some (0x30, 0), sigOk := decide (la.sig ≠ 0)
        staOk := if la.queue.isSome then decide (la.staddr ≠ 0) else la.staOk }) ∧
  (∀ (s : State) (l : Nat) (la : Launch), stands s l la → la.error = none →
    let failed := fun (st : Nat) (sta : Bool) => ∃ t, exec (.launchAcceptance l) s = .next t ∧ others s t l ∧
      t = { s with launches := t.launches } ∧ Tab.find l t.launches =
        some { la with stage := 5, error := some (st, 0), staOk := sta,
                       sigOk := decide (la.sig ≠ 0) && la.sig % 8 == 0 && s.usable la.part (addr la.sig) true true }
    (la.queue = none → la.work = .bad ∨ 5 < la.acq ∨ 5 < la.rel ∨ ¬ sane s la la.sig true ∨ s.feature 8 = false →
      failed 0x30 la.staOk) ∧
    ((∃ d ex ey ez, la.work = .launch d ex ey ez) → la.queue.isSome = true →
      ¬ sane s la la.sig true ∨ ¬ sane s la la.staddr false →
      failed 0x35 (decide (la.staddr ≠ 0) && la.staddr % 8 == 0 && s.usable la.part (addr la.staddr) false true))) ∧
  (∀ (s : State) (l die core pos last : Nat) (la : Launch) (c : Cut) (g : Shape × Shape) (pl : Plan),
    Tab.find l s.launches = some la → la.cut = some c → la.stage = 3 → la.stopped = false → la.parked = false →
    la.desc.cores = false → s.takes la.part core = true →
    s.dieNum la.part (clusterOf core / 16) = die → Tab.find die c.runs = some (pos, last) → pos < last →
    pos < c.limit la.desc → c.ripe la.desc = none → groupAt c.shape c.order c.regions pos = some g →
    s.plan la core (items g.2) = some pl →
    ∃ t tm, exec (.teamDispatch l die core) s = .next t ∧ t.nextTeam = s.nextTeam + 1 ∧
      Tab.find s.nextTeam t.teams = some tm ∧ tm.launch = l ∧ tm.num = c.base + pos ∧ tm.core = core ∧ tm.origin = g.1 ∧
      tm.place = (s.coreNum la.part core, s.clusterNum la.part (clusterOf core), s.dieNum la.part (clusterOf core / 16)) ∧
      tm.shape = g.2 ∧ tm.scratch = [] ∧ tm.waves.length = (items g.2 + 31) / 32 ∧
      (∃ la', Tab.find l t.launches = some la' ∧ la'.dispatched = la.dispatched + 1 ∧
        (la'.cut.map fun c => Tab.find die c.runs) = some (some (pos + 1, last))) ∧
      ∀ n k, tm.waves[n]? = some k → pl.slots[n]? = some (slotOf k) ∧ ∃ w f, Tab.find k t.waves = some w ∧
        w.team = s.nextTeam ∧ w.num = n ∧ w.frags = [f] ∧ f.pc = la.desc.entry ∧ f.wait = .none ∧ w.live = f.mask ∧
        (∀ i, i < 32 → (f.mask.getLsbD i = true ↔ 32 * n + i < items g.2)) ∧ w.regs = [] ∧ w.mode = 0 ∧ w.ext = false) ∧
  (∀ (s : State) (l : Nat) (cores : List Nat) (la : Launch) (c : Cut), Tab.find l s.launches = some la → la.cut = some c →
    la.stage = 3 → la.stopped = false → la.parked = false → la.desc.cores = true → la.dispatched = 0 →
    (s.capacity la.part (items c.shape) la.desc < c.groups → la.error = none →
      ∃ t, exec (.coresidentPlacement l cores) s = .next t ∧ others s t l ∧ t = { s with launches := t.launches } ∧
        Tab.find l t.launches = some { la with stage := 5, error := some (0x31, 0) }) ∧
    (c.groups ≤ s.capacity la.part (items c.shape) la.desc → cores.length = c.groups →
      ∀ u, State.placeAll l la c cores.zipIdx s = some u →
        exec (.coresidentPlacement l cores) s = .next (u.settleLaunch l) ∧
        u.nextTeam = s.nextTeam + c.groups ∧ (Tab.find l u.launches).map Launch.dispatched = some c.groups ∧
        ∀ n, n < c.groups → ∃ tm, Tab.find (s.nextTeam + n) u.teams = some tm ∧ tm.num = c.base + n ∧
          some tm.core = cores[n]? ∧ groupAt c.shape c.order c.regions n = some (tm.origin, tm.shape))) ∧
  (∀ (s : State) (n : Nat) (tm : Team) (la : Launch), Tab.find n s.teams = some tm → Tab.find tm.launch s.launches = some la →
    (tm.dead = true ∨ ∀ e ∈ s.waves, e.2.team ≠ n) →
    (∀ q, q < 4 → ∀ e ∈ s.entriesOf tm.core q, e.2 ≠ n) →
    ∃ t, exec (.teamRetire n) s = .next t ∧ Tab.find n t.teams = none ∧
      (∀ j, j ≠ n → Tab.find j t.teams = Tab.find j s.teams) ∧ (∀ e ∈ t.waves, e.2.team ≠ n) ∧
      (∀ e ∈ s.waves, e.2.team ≠ n → e ∈ t.waves) ∧ (t.core tm.core).mx.holder ≠ some n ∧
      ∃ la', Tab.find tm.launch t.launches = some la' ∧ la'.retired = la.retired + 1 ∧ ∃ g, la'.games = la.games ++ [g] ∧
        g.num = tm.num ∧ g.origin = tm.origin ∧ g.shape = tm.shape ∧ g.minority = tm.minority) ∧
  (∀ (s : State) (l : Nat) (la : Launch) (c : Cut) (gs rest : List GroupRec), Tab.find l s.launches = some la →
    la.cut = some c → la.stage = 3 ∨ la.stage = 4 → la.stopped = false → c.ripe la.desc = some (gs, rest) →
    ∃ t la', exec (.windowEvaluation l) s = .next t ∧ others s t l ∧ t = { s with launches := t.launches } ∧
      Tab.find l t.launches = some la' ∧
      la' = { la with fw := la'.fw, lastCase := la'.lastCase, cut := la'.cut, recuts := la'.recuts } ∧
      la'.fw = foot gs ∧
      let go := { c with finished := rest, windowAt := c.windowAt + la.desc.window }
      let next := chooseNext la.desc c.remainder gs c.shape c.order
      (16 < c.remainder.length → la'.lastCase = 5 ∧ la'.cut = some go ∧ la'.recuts = la.recuts) ∧
      (c.remainder.length ≤ 16 → (la'.lastCase = 1 ↔ ∀ g ∈ gs, g.cls = .clean) ∧ (la'.lastCase = 2 ↔ mixed false gs) ∧
        (la'.lastCase = 3 ↔ mixed true gs) ∧ 1 ≤ la'.lastCase ∧ la'.lastCase ≤ 4) ∧
      (c.remainder = [] → la'.cut = some { go with closed := true } ∧ la'.recuts = la.recuts) ∧
      (c.remainder ≠ [] → c.remainder.length ≤ 16 → next = (c.shape, c.order) →
        la'.cut = some go ∧ la'.recuts = la.recuts) ∧
      (c.remainder ≠ [] → c.remainder.length ≤ 16 → next ≠ (c.shape, c.order) → la'.recuts = la.recuts + 1 ∧
        ∃ c', la'.cut = some c' ∧ c'.regions = c.remainder ∧ (c'.shape, c'.order) = next ∧ c'.base = c.base + c.sent ∧
          c'.finished = [] ∧ c'.sent = 0)) ∧
  (∀ (s : State) (l : Nat) (la : Launch), Tab.find l s.launches = some la → la.stage = 5 → la.peerOut = 0 →
    (∀ x ∈ s.clusters, x.2.dirty = []) → (∀ x ∈ s.teams, ∀ q ∈ x.2.pages, ∀ n, q.2.dirtyOf n = none) →
    let home := fun (a : Nat) => ((s.translate la.part a).map (·.2)).getD 0
    let open' := fun (a : Nat) (rd : Bool) => classify (addr a) = .global a ∧ s.packetBreaks la.part (addr a) rd = false ∧
      ∃ e pa, s.translate la.part a = some (e, pa) ∧ pa % 8 = 0 ∧ (rd = true → e.r = true) ∧ e.w = true
    (la.staOk = true → open' la.staddr false) → (la.sigOk = true → open' la.sig true) →
    (∀ a v, la.work = .signal a v → open' a true) →
    let put := fun (m : List Host.Cell) (a v : Nat) => memWrites m (home a) (leBytes 8 v)
    let get := fun (m : List Host.Cell) (a : Nat) => leNat (memReads m (home a) 8)
    let e := la.error.getD (0, 0)
    let m1 := if la.staOk then put s.mem la.staddr (e.1 + (if e.1 ≤ 0x22 then e.2.toNat else 0) * 2 ^ 32) else s.mem
    let m2 := match la.work with
      | .signal a v => if e.1 = 0 then put m1 a ((get m1 a + v.toNat) % 2 ^ 64) else m1
      | _ => m1
    let old := get m2 la.sig
    let m3 := if la.sigOk then put m2 la.sig (if e.1 = 0 then (if old = 0 then 2 ^ 64 - 1 else old - 1)
      else if old < 2 ^ 63 then 2 ^ 64 - 1 else old) else m2
    let given := fun (b b' : Bank) => (b.owner ≠ some la.id → b' = b) ∧
      (b.owner = some la.id → b'.owner = none ∧ b'.slope = [] ∧ b'.icept = [])
    ∃ t, exec (.launchCompletion l) s = .next t ∧ Tab.find l t.launches = none ∧ others s t l ∧
      Tab.find l t.past = some { la with stage := 6 } ∧ (∀ x, x ∈ t.jobs ↔ x ∈ s.jobs ∧ x.2.launch ≠ l) ∧
      (∀ c, given (s.core c).bank0 (t.core c).bank0 ∧ given (s.core c).bank1 (t.core c).bank1) ∧
      ∀ a, memRead t.mem a = memRead m3 a) ∧
  ∀ (s : State) (l : Nat) (la : Launch), Tab.find l s.launches = some la → la.stage = 5 → la.peerOut = 0 →
    (∀ a v, la.work ≠ .signal a v) → la.staOk = false → la.sigOk = false →
    ∃ t, exec (.launchCompletion l) s = .next t ∧ Tab.find l t.launches = none ∧
      t = { (s.partClusters la.part).foldl (fun s c => s.release c la.rel) s with
            launches := t.launches, past := t.past, jobs := t.jobs, cores := t.cores, loose := t.loose } ∧
      ∀ x, x ∈ t.loose ↔ x ∈ s.loose ∧ ∀ y ∈ x.writers, clusterOf (coreOf y.1) ∉ s.partClusters la.part

/-- R328 to R330, R336 to R345: an instruction of a handler with budget left takes at least one cycle and retires: AL.LDW
and AL.STW read and write 8 bytes of a line present in the handler's slice, and set alres[0] on another; AL.FETCH
requests a line into its home slice and AL.DROP makes a present one the next candidate; AL.ARG reads the trigger;
AL.SEND writes a word of the pushing team's window (into a stash-mapped line that cannot be owned it writes none and sets
alres[0]: the model's choice, log entry 58); AL.END frees the context, counts the run, and takes the action or
retries; a base instruction acts on the context and the data memory (log entry 6: RISC-V as its standard has it), and an
exception ends the invocation and counts a fault. The cycles it takes pass for the Alcove's other invocations, and one that
reaches its budget ends (R341). An access that a stop forbids, or that reads a present poisoned line, is a partition fault. -/
def Obligations.HandlerInstructions : Prop :=
  let runs := fun (s : State) (cl ctx : Nat) (h : HCtx) (budget : Nat) => Tab.find ctx (s.cluster cl).ctxs = some h ∧
    budget = ctlBudget (Tab.getD 0 h.trig.cls.num (s.cluster cl).control) ∧ h.alcyc + 2 ≤ budget
  let goes := fun (i : Instr) (s : State) (cl ctx : Nat) (h : HCtx) (budget : Nat) (base : State) (h' : HCtx) =>
    ∃ n, h.alcyc < n ∧ n < budget ∧ exec i s = .next (({ base.setCluster cl (fun c => { c with
        ctxs := Tab.put ctx { h' with alcyc := n, instret := h.instret + 1 } c.ctxs, issued := ctx }) with
      frees := base.frees + 1 } : State).passCycles cl ctx (n - h.alcyc))
  let ends := fun (i : Instr) (s : State) (cl ctx : Nat) (h : HCtx) (budget : Nat) (post : State → State → Nat → Prop) =>
    ∃ t n, exec i s = .next t ∧ h.alcyc < n ∧ n ≤ budget ∧ Tab.find ctx (t.cluster cl).ctxs = none ∧
      let u := ({ s with frees := s.frees + 1 } : State).passCycles cl ctx (n - h.alcyc)
      (∀ j, j ≠ ctx → Tab.find j (t.cluster cl).ctxs = Tab.find j (u.cluster cl).ctxs) ∧ post u t n
  let ea := fun (h : HCtx) (r : BitVec 5) (imm : BitVec 12) => h.x r + imm.signExtend 64
  let mapped := fun (s : State) (cl : Nat) (a : Dword) (wr : Bool) (pa : Nat) => ∃ va e, classify a = .global va ∧
    s.translate (s.ownerOf cl) va = some (e, pa) ∧ (if wr then e.w else e.r) = true
  let reaches := fun (s : State) (cl : Nat) (a : Dword) (wr : Bool) (pa : Nat) =>
    mapped s cl a wr pa ∧ s.ownsStop (s.ownerOf cl) pa = true
  let here := fun (s : State) (cl pa : Nat) => s.homeOf (s.ownerOf cl) (lineOf pa) = cl ∧
    ∃ x, Tab.find (lineOf pa) (s.cluster cl).slice = some x ∧ x.requested = false ∧ x.inBuffer = false
  let next := fun (h : HCtx) => { h with pc := h.pc + 4 }
  let counted := fun (s t : State) (cl : Nat) (h : HCtx) (n : Nat) (run fault drop : Word) =>
    let x := (s.cluster cl).counter h.trig.cls.num
    (t.cluster cl).counter h.trig.cls.num = { x with
      runs := x.runs + run, faults := x.faults + fault, drops := x.drops + drop, lastCyc := BitVec.ofNat 32 n,
      maxCyc := BitVec.ofNat 32 (max x.maxCyc.toNat n) }
  let breaks := fun (i : Instr) (s : State) (cl ctx : Nat) => ∃ t, exec i s = .next t ∧
    Tab.find ctx (t.cluster cl).ctxs = none ∧ (s.repart = none → (t.part (s.ownerOf cl)).faulting = true)
  (∀ (h : HCtx) (r q : BitVec 5) (v : Dword), (h.setX r v).x q = if q = r ∧ r ≠ 0 then v else h.x q) ∧
  (∀ (s : State) (cl ctx n : Nat), Tab.sorted (s.cluster cl).ctxs = true →
    let t := s.passCycles cl ctx n
    let left := fun (x : HCtx) => x.alcyc + n < ctlBudget (Tab.getD 0 x.trig.cls.num (s.cluster cl).control)
    (t.cluster cl).cycle = (s.cluster cl).cycle + BitVec.ofNat 64 n ∧
    Tab.find ctx (t.cluster cl).ctxs = Tab.find ctx (s.cluster cl).ctxs ∧
    (∀ j x, j ≠ ctx → Tab.find j (s.cluster cl).ctxs = some x →
      (left x → Tab.find j (t.cluster cl).ctxs = some { x with alcyc := x.alcyc + n }) ∧
      (¬ left x → Tab.find j (t.cluster cl).ctxs = none)) ∧
    ((∀ e ∈ (s.cluster cl).ctxs, e.1 ≠ ctx → left e.2) → t = { s with clusters := t.clusters } ∧
      (∀ c, c ≠ cl → t.cluster c = s.cluster c) ∧
      t.cluster cl = { s.cluster cl with cycle := (t.cluster cl).cycle, ctxs := (t.cluster cl).ctxs })) ∧
  (∀ (s : State) (cl ctx : Nat) (h : HCtx) (b : Nat) (rd r : BitVec 5) (imm : BitVec 12) (pa : Nat), runs s cl ctx h b →
    (ea h r imm).toNat % 8 = 0 → reaches s cl (ea h r imm) false pa →
    (here s cl pa → lineOf pa ∉ s.poison → goes (.alLdw cl ctx rd r imm) s cl ctx h b (s.homeRead pa 8).2
      { next (h.setX rd (BitVec.ofNat 64 (leNat (s.homeRead pa 8).1))) with alres := false }) ∧
    (here s cl pa → lineOf pa ∈ s.poison → breaks (.alLdw cl ctx rd r imm) s cl ctx) ∧
    (¬ here s cl pa → goes (.alLdw cl ctx rd r imm) s cl ctx h b s { next (h.setX rd 0) with alres := true })) ∧
  (∀ (s : State) (cl ctx : Nat) (h : HCtx) (b : Nat) (v r : BitVec 5) (imm : BitVec 12) (pa : Nat), runs s cl ctx h b →
    (ea h r imm).toNat % 8 = 0 → reaches s cl (ea h r imm) true pa →
    (here s cl pa → goes (.alStw cl ctx v r imm) s cl ctx h b
      ((s.homeWrite (s.ownerOf cl) pa (leBytes 8 (h.x v).toNat)).markWrote cl (lineOf pa)) { next h with alres := false }) ∧
    (¬ here s cl pa → goes (.alStw cl ctx v r imm) s cl ctx h b s { next h with alres := true })) ∧
  (∀ (s : State) (cl ctx : Nat) (h : HCtx) (b : Nat) (r : BitVec 5) (imm : BitVec 12), runs s cl ctx h b →
    (∀ pa, reaches s cl (ea h r imm) false pa → goes (.alFetch cl ctx 0 r imm) s cl ctx h b
      (s.setCluster (s.homeOf (s.ownerOf cl) (lineOf pa)) fun c => c.miss (lineOf pa) .normal 2) (next h)) ∧
    (∀ pa, reaches s cl (ea h r imm) false pa → here s cl pa → goes (.alDrop cl ctx 0 r imm) s cl ctx h b
      (s.setCluster cl fun c => { c with slice := Tab.upd (lineOf pa) (fun x => { x with next := true }) c.slice }) (next h)) ∧
    (∀ pa, reaches s cl (ea h r imm) false pa → ¬ here s cl pa → goes (.alDrop cl ctx 0 r imm) s cl ctx h b s (next h)) ∧
    ((∀ va, classify (ea h r imm) ≠ .global va) →
      goes (.alFetch cl ctx 0 r imm) s cl ctx h b s (next h) ∧ goes (.alDrop cl ctx 0 r imm) s cl ctx h b s (next h)) ∧
    (∀ pa rd, mapped s cl (ea h r imm) false pa → s.ownsStop (s.ownerOf cl) pa = false →
      breaks (.alFetch cl ctx 0 r imm) s cl ctx ∧ breaks (.alDrop cl ctx 0 r imm) s cl ctx ∧
      ((ea h r imm).toNat % 8 = 0 → breaks (.alLdw cl ctx rd r imm) s cl ctx)) ∧
    (∀ pa v, mapped s cl (ea h r imm) true pa → s.ownsStop (s.ownerOf cl) pa = false → (ea h r imm).toNat % 8 = 0 →
      breaks (.alStw cl ctx v r imm) s cl ctx)) ∧
  (∀ (s : State) (cl ctx : Nat) (h : HCtx) (b : Nat) (rd : BitVec 5) (imm : BitVec 12), runs s cl ctx h b → ctx < 8 →
    h.trig.retry < 4 → imm.toNat < 16 → goes (.alArg cl ctx rd 0 imm) s cl ctx h b s (next (h.setX rd (
      match imm.toNat, h.trig.record with
      | 0, _ => BitVec.ofNat 64 (h.trig.cls.num + 256 * h.trig.retry + 65536 * ctx)
      | 1, _ => h.trig.arg1
      | 2, _ => h.trig.arg2
      | n, some x => if n ≤ 8 then x.record.extractLsb' (128 + 64 * (n - 3)) 64 else 0
      | _, none => 0)))) ∧
  (∀ (s : State) (cl ctx : Nat) (h : HCtx) (b : Nat) (v r : BitVec 5) (imm : BitVec 12), runs s cl ctx h b →
    let at' := (ea h r imm).toNat % 2 ^ 32
    let ok := fun (x : Cmd) => ∃ tm, Tab.find x.team s.teams = some tm ∧ at' % 4 = 0 ∧ at' + 4 ≤ tm.window ∧
      s.checkStash (s.ownerOf cl) tm at' = none
    let whole := fun (x : Cmd) => ∀ tm, Tab.find x.team s.teams = some tm →
      s.breaks (s.ownerOf cl) tm ⟨0, apertureOf at', 4, 4, false, true⟩ = false
    (∀ x tm, h.trig.record = some x → Tab.find x.team s.teams = some tm → ok x → whole x → goes (.alSend cl ctx v r imm) s cl ctx h b
      (((s.unloose (s.locOf ⟨s.ownerOf cl, tm.core, x.team, false, .normal, none⟩ (apertureOf at')) 4).writeScratch .normal x.team at'
        (leBytes 4 ((h.x v).toNat % 2 ^ 32))).noEarly x.team) { next h with alres := false }) ∧
    (∀ x, h.trig.record = some x → ok x → ¬ whole x → breaks (.alSend cl ctx v r imm) s cl ctx) ∧
    ((∀ x, h.trig.record = some x → ¬ ok x) → goes (.alSend cl ctx v r imm) s cl ctx h b s { next h with alres := true })) ∧
  (∀ (s : State) (cl ctx : Nat) (h : HCtx) (b : Nat) (imm : BitVec 12), runs s cl ctx h b → imm.toNat ≤ 2 →
    ends (.alEnd cl ctx 0 0 imm) s cl ctx h b fun u t n =>
      let line := fun (s : State) => Tab.find h.trig.line (s.cluster cl).slice
      let again := imm = 2 ∧ h.trig.retry < 3
      let full := h.trig.cls ≠ .msg ∧ 16 ≤ ((u.cluster cl).classQ.filter fun x => x.cls == h.trig.cls).length
      let drop := fun (x : SliceLine) => decide (imm = 1) || x.next
      (again → ¬ full → counted u t cl h n 1 0 0 ∧ line t = line u ∧
        let later := { h.trig with retry := h.trig.retry + 1 }
        if h.trig.cls = .msg then (t.cluster cl).classQ = (u.cluster cl).classQ ∧
          (t.cluster cl).queue = (u.cluster cl).queue ++ [.again later]
        else (t.cluster cl).classQ = (u.cluster cl).classQ ++ [later] ∧ (t.cluster cl).queue = (u.cluster cl).queue) ∧
      (¬ (again ∧ ¬ full) →
        (h.trig.cls ≠ .miss → counted u t cl h n 1 0 (if again then 1 else 0) ∧
          (t.cluster cl).classQ = (u.cluster cl).classQ) ∧
        (h.trig.cls = .fill → line t = (line u).map fun x => { x with holds := x.holds - 1, next := drop x }) ∧
        (h.trig.cls = .evict → line t = if imm = 1 then (line u).map fun x => { x with holds := x.holds - 1, noEvict := true }
          else none) ∧
        (∀ x, h.trig.cls = .miss → line u = some x →
          (x.requested = true → line t = some (if imm = 1 then { x with passing := true } else x)) ∧
          (x.requested = false → x.inBuffer = true → imm = 1 → line t = none) ∧
          (x.requested = false → x.inBuffer = true → imm ≠ 1 → (u.cluster cl).setFull h.trig.line = false →
            ∃ y, line t = some y ∧ y.requested = false ∧ y.inBuffer = false ∧ y.next = decide (x.hint = .stream))))) ∧
  ∀ (s : State) (cl ctx : Nat) (h : HCtx) (b len : Nat) (i : Rv), runs s cl ctx h b →
    (∀ c' h', rvStep (s.cluster cl) ctx h b len i = .goes c' h' →
      goes (.handlerInstruction cl ctx len i) s cl ctx h b (s.setCluster cl fun _ => c') h') ∧
    (h.trig.cls = .msg → rvStep (s.cluster cl) ctx h b len i = .exc →
      ends (.handlerInstruction cl ctx len i) s cl ctx h b fun u t n => counted u t cl h n 0 1 0) ∧
    (∀ o rd r1 r2, i = .op o rd r1 r2 → rvStep (s.cluster cl) ctx h b len i =
      .goes (s.cluster cl) { h.setX rd (rvAlu o (h.x r1) (h.x r2)) with pc := h.pc + BitVec.ofNat 64 len }) ∧
    (∀ z rd r imm, i = .load z rd r imm →
      let a := (ea h r imm).toNat
      (a % sizeBytes z ≠ 0 ∨ (0x8000 ≤ a ∧ (a < 0x8000 + 4096 * ctx ∨ 0x8000 + 4096 * (ctx + 1) ≤ a))) →
        rvStep (s.cluster cl) ctx h b len i = .exc)

/-- R333 to R336, R341, R342, R88, R111: a request that misses marks its line requested, with its hint and its requester, and
raises a MISS trigger where the class is enabled and a registration covers the line, unless 16 wait already, which counts a
drop; one that finds the line or its read changes nothing; an arriving line is kept in the miss buffer while its MISS trigger
is alive, passes the slice where that has been suppressed, and otherwise is resident and held by its FILL, which tells the
requester; a line chosen as a victim is evicted, or held by its EVICT, which tells whether it is dirty; a valid message raises
MSG, another is a fault of its pusher; the first trigger of a class takes the lowest free context (log entry 13) within its
CAP beside the reservations; a budget that has run out aborts the invocation. Which line a full set gives up among equals is
the model's free value (log entry 57). That an access for a line which the L1 holds makes no request, and one for a line it
does not hold is the request that misses, is log entry 75's; what an L1 takes in and gives up is log entry 82's. A dirty line
is published with no change of value. -/
def Obligations.AlcoveTriggers : Prop :=
  let raised := fun (c c' : Cluster) (k : TrigClass) (line : Nat) (arg2 : Dword) (q : Bool) =>
    let on := (Tab.getD 0 k.num c.control).getLsbD 31
    let covered := c.regFor k.num line
    let full := 16 ≤ (c.classQ.filter fun t => t.cls == k).length
    (∀ e va, on = true → covered = some (e, va) → ¬ full → q = true ∧
      c'.classQ = c.classQ ++ [⟨k, e, line, 0, BitVec.ofNat 64 (va / 128 * 128), arg2, none⟩] ∧ c'.counters = c.counters) ∧
    (on = true → covered ≠ none → full → q = false ∧ c'.classQ = c.classQ ∧
      (c'.counter k.num).drops = (c.counter k.num).drops + 1) ∧
    (on = false ∨ covered = none → q = false ∧ c'.classQ = c.classQ ∧ c'.counters = c.counters)
  let at' := fun (s t : State) (cl : Nat) => (∀ c, c ≠ cl → t.cluster c = s.cluster c) ∧
    t = { s with clusters := t.clusters, frees := t.frees }
  let find := fun (line : Nat) (s : State) (cl : Nat) => Tab.find line (s.cluster cl).slice
  let home := fun (s : State) (line core : Nat) => s.homeOf (s.lineOwner line core) line
  let asker := fun (s : State) (line kind core : Nat) =>
    BitVec.ofNat 64 (kind + if kind < 2 then 256 * s.coreNum (s.lineOwner line core) core else 0)
  let missed := fun (s t : State) (line kind core : Nat) (hint : Hint) =>
    at' s t (home s line core) ∧
    (find line s (home s line core) ≠ none → t.cluster (home s line core) = s.cluster (home s line core)) ∧
    (find line s (home s line core) = none →
      find line t (home s line core) = some ⟨0, false, false, true, false, false, hint, asker s line kind core, none⟩ ∧
      ∃ q, raised (s.cluster (home s line core)) (t.cluster (home s line core)) .miss line (asker s line kind core) q)
  (∀ (s : State) (line kind core : Nat), s.lineOwner line core < 16 →
    ∃ t, exec (.miss line kind core) s = .next t ∧ missed s t line kind core .normal) ∧
  (∀ (s : State) (line core team : Nat) (hint : Hint), s.lineOwner line core < 16 →
    let t := s.touch core team hint line
    ((∃ x ∈ (s.core core).l1, x.line = line) → t = s) ∧
    ((∀ x ∈ (s.core core).l1, x.line ≠ line) → missed s { t with cores := s.cores, teams := s.teams } line 0 core hint ∧
      (hint ≠ .bypass → ∃ x ∈ (t.core core).l1, x.line = line) ∧ (hint = .bypass → ∀ x ∈ (t.core core).l1, x.line ≠ line))) ∧
  (∀ (s : State) (line cl : Nat) (x : SliceLine), s.slicesWith (·.requested) line = [cl] → find line s cl = some x →
    x.requested = true →
    ∃ t, exec (.fill line) s = .next t ∧ at' s t cl ∧
      (((s.cluster cl).trigOn .miss line).isSome = true → find line t cl = some { x with requested := false, inBuffer := true } ∧
        (t.cluster cl).classQ = (s.cluster cl).classQ) ∧
      ((s.cluster cl).trigOn .miss line = none → x.passing = true → find line t cl = none ∧
        (t.cluster cl).classQ = (s.cluster cl).classQ) ∧
      ((s.cluster cl).trigOn .miss line = none → x.passing = false → (s.cluster cl).setFull line = false →
        ∃ q, raised (s.cluster cl) (t.cluster cl) .fill line x.who q ∧ find line t cl =
          some { x with holds := if q then 1 else 0, next := decide (x.hint = .stream), requested := false, inBuffer := false,
                        passing := false }) ∧
      ((s.cluster cl).trigOn .miss line = none → x.passing = false → (s.cluster cl).setFull line = true →
        (∀ y ∈ (s.cluster cl).setLines line, y.2.holds ≠ 0) →
        find line t cl = none ∧ (t.cluster cl).classQ = (s.cluster cl).classQ)) ∧
  (∀ (s : State) (line : Nat), s.slicesWith (·.requested) line ≠ [] →
    ∃ t cl, exec (.fill line) s = .next t ∧ cl ∈ s.slicesWith (·.requested) line ∧ at' s t cl ∧
      ∀ y, find line t cl = some y → y.requested = false) ∧
  (∀ (s : State) (line cl : Nat) (x : SliceLine), s.slicesWith SliceLine.placed line = [cl] → find line s cl = some x →
    x.requested = false → x.inBuffer = false →
    let others := fun (y : Nat × SliceLine) => y ∈ (s.cluster cl).setLines line ∧ y.2.holds = 0
    let first := Config.sliceWays ≤ ((s.cluster cl).setLines line).length + 1 ∧ x.holds = 0 ∧
      (∀ y, others y → y.2.next = true → x.next = true) ∧
      (x.hint = .retain → x.next = false → ∀ y, others y → y.2.hint = .retain)
    ∃ t, exec (.evict line) s = .next t ∧ at' s t cl ∧
      (¬ first → t.cluster cl = s.cluster cl) ∧
      (first → x.noEvict = true → find line t cl = none ∧ (t.cluster cl).classQ = (s.cluster cl).classQ) ∧
      (first → x.noEvict = false → ∃ q,
        raised (s.cluster cl) (t.cluster cl) .evict line (if x.under = none then 0 else 1) q ∧
        find line t cl = if q then some { x with holds := 1 } else none)) ∧
  (∀ (s : State) (cl : Nat) (x : Cmd) (rest : List Waiting) (tm : Team) (la : Launch), (s.cluster cl).queue = .fresh x :: rest →
    Tab.find x.team s.teams = some tm → Tab.find tm.launch s.launches = some la →
    (∀ t ∈ (s.cluster cl).classQ, t.cls ≠ .msg) → (s.part (s.ownerOf cl)).faulting = false →
    let byte := fun i => (x.record.extractLsb' (8 * i) 8).toNat
    let reply := (x.record.extractLsb' 64 32).toNat
    let fields := byte 1 < 16 ∧ byte 2 < 2 ∧ x.record.extractLsb' 24 40 = 0 ∧ reply % 4 = 0 ∧ reply + 4 ≤ tm.window
    let handler := Tab.find (48 + byte 1) (s.cluster cl).regs
    let runs := (Tab.getD 0 3 (s.cluster cl).control).getLsbD 31 = true ∧ ∃ r, handler = some r ∧ r.1.getLsbD 31 = true
    (byte 0 = 0x30 → fields → runs → ∃ t, exec (.alcoveMessage cl) s = .next t ∧ at' s t cl ∧ ∃ r, handler = some r ∧
      t.cluster cl = { s.cluster cl with queue := rest, classQ := (s.cluster cl).classQ ++
        [⟨.msg, (r.1.extractLsb' 96 32).toNat, 0, 0, la.id.setWidth 64, BitVec.ofNat 64 reply, some x⟩] }) ∧
    ((byte 0 ≠ 0x30 ∨ ¬ fields ∨ ¬ runs) → ∀ w, Tab.find x.wave s.waves = some w → w.team = x.team →
      ∃ t, exec (.alcoveMessage cl) s = .next t ∧ t.cluster cl = { s.cluster cl with queue := rest } ∧
        Tab.find x.wave t.waves = Tab.find x.wave (s.engineFault x.wave x.team
          ⟨0x21, if byte 0 ≠ 0x30 then 1 else if ¬ fields then 2 else 8, 3, 0⟩).waves)) ∧
  (∀ (s : State) (cl : Nat) (y : Trigger) (rest : List Waiting), (s.cluster cl).queue = .again y :: rest →
    (s.part (s.ownerOf cl)).faulting = false →
    ((∀ t ∈ (s.cluster cl).classQ, t.cls ≠ .msg) → ∃ t, exec (.alcoveMessage cl) s = .next t ∧ at' s t cl ∧
      t.cluster cl = { s.cluster cl with queue := rest, classQ := (s.cluster cl).classQ ++ [y] }) ∧
    ((∃ t ∈ (s.cluster cl).classQ, t.cls = .msg) → exec (.alcoveMessage cl) s = .next s)) ∧
  (∀ (s : State) (cl : Nat), (s.cluster cl).queue = [] → exec (.alcoveMessage cl) s = .next s) ∧
  (∀ (s : State) (cl k n : Nat) (before after : List Trigger) (x : Trigger), (s.cluster cl).classQ = before ++ x :: after →
    x.cls.num = k → (∀ y ∈ before, y.cls.num ≠ k) → n < 8 → Tab.find n (s.cluster cl).ctxs = none →
    (∀ j, j < n → Tab.find j (s.cluster cl).ctxs ≠ none) → (s.part (s.ownerOf cl)).faulting = false → s.repart = none →
    let held := fun j => ((s.cluster cl).ctxs.filter fun e => e.2.trig.cls.num == j).length
    let rsv := fun j => ((Tab.getD 0 j (s.cluster cl).control).extractLsb' 20 4).toNat
    let kept := (((List.range 4).filter fun j => j ≠ k).map fun j => rsv j - held j).sum
    let cap := ((Tab.getD 0 k (s.cluster cl).control).extractLsb' 24 4).toNat
    (held k < cap → (s.cluster cl).ctxs.length + kept < 8 → ∃ t h, exec (.handlerStart cl k) s = .next t ∧ at' s t cl ∧
      t.cluster cl = { s.cluster cl with cycle := (t.cluster cl).cycle, classQ := before ++ after,
                                         ctxs := Tab.put n h (s.cluster cl).ctxs } ∧
      ((s.cluster cl).ctxs ≠ [] → (t.cluster cl).cycle = (s.cluster cl).cycle) ∧
      h.pc = BitVec.ofNat 64 (0x100000 + x.entry) ∧ h.trig = x ∧ h.alcyc = 0 ∧ h.instret = 0 ∧ h.resv = none) ∧
    (cap ≤ held k ∨ 8 ≤ (s.cluster cl).ctxs.length + kept → exec (.handlerStart cl k) s = .next s)) ∧
  (∀ (s : State) (cl ctx : Nat) (h : HCtx), Tab.find ctx (s.cluster cl).ctxs = some h →
    ∃ t, exec (.budgetOverrun cl ctx) s = .next t ∧ Tab.find ctx (t.cluster cl).ctxs = none ∧
      ((∀ e ∈ (s.cluster cl).ctxs, e.1 = ctx) →
        ((t.cluster cl).counter h.trig.cls.num).overruns = ((s.cluster cl).counter h.trig.cls.num).overruns + 1) ∧
      (h.trig.cls = .evict → h.trig.record = none → find h.trig.line t cl = none) ∧
      (∀ tm r, h.trig.cls = .msg → h.trig.record = some r → r.record.getLsbD 16 = true → Tab.find r.team s.teams = some tm →
        (∀ e ∈ (s.cluster cl).ctxs, e.1 = ctx) →
        let at0 := (r.record.extractLsb' 64 32).toNat
        at0 % 4 = 0 → at0 + 4 ≤ tm.window → (tm.page at0).bound = none → ∃ tm', Tab.find r.team t.teams = some tm' ∧
          leNat ((List.range 4).map fun j => Tab.getD 0 (at0 + j) tm'.scratch) = (r.record.extractLsb' 96 32).toNat)) ∧
  ∀ (s : State) (cl line : Nat) (d : DirtyLine), Tab.find line (s.cluster cl).dirty = some d →
    Tab.sorted (s.cluster cl).dirty = true →
    (∀ e ∈ (s.cluster cl).dirty, Tab.sorted e.2.bytes = true ∧ ∀ b ∈ e.2.bytes, b.1 < 128) →
    ∃ t, exec (.narrowLinePublication cl line) s = .next t ∧
      Tab.find line (t.cluster cl).dirty = none ∧ (∀ a, t.seen cl a = s.seen cl a) ∧
      (∀ a, lineOf a = line → memRead t.mem a = s.seen cl a) ∧
      { (t.cluster cl).uncached with dirty := [] } = { (s.cluster cl).uncached with dirty := [] } ∧
      (∀ c, c ≠ cl → (t.cluster c).uncached = (s.cluster c).uncached) ∧ (∀ c, (t.core c).uncached = (s.core c).uncached) ∧
      (∀ k, (Tab.find k t.teams).map Team.unaccessed = (Tab.find k s.teams).map Team.unaccessed) ∧
      t = { s with clusters := t.clusters, mem := t.mem, cores := t.cores, teams := t.teams }

/-- R241, R242, R245, R249, R125: a copy engine moves the payload one aligned word at a time; the word at the index NEXT is
read where the record places it and written where the record places it, its four bytes then count down the barrier object one
by one, and NEXT rises by 4; a turn of several words is those words one by one. A word beyond NEXT may be moved and counted
first, and NEXT goes past it in its turn: that words move ahead, and when, is the model's form of the order that R92 leaves
open (log entry 18); none does so past a word that lands on the same destination or waits for its page (R242, R248). CP.FILL
writes its pattern; the bytes of CP.PEER leave the device. Nothing else of memory changes, and a poisoned line is so no more
once the words moved cover it whole (R370 says so of a write that covers a line: that several words do is log entry 70). -/
def Obligations.CopiesMoveWordByWord : Prop :=
  let runs := fun (s : State) (core q idx op : Nat) (x : CopyCmd) (tm : Team) (p : Nat) =>
    ((s.core core).copies q)[idx]? = some x ∧ recOp x.record = op ∧ x.checked = true ∧ x.susp = none ∧
    Tab.find x.team s.teams = some tm ∧ (∃ la, Tab.find tm.launch s.launches = some la ∧ la.part = p) ∧
    (s.part p).faulting = false ∧ s.quiesced p = false ∧ idx < s.poolFree 0 p (fun _ => 0) ∧
    (recFlag x.record 1 = true → tm.unpinnedAt (apertureOf (recN x.record 12 4)) = none)
  let clear := fun (s : State) (core p team : Nat) (tm : Team) (ea : Dword) (rd wr : Bool) =>
    s.checkAccess p tm ea 1 4 rd wr = none ∧ tm.unpinnedAt ea = none ∧ s.breaks p tm ⟨0, ea, 1, 4, rd, wr⟩ = false ∧
    ∃ pl, placeOf s p tm ea = some pl ∧ Steady s (clusterOf core) team 4 pl
  let plain := fun (s : State) (p : Nat) (tm : Team) (ea : Dword) => ∀ y, placeOf s p tm ea ≠ some (.stash y)
  let wrote := fun (s u : State) (core team : Nat) (dst : List Place) (v : Nat) =>
    u = { s with waves := u.waves, teams := u.teams, clusters := u.clusters, cores := u.cores, loose := u.loose } ∧
    (∀ y ∈ u.loose, y ∈ s.loose) ∧ (∀ c, (u.core c).uncached = (s.core c).uncached) ∧
    (∀ j, (Tab.find j u.waves).map Wave.unbound = (Tab.find j s.waves).map Wave.unbound) ∧
    (∀ j, j ≠ team → (Tab.find j u.teams).map Team.unaccessed = (Tab.find j s.teams).map Team.unaccessed) ∧
    (Tab.find team u.teams).map (fun tm => { tm.unaccessed with scratch := [] }) =
      (Tab.find team s.teams).map (fun tm => { tm.unaccessed with scratch := [] }) ∧
    (∀ c, c ≠ clusterOf core → (u.cluster c).uncached = (s.cluster c).uncached) ∧
    { (u.cluster (clusterOf core)).uncached with dirty := [] } = { (s.cluster (clusterOf core)).uncached with dirty := [] } ∧
    ∀ pl, (∀ y, pl ≠ .stash y) →
      u.view (clusterOf core) team pl = viewWrite (s.view (clusterOf core) team) dst v pl
  let counted := fun (u : State) (core : Nat) (x : CopyCmd) => if recFlag x.record 1 then
    (List.range 4).foldl (fun u _ => u.updateBar core x.team (recN x.record 12 4) fun b => { b with pbytes := b.pbytes - 1 }) u
    else u
  let entry := fun (u : State) (core q idx : Nat) (g : CopyCmd → CopyCmd) =>
    u.setCore core fun c => c.setCopies q ((c.copies q).modify idx g)
  let goes := fun (mk : Nat → Nat → Nat → Nat → Instr) (s u : State) (core q idx total : Nat) (x : CopyCmd)
      (written : Nat → List Place) =>
    let v := entry (counted u core x) core q idx fun y => { y with next := x.next + 4 }
    (∀ n, exec (mk core q idx (n + 1)) s = exec (mk core q idx n) v) ∧
    (x.next + 4 < total → ∃ t, exec (mk core q idx 1) s = .next t ∧ t = { v with poison := t.poison } ∧
      ∀ line, line ∈ t.poison ↔ line ∈ s.poison ∧
        ¬ ∀ b, b < 128 → ∃ j, (j ∈ x.ahead ∨ (j % 4 = 0 ∧ j ≤ x.next)) ∧ Place.home (128 * line + b) ∈ written j)
  let skips := fun (mk : Nat → Nat → Nat → Nat → Instr) (op : Nat) => ∀ (s : State) (core q idx p n : Nat) (x : CopyCmd) (tm : Team),
    runs s core q idx op x tm p → x.next < payload x.record → x.next ∈ x.ahead →
    exec (mk core q idx (n + 1)) s =
      exec (mk core q idx n) (entry s core q idx fun y => { y with next := x.next + 4, ahead := y.ahead.erase x.next })
  let moves := fun (mk : Nat → Nat → Nat → Nat → Instr) (op : Nat) (total : BitVec 512 → Nat)
      (src dst : BitVec 512 → Nat → Dword) =>
    ∀ (s : State) (core q idx p : Nat) (x : CopyCmd) (tm : Team), runs s core q idx op x tm p → x.next < total x.record →
      x.next ∉ x.ahead →
      let a := src x.record x.next
      let b := dst x.record x.next
      clear s core p x.team tm a true false → clear s core p x.team tm b false true → plain s p tm b →
      ∃ u, goes mk s u core q idx (total x.record) x (fun i => placesOf s p tm (dst x.record i) 4) ∧
        wrote s u core x.team (placesOf s p tm b 4)
          (viewRead (s.view (clusterOf core) x.team) (placesOf s p tm a 4))
  let plus := fun (a : Dword) (z : Int) => a + BitVec.ofInt 64 z
  moves Instr.cpLin 0x10 (recN · 32 4) (fun r i => plus (recSrc r) i) (fun r i => plus (recDst r) i) ∧
  moves Instr.cpTile 0x11 (fun r => recN r 32 4 * recN r 36 2 * recN r 38 2)
    (fun r i => plus (recSrc r) ((i % recN r 32 4 : Nat) + (i / recN r 32 4 % recN r 36 2 : Nat) * recI r 40 +
      (i / recN r 32 4 / recN r 36 2 : Nat) * recI r 44))
    (fun r i => plus (recDst r) ((i % recN r 32 4 : Nat) + (i / recN r 32 4 % recN r 36 2 : Nat) * recI r 48 +
      (i / recN r 32 4 / recN r 36 2 : Nat) * recI r 52)) ∧
  (∀ (s : State) (core q idx p : Nat) (x : CopyCmd) (tm : Team), runs s core q idx 0x12 x tm p →
    let r := x.record
    x.next < recN r 32 4 * recN r 36 4 → x.next ∉ x.ahead →
    let row := x.next / recN r 32 4
    let at' := apertureOf ((recN r 40 4 + 4 * row) % 2 ^ 32)
    let ix := viewRead (s.view (clusterOf core) x.team) (placesOf s p tm at' 4)
    let a := plus (recSrc r) ((x.next % recN r 32 4 : Nat) + (ix : Int) * recI r 44)
    let b := plus (recDst r) x.next
    clear s core p x.team tm at' true false → clear s core p x.team tm a true false →
    clear s core p x.team tm b false true → plain s p tm b →
    ∃ u, goes Instr.cpGath s u core q idx (recN r 32 4 * recN r 36 4) x (fun i => placesOf s p tm (plus (recDst r) i) 4) ∧
      wrote s u core x.team (placesOf s p tm b 4)
        (viewRead (s.view (clusterOf core) x.team) (placesOf s p tm a 4))) ∧
  (∀ (s : State) (core q idx p : Nat) (x : CopyCmd) (tm : Team), runs s core q idx 0x15 x tm p →
    let r := x.record
    let b := plus (recDst r) x.next
    x.next < recN r 36 4 → x.next ∉ x.ahead → clear s core p x.team tm b false true → plain s p tm b →
    ∃ u, goes Instr.cpFill s u core q idx (recN r 36 4) x (fun i => placesOf s p tm (plus (recDst r) i) 4) ∧
      wrote s u core x.team (placesOf s p tm b 4) (recN r 32 4)) ∧
  skips Instr.cpLin 0x10 ∧ skips Instr.cpTile 0x11 ∧ skips Instr.cpGath 0x12 ∧ skips Instr.cpPeer 0x14 ∧ skips Instr.cpFill 0x15 ∧
  (∀ (s : State) (core q idx i p : Nat) (x : CopyCmd) (tm : Team) (rest : List Turn), s.agenda = .copyAhead core q idx i :: rest →
    let s' := { s with agenda := rest }
    runs s' core q idx 0x15 x tm p → i % 4 = 0 → x.next ≤ i → i < recN x.record 36 4 → i ∉ x.ahead →
    let dst := fun (j : Nat) => plus (recDst x.record) j
    let loc := fun (j : Nat) => s'.locOf ⟨p, core, x.team, true, .normal, none⟩ (dst j)
    let left := fun (j : Nat) => j % 4 = 0 ∧ x.next ≤ j ∧ j < i ∧ j ∉ x.ahead
    ((∀ j, left j → loc j ≠ loc i ∧ tm.unpinnedAt (dst j) = none) →
      clear s' core p x.team tm (dst i) false true → plain s' p tm (dst i) →
      ∃ u, wrote s' u core x.team (placesOf s' p tm (dst i) 4) (recN x.record 32 4) ∧
        step s = .next (entry (counted u core x) core q idx fun y => { y with ahead := i :: y.ahead })) ∧
    ((∃ j, left j ∧ (loc j = loc i ∨ (s'.checkAccess p tm (dst j) 1 4 false true = none ∧ tm.unpinnedAt (dst j) ≠ none))) →
      step s = .next s')) ∧
  ∀ (s : State) (core q idx p : Nat) (x : CopyCmd) (tm : Team), runs s core q idx 0x14 x tm p →
    let r := x.record
    let a := plus (recSrc r) x.next
    x.next < recN r 36 4 → x.next ∉ x.ahead → s.peerUsable p (recN r 32 2) = true →
    clear s core p x.team tm a true false →
    ∃ u, goes Instr.cpPeer s (u.setLaunch tm.launch fun l => { l with peerOut := l.peerOut + 4 }) core q idx (recN r 36 4) x
        (fun _ => []) ∧
      wrote s u core x.team [] 0

/-- R19, R241 to R243, R245, R246, R248, R58: the fields of a record are legal exactly where R241 to R243 say so (log entry
27: with CW = 0 CWVAL must be 0 too). A record is checked before it accesses anything, once every earlier record of its queue
has been (R19), and the first failure of the order of R246 ends it, its fault pending for the wave that pushed it or, once
that has exited, the launch's error (R15); a payload address that fails its check ends it too, and so does a peer that cannot
be reached; the completion word is written after the payload, and the command leaves its queue; a payload word in an unpinned
page suspends it until the page is pinned. -/
def Obligations.CopyChecksAndEnds : Prop :=
  let ops : List (Nat × (Nat → Nat → Nat → Nat → Instr)) := [(0x10, .cpLin), (0x11, .cpTile), (0x12, .cpGath), (0x13, .cpStrm),
    (0x14, .cpPeer), (0x15, .cpFill)]
  let alive := fun (s : State) (core q idx : Nat) (x : CopyCmd) (tm : Team) (p : Nat) =>
    ((s.core core).copies q)[idx]? = some x ∧ x.susp = none ∧ Tab.find x.team s.teams = some tm ∧
    (∃ la, Tab.find tm.launch s.launches = some la ∧ la.part = p) ∧ (s.part p).faulting = false ∧ s.quiesced p = false ∧
    idx < s.poolFree 0 p (fun _ => 0)
  let entry := fun (s : State) (core q idx : Nat) (g : CopyCmd → CopyCmd) =>
    s.setCore core fun c => c.setCopies q ((c.copies q).modify idx g)
  let gone := fun (s : State) (core q idx : Nat) => s.setCore core fun c => c.setCopies q ((c.copies q).eraseIdx idx)
  let faulted := fun (s : State) (core q idx : Nat) (x : CopyCmd) (sub : Nat) =>
    ((gone s core q idx).setTeam x.team fun tm =>
      { tm with faulted := tm.faulted ++ [(q, { x with fault := some sub })] }).engineFault x.wave x.team ⟨0x21, sub, q, x.batch⟩
  let answers := fun (o : Host.Outcome State Fault Refusal) (s u : State) =>
    ∃ t, o = .next t ∧ t = { u with poison := t.poison } ∧ ∀ line ∈ t.poison, line ∈ s.poison
  let quiet := fun (w : Wave) => w.noEarly.unbound
  let illegal := fun (x : CopyCmd) => recOp x.record < 0x10 ∨ 0x15 < recOp x.record
  let noEngine := fun (s : State) (core : Nat) (x : CopyCmd) =>
    recOp x.record = 0x13 ∧ (s.core core).mx.holder ≠ some x.team ∧ Tab.find x.team (s.core core).mxSpilt = none
  let badField := fun (x : CopyCmd) => (headerOk x.record && bodyOk x.record) = false
  let window := fun (tm : Team) (x : CopyCmd) =>
    (recFlag x.record 0 = true ∧ tm.window < recN x.record 4 4 + 4) ∨
    (recFlag x.record 1 = true ∧ tm.window < recN x.record 12 4 + 16) ∨
    (recOp x.record = 0x12 ∧ recN x.record 36 4 ≠ 0 ∧ tm.window < recN x.record 40 4 + 4 * recN x.record 36 4)
  let notPlain := fun (tm : Team) (x : CopyCmd) =>
    recFlag x.record 1 = true ∧ (tm.page (recN x.record 12 4)).bound.isSome = true
  let noLink := fun (s : State) (p : Nat) (x : CopyCmd) => recOp x.record = 0x14 ∧ s.peerUsable p (recN x.record 32 2) = false
  let sub := fun (b : Bad) => if b.code = 0x05 then 3 else if b.code = 0x07 then 5 else 4
  (∀ r : BitVec 512, 0x10 ≤ recOp r → recOp r ≤ 0x15 →
    let b := fun (lo n : Nat) => recN r lo n
    let four := fun (los : List Nat) => ∀ lo ∈ los, b lo 4 % 4 = 0
    let noScale := recFlag r 4 = true
    ((headerOk r && bodyOk r) = true ↔
      b 2 2 = 0 ∧ b 1 1 < 32 ∧ (noScale → recOp r = 0x13) ∧ b 16 8 % 4 = 0 ∧ b 24 8 % 4 = 0 ∧
      (recFlag r 0 = true → b 4 4 % 4 = 0) ∧ (recFlag r 0 = false → b 4 8 = 0) ∧
      (recFlag r 1 = true → b 12 4 % 16 = 0) ∧ (recFlag r 1 = false → b 12 4 = 0) ∧
      (recOp r = 0x10 → four [32] ∧ b 36 28 = 0) ∧
      (recOp r = 0x11 → four [32, 40, 44, 48, 52] ∧ 4 ≤ b 32 4 ∧ 1 ≤ b 36 2 ∧ 1 ≤ b 38 2 ∧ b 56 8 = 0) ∧
      (recOp r = 0x12 → four [32, 40, 44] ∧ 4 ≤ b 32 4 ∧ b 48 16 = 0) ∧
      (recOp r = 0x13 → b 24 8 = 0 ∧ b 32 1 ≤ 1 ∧ b 33 1 ≤ 3 ∧ 2 ≤ b 34 1 ∧ b 34 1 ≤ 8 ∧ b 35 1 = 0 ∧ four [40] ∧ b 56 8 = 0 ∧
        (noScale → b 33 1 ≤ 1) ∧ (b 33 1 ≠ 0 ∨ noScale → b 44 4 = 0 ∧ b 48 8 = 0)) ∧
      (recOp r = 0x14 → four [36] ∧ b 34 2 = 0 ∧ b 40 24 = 0) ∧
      (recOp r = 0x15 → b 16 8 = 0 ∧ four [36] ∧ b 40 24 = 0))) ∧
  (∀ (s : State) (k team : Nat) (a : AsyncFault) (tm : Team) (la : Launch), (∀ w, Tab.find k s.waves = some w → w.team ≠ team) →
    Tab.find team s.teams = some tm → Tab.find tm.launch s.launches = some la →
    let t := s.engineFault k team a
    t = { s with launches := t.launches } ∧ (∀ j, j ≠ tm.launch → Tab.find j t.launches = Tab.find j s.launches) ∧
    Tab.find tm.launch t.launches = some (if la.error = none then
      { la with error := some (a.code, BitVec.ofNat 32 (a.code % 256 + 2 ^ 15 + 2 ^ 21 * (a.queue % 8) + 2 ^ 24 * (a.sub % 256))) } else la)) ∧
  (∀ o ∈ ops, ∀ (s : State) (core q idx n p : Nat) (x : CopyCmd) (tm : Team), alive s core q idx x tm p → x.checked = false →
    recOp x.record = o.1 ∨ illegal x →
    let run := exec (o.2 core q idx n) s
    let ends := fun (sub : Nat) => run = .next (faulted s core q idx x sub)
    let waits := ∃ y ∈ ((s.core core).copies q).take idx, y.checked = false ∧ (Tab.find y.team s.teams).isSome = true
    (waits → run = .next s) ∧
    (¬ waits → (illegal x → ends 1) ∧
      (¬ illegal x → noEngine s core x → ends 7) ∧
      (¬ illegal x → ¬ noEngine s core x → badField x → ends 2) ∧
      (¬ illegal x → ¬ noEngine s core x → ¬ badField x → window tm x → ends 5) ∧
      (¬ illegal x → ¬ noEngine s core x → ¬ badField x → ¬ window tm x → notPlain tm x → ends 4) ∧
      (¬ illegal x → ¬ noEngine s core x → ¬ badField x → ¬ window tm x → ¬ notPlain tm x → noLink s p x → ends 6) ∧
      (¬ illegal x → ¬ noEngine s core x → ¬ badField x → ¬ window tm x → ¬ notPlain tm x → ¬ noLink s p x →
        run = .next (entry s core q idx fun y => { y with checked := true })))) ∧
  (∀ o ∈ ops, ∀ (s : State) (core q idx p : Nat) (x : CopyCmd) (tm : Team), alive s core q idx x tm p → x.checked = true →
    recOp x.record = o.1 → recOp x.record ≠ 0x13 → payload x.record ≤ x.next →
    (recFlag x.record 0 = false → answers (exec (o.2 core q idx 0) s) s (gone s core q idx)) ∧
    let cw := recN x.record 4 4
    (recFlag x.record 0 = true → cw + 4 ≤ tm.window → (tm.page cw).bound = none → (tm.page cw).pinned = true →
      ∃ u, answers (exec (o.2 core q idx 0) s) s (gone u core q idx) ∧
        u = { s with waves := u.waves, teams := u.teams, loose := u.loose } ∧ (∀ y ∈ u.loose, y ∈ s.loose) ∧
        (∀ j, (Tab.find j u.waves).map quiet = (Tab.find j s.waves).map quiet) ∧
        (∀ j, j ≠ x.team → Tab.find j u.teams = Tab.find j s.teams) ∧
        ∀ a, ((Tab.find x.team u.teams).map fun t => Tab.getD 0 a t.scratch) = some
          (if cw ≤ a ∧ a < cw + 4 then BitVec.ofNat 8 (recN x.record 8 4 / 256 ^ (a - cw)) else Tab.getD 0 a tm.scratch))) ∧
  (∀ (s : State) (core q idx n p : Nat) (x : CopyCmd) (tm : Team) (b : Bad), alive s core q idx x tm p → x.checked = true →
    recOp x.record = 0x15 → recFlag x.record 1 = false → x.next < recN x.record 36 4 → x.next ∉ x.ahead →
    s.checkAccess p tm (recDst x.record + BitVec.ofNat 64 x.next) 1 4 false true = some b →
    answers (exec (.cpFill core q idx (n + 1)) s) s (faulted s core q idx x (sub b))) ∧
  (∀ (s : State) (core q idx n p page : Nat) (x : CopyCmd) (tm : Team), alive s core q idx x tm p → x.checked = true →
    recOp x.record = 0x10 → recFlag x.record 1 = false → x.next < recN x.record 32 4 → x.next ∉ x.ahead →
    s.checkAccess p tm (recSrc x.record + BitVec.ofNat 64 x.next) 1 4 true false = none →
    tm.unpinnedAt (recSrc x.record + BitVec.ofNat 64 x.next) = some page →
    answers (exec (.cpLin core q idx (n + 1)) s) s (entry s core q idx fun y => { y with susp := some page })) ∧
  ∀ (s : State) (core q idx page : Nat) (x : CopyCmd) (tm : Team), ((s.core core).copies q)[idx]? = some x →
    x.susp = some page → Tab.find x.team s.teams = some tm →
    ((tm.page (4096 * page)).pinned = true →
      exec (.copyResume core q idx) s = .next (entry s core q idx fun y => { y with susp := none })) ∧
    ((tm.page (4096 * page)).pinned = false → exec (.copyResume core q idx) s = .next s)

/-- R243, R244, R256: CP.STRM delivers its blocks in row-major order. The block at NEXT enters the target's data FIFO with its
width and the stream counter's number, its 32 codes the source's with the most negative replaced, or for FP32 and BF16 those
of quant_block; its scale enters the scale FIFO with the same number as its tag, unless NOSCALE; the counter rises by 1 modulo
2^24. A full FIFO stalls the command, and so does an engine that the team does not hold now: R252 and R246 end the record of a
team that never held it, and a spilt engine's contents, the stalled stream's target, come back with its team (R265, R268). -/
def Obligations.StreamsFillOperandFifos : Prop :=
  ∀ (s : State) (core q idx p : Nat) (x : CopyCmd) (tm : Team),
    let r := x.record
    let m := recN r 34 1
    let sfmt := recN r 33 1
    let noScale := recFlag r 4
    let width := match sfmt with | 0 => 4 * m | 1 => 4 * (m + 1) | 2 => 128 | _ => 64
    let each := 4 * m + (if noScale then 0 else 1)
    let block := x.next / each
    let row := block / recN r 38 2
    let col := block % recN r 38 2
    let src := recSrc r + BitVec.ofInt 64 (row * recI r 40 + (col * width : Nat))
    let scaleAt := BitVec.ofNat 64 (recN r 48 8) + BitVec.ofInt 64 (row * recI r 44 + col)
    let isW := recN r 32 1 = 1
    let mx := (s.core core).mx
    let data := fun (y : Mx) => if isW then y.wData else y.xData
    let scales := fun (y : Mx) => if isW then y.wScale else y.xScale
    let count := fun (y : Mx) => if isW then y.wCount else y.xCount
    let full := 131072 < ((data mx).map fun e => 4 * e.m).sum + 4 * m ∨ (noScale = false ∧ 4096 ≤ (scales mx).length)
    let sees := fun (a : Dword) (n : Nat) => viewRead (s.view (clusterOf core) x.team) (placesOf s p tm a n)
    let clear := fun (a : Dword) (n : Nat) =>
      s.checkAccess p tm a 1 n true false = none ∧ tm.unpinnedAt a = none ∧ s.breaks p tm ⟨0, a, 1, n, true, false⟩ = false ∧
      ∃ pl, placeOf s p tm a = some pl ∧ Steady s (clusterOf core) x.team n pl
    let words := (List.range (width / 4)).map fun j => sees (src + BitVec.ofNat 64 (4 * j)) 4
    let whole := words.foldr (fun w v => w + 2 ^ 32 * v) 0
    let vals := (List.range 32).map fun i =>
      if sfmt = 2 then f32.dec (whole / 2 ^ (32 * i) % 2 ^ 32) else bf16.dec (whole / 2 ^ (16 * i) % 2 ^ 16)
    let quant := quantBlock m vals
    let code := fun (i : Nat) =>
      if sfmt ≤ 1 then
        let v := (if sfmt = 1 then whole / 2 ^ 32 else whole) / 2 ^ (m * i) % 2 ^ m
        if v = 2 ^ (m - 1) then v + 1 else v
      else ((quant.2.getD i 0) % (2 ^ m : Int)).toNat
    let scale := match sfmt with | 0 => sees scaleAt 1 | 1 => whole % 256 | _ => quant.1
    ((s.core core).copies q)[idx]? = some x → recOp r = 0x13 → x.checked = true → x.susp = none → bodyOk r = true →
    Tab.find x.team s.teams = some tm → (∃ la, Tab.find tm.launch s.launches = some la ∧ la.part = p) →
    (s.part p).faulting = false → s.quiesced p = false → idx < s.poolFree 0 p (fun _ => 0) →
    (∀ y ∈ ((s.core core).copies q).take idx, recOp y.record = 0x13 → recN y.record 32 1 = recN r 32 1 →
      payload y.record ≤ y.next) →
    x.next < recN r 36 2 * recN r 38 2 * each →
    (∀ n, mx.holder ≠ some x.team ∨ full → exec (.cpStrm core q idx n) s = .next s) ∧
    (mx.holder = some x.team → ¬ full → recFlag r 1 = false → x.next + each < recN r 36 2 * recN r 38 2 * each →
      (∀ j, j < width / 4 → clear (src + BitVec.ofNat 64 (4 * j)) 4) →
      (sfmt = 0 → noScale = false → clear scaleAt 1) →
      ∃ t mx', exec (.cpStrm core q idx 1) s = .next t ∧
        t = { s with waves := t.waves, teams := t.teams, cores := t.cores, clusters := t.clusters, loose := t.loose } ∧
        (∀ y ∈ t.loose, y ∈ s.loose) ∧ (∀ j, (Tab.find j t.waves).map Wave.unbound = (Tab.find j s.waves).map Wave.unbound) ∧
        (∀ j, (Tab.find j t.teams).map Team.unaccessed = (Tab.find j s.teams).map Team.unaccessed) ∧
        (∀ c, (t.cluster c).uncached = (s.cluster c).uncached) ∧ (∀ c, c ≠ core → t.core c = s.core c) ∧
        (∀ pl, t.view (clusterOf core) x.team pl = s.view (clusterOf core) x.team pl) ∧
        t.core core = { ((s.core core).setCopies q (((s.core core).copies q).modify idx fun y =>
          { y with next := x.next + each })) with mx := mx' } ∧
        mx' = { mx with xData := mx'.xData, wData := mx'.wData, xScale := mx'.xScale, wScale := mx'.wScale,
                        xCount := mx'.xCount, wCount := mx'.wCount } ∧
        count mx' = (count mx + 1) % 2 ^ 24 ∧
        (∃ e, data mx' = data mx ++ [e] ∧ e.m = m ∧ e.seq = count mx ∧ e.bits < 2 ^ (32 * m) ∧
          ∀ i, i < 32 → e.bits / 2 ^ (m * i) % 2 ^ m = code i) ∧
        scales mx' = scales mx ++
          (if noScale then [] else [⟨if scale % 256 = 255 then 0xFE else BitVec.ofNat 8 scale, count mx⟩]) ∧
        (isW → mx'.xData = mx.xData ∧ mx'.xScale = mx.xScale ∧ mx'.xCount = mx.xCount) ∧
        (¬ isW → mx'.wData = mx.wData ∧ mx'.wScale = mx.wScale ∧ mx'.wCount = mx.wCount))

/-- R252, R257 to R263: the fields of a matrix record are legal exactly where R259, R260, R262 and R263 say so, its range ends
behind the last byte that it names, and PERMISSION stands for a barrier object on a page that is not plain (R121) and for a
drained word whose line cannot be owned (R103). The head record is checked in the order of R258 and a failure ends it with
ASYNC_ENGINE. MX.ZERO clears its buffer unless KEEP, and empties the FIFOs it flushes. MX.MUL waits for its tile; a tile out
of step ends it with STREAM_DESYNC and pops nothing; otherwise its entries leave the FIFOs, and every word of its M by N
elements takes the products of its blocks in ascending order, by scaled_acc or in integer mode modulo 2^32, and every other
accumulator word stays. A command whose tile is popped is in progress, and is finished also for a parked team (R220, R265). KB
= 0 does nothing. -/
def Obligations.MatrixMultiply : Prop :=
  let head := fun (s : State) (core op : Nat) (x : Cmd) (rest : List Cmd) (tm : Team) (p : Nat) =>
    (s.core core).mx.fifo = x :: rest ∧ (s.core core).mx.headHeld = false ∧ recOp x.record = op ∧
    Tab.find x.team s.teams = some tm ∧ (tm.parked = false ∨ (s.core core).mx.tile ≠ none) ∧ (s.part p).faulting = false ∧
    ∃ la, Tab.find tm.launch s.launches = some la ∧ la.part = p
  let mine := fun (s : State) (core : Nat) (x : Cmd) (tm : Team) (p : Nat) =>
    (s.core core).mx.holder = some x.team ∧ matrixFieldsOk x.record = true ∧ rangeEnd x.record ≤ tm.window ∧
    matrixPermBad s p tm x.record = false
  let withMx := fun (s : State) (core : Nat) (m : Mx) => s.setCore core fun c => { c with mx := m }
  let ended := fun (m : Mx) (rest : List Cmd) => { m with fifo := rest, headHeld := false, tile := none, ahead := [] }
  let faulted := fun (s : State) (core : Nat) (x : Cmd) (rest : List Cmd) (code sub : Nat) =>
    (withMx s core (ended (s.core core).mx rest)).engineFault x.wave x.team ⟨code, sub, 2, 0⟩
  let ops : List (Nat × (Nat → Instr)) := [(0x20, .mxZero), (0x21, .mxMul), (0x22, .mxDrain), (0x23, .mxLoadc), (0x24, .mxArrive)]
  let code := fun (e : DataEntry) (i : Nat) => max (toSigned e.m (e.bits / 2 ^ (e.m * i))) (1 - 2 ^ (e.m - 1))
  let dot := fun (a b : DataEntry) => ((List.range 32).map fun i => code a i * code b i).sum
  let buf := fun (r : BitVec 512) => recN r 1 1 % 2
  let height := fun (r : BitVec 512) => 8 * 2 ^ recN r 2 1
  let fold := fun (r : BitVec 512) => 16384 / height r
  let kb := fun (r : BitVec 512) => recN r 6 2
  let int := fun (r : BitVec 512) => (recN r 1 1).testBit 1 = true
  let nx := fun (r : BitVec 512) => height r * kb r
  let nw := fun (r : BitVec 512) => recN r 8 2 * kb r
  let absent := fun (m : Mx) (r : BitVec 512) => m.xData.length < nx r ∨ m.wData.length < nw r
  let scaleAbsent := fun (m : Mx) (r : BitVec 512) => ¬ int r ∧ (m.xScale.length < nx r ∨ m.wScale.length < nw r)
  let startsAt := fun (es : List DataEntry) (seq : Nat) => es.head?.map DataEntry.seq = some seq
  let tagged := fun (n : Nat) (es : List DataEntry) (sc : List ScaleEntry) =>
    (es.take n).map DataEntry.seq = (sc.take n).map ScaleEntry.tag
  let inStep := fun (m : Mx) (r : BitVec 512) => startsAt m.xData (recN r 12 3) ∧ startsAt m.wData (recN r 16 3)
  let wide := fun (m : Mx) (r : BitVec 512) => (∀ e ∈ m.xData.take (nx r), e.m = recN r 3 1) ∧
    ∀ e ∈ m.wData.take (nw r), e.m = recN r 4 1
  let tags := fun (m : Mx) (r : BitVec 512) => int r ∨ (tagged (nx r) m.xData m.xScale ∧ tagged (nw r) m.wData m.wScale)
  let waits := fun (m : Mx) (r : BitVec 512) => m.xData = [] ∨ (startsAt m.xData (recN r 12 3) ∧ m.wData = []) ∨
    (inStep m r ∧ (absent m r ∨ (wide m r ∧ scaleAbsent m r)))
  let fails := fun (m : Mx) (r : BitVec 512) => (m.xData ≠ [] ∧ ¬ startsAt m.xData (recN r 12 3)) ∨
    (startsAt m.xData (recN r 12 3) ∧ m.wData ≠ [] ∧ ¬ startsAt m.wData (recN r 16 3)) ∨
    (inStep m r ∧ ¬ absent m r ∧ (¬ wide m r ∨ (¬ scaleAbsent m r ∧ ¬ tags m r)))
  let passes := fun (m : Mx) (r : BitVec 512) => inStep m r ∧ ¬ absent m r ∧ wide m r ∧ ¬ scaleAbsent m r ∧ tags m r
  let tile := fun (m : Mx) (r : BitVec 512) =>
    let sc := fun (n : Nat) (l : List ScaleEntry) => if (recN r 1 1).testBit 1 then [] else l.take n
    (⟨m.xData.take (nx r), m.wData.take (nw r), sc (nx r) m.xScale, sc (nw r) m.wScale⟩ : MxTile)
  let popped := fun (m : Mx) (r : BitVec 512) =>
    { m with xData := m.xData.drop (nx r), wData := m.wData.drop (nw r),
             xScale := if (recN r 1 1).testBit 1 then m.xScale else m.xScale.drop (nx r),
             wScale := if (recN r 1 1).testBit 1 then m.wScale else m.wScale.drop (nw r) }
  let element := fun (m : MxTile) (r : BitVec 512) (i j : Nat) (a : Word) => (List.range (kb r)).foldl (fun a b =>
    match m.xData[i * kb r + b]?, m.wData[j * kb r + b]? with
    | some x, some w =>
      if (recN r 1 1).testBit 1 then a + BitVec.ofInt 32 (dot x w)
      else
        let xs := (m.xScale[i * kb r + b]?.map fun e => e.scale.toNat).getD 0
        let ws := (m.wScale[j * kb r + b]?.map fun e => e.scale.toNat).getD 0
        BitVec.ofNat 32 (scaledAcc a.toNat (dot x w)
          (((xs : Int) - 127 - (recN r 3 1 - 1)) + ((ws : Int) - 127 - (recN r 4 1 - 1))))
    | _, _ => a) a
  let multiplied := fun (m m' : Mx) (t : MxTile) (r : BitVec 512) =>
    (∀ i j, i < height r → j < recN r 8 2 →
      m'.acc (buf r) (i * fold r + j) = element t r i j (m.acc (buf r) (i * fold r + j))) ∧
    (∀ n, (∀ i j, i < height r → j < recN r 8 2 → n ≠ i * fold r + j) → m'.acc (buf r) n = m.acc (buf r) n) ∧
    ∀ n, m'.acc (1 - buf r) n = m.acc (1 - buf r) n
  (∀ r : BitVec 512, 0x20 ≤ recOp r → recOp r ≤ 0x24 →
    let b := fun (lo n : Nat) => recN r lo n
    let drains := recOp r = 0x22 ∨ recOp r = 0x23
    let rowBytes := (if b 3 1 = 0 then 4 else 2) * b 8 2
    (matrixFieldsOk r = true ↔
      (recOp r = 0x20 → b 1 1 < 16 ∧ b 2 62 = 0) ∧
      (recOp r = 0x21 → b 1 1 < 4 ∧ b 2 1 ≤ 5 ∧ 2 ≤ b 3 1 ∧ b 3 1 ≤ 8 ∧ 2 ≤ b 4 1 ∧ b 4 1 ≤ 8 ∧ b 5 1 = 0 ∧
        height r * kb r ≤ 4096 ∧ 1 ≤ b 8 2 ∧ b 8 2 ≤ fold r ∧ b 8 2 * kb r ≤ 4096 ∧ b 10 2 = 0 ∧ b 12 4 < 2 ^ 24 ∧
        b 16 4 < 2 ^ 24 ∧ b 20 44 = 0) ∧
      (drains → b 1 1 < 2 ∧ b 2 1 ≤ 5 ∧ (b 3 1 = 0 ∨ (b 3 1 = 1 ∧ recOp r = 0x22 ∧ b 8 2 % 2 = 0)) ∧ 1 ≤ b 4 2 ∧
        b 4 2 ≤ height r ∧ b 6 2 = 0 ∧ 1 ≤ b 8 2 ∧ b 8 2 ≤ fold r ∧ b 10 2 = 0 ∧ b 12 4 % 4 = 0 ∧ rowBytes ≤ b 12 4 ∧
        b 16 4 % 4 = 0 ∧ b 20 44 = 0) ∧
      (recOp r = 0x24 → b 1 3 = 0 ∧ b 4 4 % 16 = 0 ∧ b 8 56 = 0)) ∧
    (matrixFieldsOk r = true →
      (∀ n, rangeEnd r ≤ n ↔
        (drains → ∀ i j, i < b 4 2 → j < rowBytes → b 16 4 + i * b 12 4 + j < n) ∧ (recOp r = 0x24 → b 4 4 + 16 ≤ n)) ∧
      ∀ (s : State) (p : Nat) (tm : Team), matrixPermBad s p tm r = true ↔
        (recOp r = 0x24 ∧ (tm.page (b 4 4)).bound.isSome = true) ∨
        (recOp r = 0x22 ∧ ∃ i j, i < b 4 2 ∧ 4 * j < rowBytes ∧ s.checkStash p tm (b 16 4 + i * b 12 4 + 4 * j) ≠ none))) ∧
  (∀ o ∈ ops, ∀ (s : State) (core op p : Nat) (x : Cmd) (rest : List Cmd) (tm : Team), head s core op x rest tm p →
    (op = o.1 ∨ op < 0x20 ∨ 0x24 < op) →
    let ends := fun (sub : Nat) => exec (o.2 core) s = .next (faulted s core x rest 0x21 sub)
    ((s.core core).mx.holder ≠ some x.team → ends 7) ∧
    ((s.core core).mx.holder = some x.team → op ≠ o.1 → ends 1) ∧
    ((s.core core).mx.holder = some x.team → op = o.1 → matrixFieldsOk x.record = false → ends 2) ∧
    ((s.core core).mx.holder = some x.team → op = o.1 → matrixFieldsOk x.record = true → tm.window < rangeEnd x.record → ends 5) ∧
    ((s.core core).mx.holder = some x.team → op = o.1 → matrixFieldsOk x.record = true → rangeEnd x.record ≤ tm.window →
      matrixPermBad s p tm x.record = true → ends 4)) ∧
  (∀ (s : State) (core p : Nat) (x : Cmd) (rest : List Cmd) (tm : Team), head s core 0x20 x rest tm p → mine s core x tm p →
    let m := (s.core core).mx
    let fl := recN x.record 1 1
    ∃ m', exec (.mxZero core) s = .next (withMx s core m') ∧
      m' = { ended m rest with buf0 := m'.buf0, buf1 := m'.buf1,
                               xData := if fl.testBit 2 then [] else m.xData, xScale := if fl.testBit 2 then [] else m.xScale,
                               wData := if fl.testBit 3 then [] else m.wData, wScale := if fl.testBit 3 then [] else m.wScale } ∧
      ∀ b, b < 2 → ∀ i, m'.acc b i = if b = buf x.record ∧ fl.testBit 1 = false then 0 else m.acc b i) ∧
  (∀ (s : State) (core p : Nat) (x : Cmd) (rest : List Cmd) (tm : Team), head s core 0x21 x rest tm p → mine s core x tm p →
    let m := (s.core core).mx
    let r := x.record
    (m.tile = none → kb r = 0 →
      exec (.mxMul core) s = .next (withMx s core (ended m rest)) ∧ exec (.mxMulTileCheck core) s = .next s) ∧
    (m.tile = none → kb r ≠ 0 → waits m r → exec (.mxMul core) s = .next s ∧ exec (.mxMulTileCheck core) s = .next s) ∧
    (m.tile = none → kb r ≠ 0 → fails m r → exec (.mxMul core) s = .next (faulted s core x rest 0x09 0) ∧
      exec (.mxMulTileCheck core) s = .next (faulted s core x rest 0x09 0)) ∧
    (m.tile = none → kb r ≠ 0 → passes m r →
      exec (.mxMulTileCheck core) s = .next (withMx s core { popped m r with tile := some (tile m r) }) ∧
      ∃ m', exec (.mxMul core) s = .next (withMx s core m') ∧
        m' = { ended (popped m r) rest with buf0 := m'.buf0, buf1 := m'.buf1 } ∧ multiplied m m' (tile m r) r) ∧
    (∀ t, m.tile = some t → (kb r ≠ 0 → exec (.mxMulTileCheck core) s = .next s) ∧
      ∃ m', exec (.mxMul core) s = .next (withMx s core m') ∧
        m' = { ended m rest with buf0 := m'.buf0, buf1 := m'.buf1 } ∧ multiplied m m' t r) ∧
    (kb r ≠ 0 → waits m r ∨ fails m r ∨ passes m r))

/-- R262, R263, R122, R102, R258: of a record that passes its checks, MX.DRAIN writes its rows of accumulator words to the
scratchpad, as held or two to a word in BF16, and MX.LOADC reads them back, a word that a turn of the engine has read ahead as
it read it (R383); rows and columns beyond ROWS and N are untouched, and the pages accessed are pinned; a command whose pages
cannot be pinned waits, and one whose words a stop blocks or poison breaks is a partition fault (R353, R370). MX.ARRIVE, a
.team release of the engine's writes first (log entry 19), counts one arrival on its object and ends; an arrival that the
object holds keeps the FIFO at it. -/
def Obligations.MatrixDrainLoadArrive : Prop :=
  let head := fun (s : State) (core op : Nat) (x : Cmd) (rest : List Cmd) (tm : Team) (p : Nat) =>
    (s.core core).mx.fifo = x :: rest ∧ (s.core core).mx.headHeld = false ∧ recOp x.record = op ∧
    Tab.find x.team s.teams = some tm ∧ tm.parked = false ∧ (s.part p).faulting = false ∧
    (∃ la, Tab.find tm.launch s.launches = some la ∧ la.part = p) ∧
    (s.core core).mx.holder = some x.team ∧ matrixFieldsOk x.record = true ∧ rangeEnd x.record ≤ tm.window ∧
    matrixPermBad s p tm x.record = false
  let withMx := fun (s : State) (core : Nat) (m : Mx) => s.setCore core fun c => { c with mx := m }
  let ended := fun (m : Mx) (rest : List Cmd) => { m with fifo := rest, headHeld := false, tile := none, ahead := [] }
  let buf := fun (r : BitVec 512) => recN r 1 1 % 2
  let fold := fun (r : BitVec 512) => 16384 / (8 * 2 ^ recN r 2 1)
  let rows := fun (r : BitVec 512) => recN r 4 2
  let cols := fun (r : BitVec 512) => recN r 8 2
  let at' := fun (r : BitVec 512) (i j : Nat) => recN r 16 4 + i * recN r 12 4 + 4 * j
  let perRow := fun (r : BitVec 512) => if recN r 3 1 = 0 then cols r else cols r / 2
  let value := fun (m : Mx) (r : BitVec 512) (i j : Nat) =>
    let a := fun k => (m.acc (buf r) (i * fold r + k)).toNat
    let half := fun k => bf16.enc 0 0 (f32.dec (a k))
    if recN r 3 1 = 0 then a j else half (2 * j) + 2 ^ 16 * half (2 * j + 1)
  let plain := fun (s : State) (tm : Team) (r : BitVec 512) =>
    tm.window ≤ 2 ^ 32 ∧
    Roomy s tm ((List.range (rows r)).flatMap fun i => (List.range (perRow r)).map fun j => at' r i j) ∧
    ∀ i j, i < rows r → j < perRow r → (tm.page (at' r i j)).bound = none
  let pinned := fun (tm tm' : Team) (r : BitVec 512) => ∀ q pg, Tab.find q tm.pages = some pg →
    (Tab.find q tm'.pages).map (fun pg => { pg with pinned := true }) = some { pg with pinned := true } ∧
    ((Tab.find q tm'.pages).map Page.pinned = some true ↔
      pg.pinned = true ∨ ∃ i j, i < rows r ∧ j < perRow r ∧ at' r i j / 4096 = q)
  let others := fun (s t : State) (n : Nat) => ∀ j, j ≠ n → Tab.find j t.teams = Tab.find j s.teams
  let wordIn := fun (tm : Team) (a : Nat) => BitVec.ofNat 32 (
    (List.range 4).foldr (fun b v => (Tab.getD 0 (a + b) tm.scratch).toNat + 256 * v) 0)
  let noNewer := fun (s t : State) => ∀ y ∈ t.loose, ∃ z ∈ s.loose, z.loc = y.loc ∧ z.old = y.old
  (∀ r : BitVec 512, recOp r = 0x22 ∨ recOp r = 0x23 → matrixFieldsOk r = true →
    ∀ n, n ∈ drainWords r ↔ ∃ i j, i < rows r ∧ j < perRow r ∧ n = at' r i j) ∧
  (∀ (s : State) (core p : Nat) (x : Cmd) (rest : List Cmd) (tm : Team), head s core 0x22 x rest tm p →
    plain s tm x.record →
    let m := (s.core core).mx
    let r := x.record
    ∃ t tm', exec (.mxDrain core) s = .next t ∧
      t = withMx { s with waves := t.waves, teams := t.teams, loose := t.loose } core (ended m rest) ∧
      (∀ y ∈ t.loose, y ∈ s.loose ∨ (engineKey core, 0xFFFFFFFF#32) ∈ y.writers) ∧
      (∀ j, (Tab.find j t.waves).map Wave.unbound = (Tab.find j s.waves).map Wave.unbound) ∧ others s t x.team ∧
      Tab.find x.team t.teams = some tm' ∧ tm' = { tm with scratch := tm'.scratch, pages := tm'.pages } ∧ pinned tm tm' r ∧
      (∀ i j b, i < rows r → j < perRow r → b < 4 →
        Tab.getD 0 (at' r i j + b) tm'.scratch = BitVec.ofNat 8 (value m r i j / 256 ^ b)) ∧
      ∀ a, (∀ i j, i < rows r → j < perRow r → a < at' r i j ∨ at' r i j + 4 ≤ a) →
        Tab.getD 0 a tm'.scratch = Tab.getD 0 a tm.scratch) ∧
  (∀ (s : State) (core p : Nat) (x : Cmd) (rest : List Cmd) (tm : Team), head s core 0x23 x rest tm p →
    plain s tm x.record →
    let m := (s.core core).mx
    let r := x.record
    ∃ t tm' m', exec (.mxLoadc core) s = .next t ∧ t = withMx { s with teams := t.teams, loose := t.loose } core m' ∧
      noNewer s t ∧ others s t x.team ∧
      Tab.find x.team t.teams = some tm' ∧ tm' = { tm with pages := tm'.pages } ∧ pinned tm tm' r ∧
      m' = { ended m rest with buf0 := m'.buf0, buf1 := m'.buf1 } ∧
      (∀ i j, i < rows r → j < cols r →
        m'.acc (buf r) (i * fold r + j) = (Tab.find (i * cols r + j) m.ahead).getD (wordIn tm (at' r i j))) ∧
      (∀ n, (∀ i j, i < rows r → j < cols r → n ≠ i * fold r + j) → m'.acc (buf r) n = m.acc (buf r) n) ∧
      ∀ n, m'.acc (1 - buf r) n = m.acc (1 - buf r) n) ∧
  (∀ (s : State) (core i p : Nat) (x : Cmd) (rest : List Cmd) (tm : Team) (more : List Turn),
    s.agenda = .loadAhead core i :: more → head s core 0x23 x rest tm p → plain s tm x.record →
    let m := (s.core core).mx
    let r := x.record
    i < rows r * cols r → Tab.find i m.ahead = none → ∃ t tm', step s = .next t ∧
      t = withMx { s with agenda := more, teams := t.teams, loose := t.loose } core
        { m with ahead := Tab.put i (wordIn tm (at' r (i / cols r) (i % cols r))) m.ahead } ∧
      noNewer s t ∧ others s t x.team ∧ Tab.find x.team t.teams = some tm' ∧ tm' = { tm with pages := tm'.pages }) ∧
  (∀ (s : State) (core op p : Nat) (x : Cmd) (rest : List Cmd) (tm : Team), head s core op x rest tm p →
    let words := drainWords x.record
    let broken := fun (rd : Bool) => ∃ n ∈ words, s.breaks p tm ⟨0, apertureOf n, 4, 4, rd, !rd⟩ = true
    let stops := fun (i : Instr) => s.repart = none → exec i s = .next (s.setPart p fun t => { t with faulting := true })
    (op = 0x22 → broken false → stops (.mxDrain core)) ∧ (op = 0x23 → broken true → stops (.mxLoadc core)) ∧
    (op = 0x22 → ¬ broken false → s.canPin x.team words = false → exec (.mxDrain core) s = .next s) ∧
    (op = 0x23 → ¬ broken true → s.canPin x.team words = false → exec (.mxLoadc core) s = .next s) ∧
    (op = 0x24 → s.canPin x.team [recN x.record 4 4] = false → exec (.mxArrive core) s = .next s)) ∧
  ∀ (s : State) (core p : Nat) (x : Cmd) (rest : List Cmd) (tm : Team), head s core 0x24 x rest tm p →
    s.canPin x.team [recN x.record 4 4] = true →
    let m := (s.core core).mx
    let a := recN x.record 4 4
    let u := ((s.release (clusterOf core) 1).firm (engineKey core) 0xFFFFFFFF).pin x.team a
    let b := s.bar x.team a
    (b.pending ≠ 0 → b.expect ≠ 0 → exec (.mxArrive core) s = .next ((withMx u core (ended m rest)).updateBar core x.team a
      fun b => { b with pending := b.pending - 1 })) ∧
    (b.pending = 0 ∨ b.expect = 0 → exec (.mxArrive core) s = .next (withMx (u.setTeam x.team fun t =>
      { t with holds := t.holds ++ [⟨a, .matrix, decide (b.expect = 0)⟩] }) core { m with headHeld := true }) ∧
      ∀ t, exec (.mxArrive core) s = .next t → exec (.mxArrive core) t = .next t)

/-- R249, R250, R361, R370: an acknowledgement takes bytes from those a launch waits for; a flit that fails eight times is
lost with its bytes; a sub-link that goes down is out of use and a partition fault of its owner; a congestion mark halves the
partition's permitted rates at the core and at the host link, to no less than 1/64, and each quiet interval raises its own by
1/16 of peak (that a rate controller of a host link is named 256 is log entry 90); a peer's store is translated in the
partition of its sub-link and its bytes written at their homes, where the entry allows it, and one that covers a line clears
its poison; the store is acknowledged or refused, and a store of this device that its peer refuses is lost (R249). -/
def Obligations.LinksAndRates : Prop :=
  let onLaunch := fun (o : Host.Outcome State Fault Refusal) (s : State) (l : Nat) (g : Launch → Launch) =>
    ∃ t, o = .next t ∧ t = { s with launches := t.launches } ∧ (∀ j, j ≠ l → Tab.find j t.launches = Tab.find j s.launches) ∧
      Tab.find l t.launches = (Tab.find l s.launches).map g
  let owned := fun (s : State) (p core : Nat) => s.layout.getD (clusterOf core) 255 = p
  let share := fun (r : Rate) => (r.1 : ℚ) / 2 ^ r.2
  let atCore := fun (s t : State) (core : Nat) (g : ℚ → ℚ) => (∀ c, c ≠ core → t.core c = s.core c) ∧
    t.core core = { s.core core with rate := (t.core core).rate } ∧ share (t.core core).rate = g (share (s.core core).rate)
  let atLink := fun (s t : State) (p : Nat) (g : ℚ → ℚ) => (∀ q, q ≠ p → t.part q = s.part q) ∧
    t.part p = { s.part p with hostRate := (t.part p).hostRate } ∧ share (t.part p).hostRate = g (share (s.part p).hostRate)
  let halved := fun (x : ℚ) => max (1 / 64) (x / 2)
  let raised := fun (x : ℚ) => min 1 (x + 1 / 16)
  let lost := fun (n : Nat) (la : Launch) => { la with
    peerOut := la.peerOut - n, peerLost := true,
    error := if 5 ≤ la.stage ∧ la.error = none then some (0x22, 0x22) else la.error }
  (∀ (s : State) (l n : Nat), onLaunch (exec (.peerAck l n) s) s l fun la => { la with peerOut := la.peerOut - n }) ∧
  (∀ (s : State) (l n tries : Nat) (la : Launch), Tab.find l s.launches = some la → 8 ≤ tries → 0 < n → n ≤ la.peerOut →
    onLaunch (exec (.flitResend l n tries) s) s l (lost n)) ∧
  (∀ (s : State) (l n : Nat) (la : Launch) (rest : List Turn), s.agenda = .peerRefusal l n :: rest →
    Tab.find l s.launches = some la → 0 < n → n ≤ la.peerOut →
    onLaunch (step s) { s with agenda := rest } l (lost n)) ∧
  (∀ (s : State) (l n tries : Nat), tries < 8 → onLaunch (exec (.flitResend l n tries) s) s l id) ∧
  (∀ (s : State) (port lane p : Nat), s.subLink port lane = some p →
    ∃ t, exec (.linkDown port lane) s = .next t ∧
      t.subLink port lane = none ∧ (∀ x, x ∈ t.linkDown ↔ x = 8 * port + lane ∨ x ∈ s.linkDown) ∧
      (s.repart = none → t = { s with linkDown := t.linkDown, parts := t.parts } ∧
        ∀ q, t.part q = if q = p then { s.part q with faulting := true } else s.part q) ∧
      ∀ r, s.repart = some r → t = { s with
        linkDown := t.linkDown,
        repart := some { r with faults := if p ∈ r.faults then r.faults else r.faults ++ [p] } }) ∧
  (∀ (s : State) (port lane : Nat), s.subLink port lane = none → exec (.linkDown port lane) s = .next s) ∧
  (∀ (s : State) (p core : Nat), owned s p core →
    (∃ t, exec (.congestionMark p core) s = .next t ∧ t = { s with cores := t.cores, parts := t.parts } ∧
      atCore s t core halved ∧ atLink s t p halved) ∧
    (core < 256 → ∃ t, exec (.rateRaise p core) s = .next t ∧ t = { s with cores := t.cores } ∧ atCore s t core raised)) ∧
  (∀ (s : State) (p : Nat), ∃ t, exec (.rateRaise p 256) s = .next t ∧ t = { s with parts := t.parts } ∧ atLink s t p raised) ∧
  (∀ (s : State) (p core : Nat), ¬ owned s p core →
    exec (.congestionMark p core) s = .next s ∧ (core < 256 → exec (.rateRaise p core) s = .next s)) ∧
  (∀ (s : State) (port lane p pa : Nat) (a : Dword) (bs : List Byte), s.subLink port lane = some p → s.feature 4 = true →
    pa % 128 + bs.length ≤ 128 →
    (∀ i, i < bs.length → ∃ va e, classify (a + BitVec.ofNat 64 i) = .global va ∧ s.translate p va = some (e, pa + i) ∧
      e.w = true ∧ s.ownsStop p (pa + i) = true) →
    (∀ e ∈ s.clusters, Tab.find (lineOf pa) e.2.dirty = none ∧ Tab.find (lineOf pa) e.2.wrote = none) →
    (∀ e ∈ s.teams, ∀ q ∈ e.2.pages, q.2.dirtyOf (lineOf pa) = none) →
    ∃ t, exec (.peerStoreArrival port lane a bs) s = .next t ∧
      t = { s with mem := t.mem, teams := t.teams, clusters := t.clusters, cores := t.cores, poison := t.poison,
                   loose := t.loose, peerAnswer := some (8 * port + lane, true) } ∧
      (∀ y, y ∈ t.loose ↔ y ∈ s.loose ∧ (y.loc + y.old.length ≤ pa ∨ pa + bs.length ≤ y.loc ∨ bs = [] ∨ y.old = [])) ∧
      (∀ c, (t.cluster c).uncached = (s.cluster c).uncached) ∧ (∀ c, (t.core c).uncached = (s.core c).uncached) ∧
      (∀ line, line ∈ t.poison ↔ line ∈ s.poison ∧ ¬ (bs.length = 128 ∧ line = lineOf pa)) ∧
      (∀ x, memRead t.mem x = if pa ≤ x ∧ x < pa + bs.length then bs.getD (x - pa) 0 else memRead s.mem x) ∧
      ∀ j, (Tab.find j t.teams).map Team.unaccessed = (Tab.find j s.teams).map Team.unaccessed) ∧
  ∀ (s : State) (port lane p : Nat) (a : Dword) (bs : List Byte), s.subLink port lane = some p → s.feature 4 = true →
    (∀ i, i < bs.length → ∀ va, classify (a + BitVec.ofNat 64 i) = .global va →
      ∀ e pa, s.translate p va = some (e, pa) → e.w = false) →
    exec (.peerStoreArrival port lane a bs) s =
      .next { s with peerAnswer := some (8 * port + lane, decide (bs = [])) }

/-! ### The host and the firmware -/

/-- R364 to R368: a doorbell in range sets the write index and one out of range sets ERR; QBASE sets the ring and clears ERR
(its low six bits read as 0, log entry 14); a queue of a partition without a function has no registers (R377; log entry 104).
The packet at RDIDX, read at the ring's address in its partition's address space (log entry 52), leaves stage 1, RDIDX
advances and it is in flight, once every earlier packet with the barrier bit, and for a MARKER every earlier packet, has
completed. A packet is malformed exactly where R366 says, a misaligned SRC or DST of a COPY among it, while a DESC is left to
R291 (log entry 54); a malformed one completes with BAD_PACKET and performs no work, a TILES once its slot and a dispatcher
slot are free (R314), and so does one whose SIG, STADDR or TARGET fails its check. A BARRIER stays while its signals are
neither all 0 nor one negative; a negative one completes it with ABORTED. The launch.id values are the model's (log entry 10).
-/
def Obligations.HostQueuesAndPackets : Prop :=
  let onQueue := fun (o : Host.Outcome State Fault Refusal) (s : State) (q : Nat) (h : HostQueue) =>
    ∃ t, o = .next t ∧ t = { s with queues := t.queues } ∧ (∀ j, j ≠ q → t.queue j = s.queue j) ∧ t.queue q = h
  let served := fun (s : State) (q p : Nat) => (s.queue q).owner = some p ∧ (s.queue q).err = false ∧ s.affected p = false ∧
    (s.part p).faulting = false ∧ (s.feature 2 = true ∨ p = 0)
  let ring := fun (s : State) (q : Nat) =>
    (s.queue q).qbase + BitVec.ofNat 64 (64 * ((s.queue q).rdidx.toNat % 2 ^ (s.queue q).qsize))
  let read := fun (s : State) (q p : Nat) => s.packetRead p (ring s q) 64
  let record := fun (s : State) (q p : Nat) => BitVec.ofNat 512 (read s q p).1
  let behind := fun (s : State) (q : Nat) (r : BitVec 512) =>
    (∀ e ∈ s.launches, e.2.queue = some q → e.2.barrier = false ∧ recOp r ≠ 6)
  let atHead := fun (s : State) (q p : Nat) (r : BitVec 512) => served s q p ∧ (s.queue q).rdidx.toNat < (s.queue q).doorbell.toNat ∧
    s.usable p (ring s q) true false = true ∧ s.packetBreaks p (ring s q) true = false ∧ r = record s q p ∧ behind s q r
  let sigGood := fun (s : State) (p : Nat) (r : BitVec 512) =>
    recN r 8 8 % 8 == 0 && s.usable p (addr (recN r 8 8)) true true
  let staGood := fun (s : State) (p : Nat) (r : BitVec 512) =>
    recN r 16 8 % 8 == 0 && s.usable p (addr (recN r 16 8)) false true
  let addrsGood := fun (s : State) (p : Nat) (r : BitVec 512) =>
    (recN r 8 8 = 0 ∨ sigGood s p r = true) ∧ (recN r 16 8 = 0 ∨ staGood s p r = true)
  let base := fun (s : State) (q p : Nat) (r : BitVec 512) (work : Work) =>
    { Launch.fresh p (Config.launchBase + BitVec.ofNat 32 s.nextLaunch) (some q) (s.queue q).rdidx.toNat work with
      barrier := (recN r 1 1).testBit 0, acq := recN r 2 1, rel := recN r 3 1, sig := recN r 8 8, staddr := recN r 16 8 }
  let checked := fun (s : State) (q p : Nat) (r : BitVec 512) (work : Work) (stage : Nat) (err : Option (Nat × Word)) =>
    { base s q p r work with stage := stage, error := err, sigOk := recN r 8 8 != 0 && sigGood s p r,
                             staOk := recN r 16 8 != 0 && staGood s p r }
  let leaves := fun (o : Host.Outcome State Fault Refusal) (s u : State) (q : Nat) (la : Launch) =>
    ∃ t, o = .next t ∧ t = { u with launches := t.launches, nextLaunch := s.nextLaunch + 1, queues := t.queues } ∧
      (∀ j, j ≠ s.nextLaunch → Tab.find j t.launches = Tab.find j s.launches) ∧
      Tab.find s.nextLaunch t.launches = some la ∧ (∀ j, j ≠ q → t.queue j = s.queue j) ∧
      t.queue q = { s.queue q with rdidx := (s.queue q).rdidx + 1 }
  let bad : Option (Nat × Word) := some (0x35, 0)
  let simple : List (Nat × (Nat → Instr)) := [(1, .launchPacket), (2, .barrierPacket), (2, .barrierEvaluation),
    (3, (.copyPacket · none)), (4, .tilesPacket), (5, .signalPacket), (6, .markerPacket)]
  let signals := fun (r : BitVec 512) => ((List.range 5).map fun i => recN r (24 + 8 * i) 8).filter (· ≠ 0)
  let zero := fun (r : BitVec 512) (lo hi : Nat) => ∀ i, lo ≤ i → i < hi → recN r i 1 = 0
  let body := fun (s : State) (p : Nat) (r : BitVec 512) =>
    (recOp r = 1 ∧ zero r 44 64) ∨
    (recOp r = 2 ∧ ∀ i, i < 5 → recN r (24 + 8 * i) 8 % 8 = 0) ∨
    (recOp r = 3 ∧ recN r 24 8 % 4 = 0 ∧ recN r 32 8 % 4 = 0 ∧ recN r 40 8 % 4 = 0 ∧ zero r 48 64) ∨
    (recOp r = 4 ∧ recN r 24 1 < 16 ∧ recN r 25 1 < 2 ^ (s.partDies p).length ∧ 1 ≤ recN r 26 2 ∧ recN r 26 2 ≤ 4096 ∧
      recN r 28 4 ≤ 65536 ∧ recN r 32 8 % 16 = 0 ∧ recN r 40 8 % 16 = 0 ∧ zero r 48 64 ∧ s.feature 7 = true) ∨
    (recOp r = 5 ∧ recN r 24 8 % 8 = 0 ∧ zero r 40 64) ∨ (recOp r = 6 ∧ zero r 32 64)
  let busy := fun (s : State) (p : Nat) (r : BitVec 512) =>
    recOp r = 4 ∧ recN r 24 1 < 16 ∧ (Tab.find (16 * p + recN r 24 1) s.jobs ≠ none ∨ s.poolFree 5 p s.jobsOf = 0)
  (∀ (s : State) (p : Nat) (r : BitVec 512), s.pktOk p r = true ↔
    recN r 1 1 < 2 ∧ recN r 2 1 ≤ 5 ∧ recN r 3 1 ≤ 5 ∧ zero r 4 8 ∧ recN r 8 8 % 8 = 0 ∧ recN r 16 8 % 8 = 0 ∧ body s p r) ∧
  (∀ (s : State) (q p : Nat) (v : Dword), (s.queue q).owner = some p → s.hasFunction p = true →
    ((s.queue q).rdidx.toNat ≤ v.toNat → v.toNat ≤ (s.queue q).rdidx.toNat + 2 ^ (s.queue q).qsize →
      onQueue (exec (.doorbell q v) s) s q { s.queue q with doorbell := v }) ∧
    (v.toNat < (s.queue q).rdidx.toNat ∨ (s.queue q).rdidx.toNat + 2 ^ (s.queue q).qsize < v.toNat →
      onQueue (exec (.doorbell q v) s) s q { s.queue q with err := true }) ∧
    onQueue (exec (.qbase q v) s) s q { s.queue q with qbase := v &&& ~~~63#64, err := false }) ∧
  (∀ (s : State) (q : Nat) (v : Dword), (∀ p, (s.queue q).owner = some p → s.feature 2 = false ∧ p ≠ 0) →
    exec (.doorbell q v) s = .next s ∧ exec (.qbase q v) s = .next s) ∧
  (∀ o ∈ simple, ∀ (s : State) (q p : Nat) (r : BitVec 512), atHead s q p r → recOp r = o.1 ∨ recOp r < 1 ∨ 6 < recOp r →
    s.pktOk p r = false → ¬ busy s p r → leaves (exec (o.2 q) s) s (read s q p).2 q (checked s q p r .bad 5 bad)) ∧
  (∀ (s : State) (q p : Nat) (r : BitVec 512), atHead s q p r → busy s p r →
    exec (.tilesPacket q) s = .next (read s q p).2) ∧
  (∀ (s : State) (q p : Nat) (r : BitVec 512), atHead s q p r → recOp r = 1 → s.pktOk p r = true →
    leaves (exec (.launchPacket q) s) s (read s q p).2 q
      (base s q p r (.launch (recN r 24 8) (recN r 32 4) (recN r 36 4) (recN r 40 4)))) ∧
  (∀ (s : State) (q p : Nat) (r : BitVec 512), atHead s q p r → recOp r = 5 → s.pktOk p r = true →
    let work := Work.signal (recN r 24 8) (BitVec.ofNat 64 (recN r 32 8))
    let good := addrsGood s p r ∧ s.usable p (addr (recN r 24 8)) true true = true
    (good → leaves (exec (.signalPacket q) s) s (read s q p).2 q (checked s q p r work 5 none)) ∧
    (¬ good → leaves (exec (.signalPacket q) s) s (read s q p).2 q (checked s q p r work 5 bad))) ∧
  (∀ (s : State) (q p : Nat) (r : BitVec 512), served s q p → (s.queue q).rdidx.toNat < (s.queue q).doorbell.toNat →
    s.usable p (ring s q) true false = true → s.packetBreaks p (ring s q) true = false → r = record s q p → recOp r = 6 →
    let waits := ∃ e ∈ s.launches, e.2.queue = some q
    (waits → exec (.markerPacket q) s = .next s) ∧
    (¬ waits → s.pktOk p r = true →
      (addrsGood s p r → leaves (exec (.markerPacket q) s) s (read s q p).2 q (checked s q p r (.marker (recN r 24 8)) 5 none)) ∧
      (¬ addrsGood s p r →
        leaves (exec (.markerPacket q) s) s (read s q p).2 q (checked s q p r (.marker (recN r 24 8)) 5 bad)))) ∧
  (∀ (i : Nat → Instr), i = .barrierPacket ∨ i = .barrierEvaluation → ∀ (s : State) (q p : Nat) (r : BitVec 512),
    atHead s q p r → recOp r = 2 → s.pktOk p r = true →
    let u := (read s q p).2
    let x := readSignals p (signals r) u
    ((∃ a ∈ signals r, s.usable p (addr a) true false = false) →
      leaves (exec (i q) s) s u q (checked s q p r .bad 5 bad)) ∧
    ((∀ a ∈ signals r, s.usable p (addr a) true false = true ∧ s.packetBreaks p (addr a) true = false) →
      ((∃ v ∈ x.1, 2 ^ 63 ≤ v) → leaves (exec (i q) s) s x.2 q (checked s q p r .bad 5 (some (0x36, 0)))) ∧
      ((∀ v ∈ x.1, v = 0) → leaves (exec (i q) s) s x.2 q
        (checked s q p r (.barrier (signals r)) 5
          (if (recN r 8 8 = 0 ∨ sigGood s p r = true) ∧ (recN r 16 8 = 0 ∨ staGood s p r = true) then none else bad))) ∧
      ((∀ v ∈ x.1, v < 2 ^ 63) → (∃ v ∈ x.1, v ≠ 0) → exec (i q) s = .next x.2)))

/-- R353, R366, R368, R370, R314 to R318: a COPY goes in flight at stage 4 and moves its words in ascending order, up to the
end of a line of its destination each time (log entry 15), until its last, and ends with COPY_FAULT at a word that cannot be
read or written; one behind a stop of another partition, or read from a poisoned line, is a partition fault; words are read
and written at their homes, and a line written whole is poisoned no more. TILES waits for its slot and a dispatcher slot; with
a table, a record or a fill signal outside R316, or more than 2^20 tiles, it ends with BAD_JOB, and without one a read that a
stop blocks or poison breaks is a partition fault (which comes first is the model's choice, log entry 111); either way it
holds its slots until it completes. Accepted, its records are cut into tiles: of the rows left, each tile takes the greatest
height of R254 that they fill, or 8 for fewer, and the tiles of a record cover its rows once, in order; each expert's fill
signal is read; the job stands in its slot until it completes, at stage 5 at once where it has no tile. An expert's fill
signal makes it ready at 0 and failed below 0, or where it cannot be read. The packet is read in its partition's address space
(log entry 52); launch.id values are log entry 10's. -/
def Obligations.CopyPacketsAndTileJobs : Prop :=
  let ring := fun (s : State) (q : Nat) =>
    (s.queue q).qbase + BitVec.ofNat 64 (64 * ((s.queue q).rdidx.toNat % 2 ^ (s.queue q).qsize))
  let atHead := fun (s : State) (q p : Nat) (r : BitVec 512) => (s.queue q).owner = some p ∧ (s.queue q).err = false ∧
    s.affected p = false ∧ (s.part p).faulting = false ∧ (s.feature 2 = true ∨ p = 0) ∧
    (s.queue q).rdidx.toNat < (s.queue q).doorbell.toNat ∧ s.usable p (ring s q) true false = true ∧
    s.packetBreaks p (ring s q) true = false ∧ r = BitVec.ofNat 512 (s.packetRead p (ring s q) 64).1 ∧
    (∀ e ∈ s.launches, e.2.queue = some q → e.2.barrier = false) ∧ s.pktOk p r = true ∧ recN r 8 8 = 0 ∧ recN r 16 8 = 0
  let base := fun (s : State) (q p : Nat) (r : BitVec 512) (work : Work) =>
    { Launch.fresh p (Config.launchBase + BitVec.ofNat 32 s.nextLaunch) (some q) (s.queue q).rdidx.toNat work with
      barrier := (recN r 1 1).testBit 0, acq := recN r 2 1, rel := recN r 3 1 }
  let left := fun (t u s : State) (q : Nat) (la : Launch) =>
    t = { u with launches := t.launches, nextLaunch := s.nextLaunch + 1, queues := t.queues, jobs := t.jobs } ∧
    (∀ j, j ≠ s.nextLaunch → Tab.find j t.launches = Tab.find j s.launches) ∧ Tab.find s.nextLaunch t.launches = some la ∧
    (∀ j, j ≠ q → t.queue j = s.queue j) ∧ t.queue q = { s.queue q with rdidx := (s.queue q).rdidx + 1 }
  let running := fun (s : State) (l p src dst len : Nat) (la : Launch) => Tab.find l s.launches = some la ∧
    la.work = .copy src dst len ∧ la.stage = 4 ∧ la.part = p ∧ (s.part p).faulting = false ∧ s.quiesced p = false
  let good := fun (s : State) (p src dst i : Nat) =>
    s.usable p (addr src + BitVec.ofNat 64 (4 * i)) true false = true ∧ s.usable p (addr dst + BitVec.ofNat 64 (4 * i)) false true = true ∧
    s.packetBreaks p (addr src + BitVec.ofNat 64 (4 * i)) true = false ∧ s.packetBreaks p (addr dst + BitVec.ofNat 64 (4 * i)) false = false
  let word := fun (p src dst : Nat) (s : State) (i : Nat) =>
    let x := s.packetRead p (addr src + BitVec.ofNat 64 (4 * i)) 4
    x.2.packetWrite p (addr dst + BitVec.ofNat 64 (4 * i)) 4 x.1
  let onLaunch := fun (t u : State) (l : Nat) (la : Launch) => t = { u with launches := t.launches, poison := t.poison } ∧
    (∀ j, j ≠ l → Tab.find j t.launches = Tab.find j u.launches) ∧ Tab.find l t.launches = some la
  let whole := fun (s : State) (p dst n x : Nat) =>
    n = 32 ∧ ∃ va e pa, classify (addr dst) = .global va ∧ s.translate p va = some (e, pa) ∧ x = lineOf pa
  let calm := fun (s : State) (line : Nat) =>
    (∀ e ∈ s.clusters, Tab.find line e.2.dirty = none ∧ Tab.find line e.2.wrote = none) ∧
    ∀ e ∈ s.teams, ∀ q ∈ e.2.pages, q.2.dirtyOf line = none
  let slot := fun (p : Nat) (r : BitVec 512) => 16 * p + recN r 24 1
  let room := fun (s : State) (p : Nat) (r : BitVec 512) => Tab.find (slot p r) s.jobs = none ∧ 0 < s.poolFree 5 p s.jobsOf
  (∀ (s : State) (q p : Nat) (r : BitVec 512), atHead s q p r → recOp r = 3 →
    ∃ t, exec (.copyPacket q none) s = .next t ∧ t.jobs = s.jobs ∧ left t (s.packetRead p (ring s q) 64).2 s q
      { base s q p r (.copy (recN r 24 8) (recN r 32 8) (recN r 40 8)) with stage := 4 }) ∧
  (∀ (s : State) (q l p src dst len : Nat) (la : Launch), running s l p src dst len la →
    let n := min len (128 - dst % 128) / 4
    ((∀ i, i < n → good s p src dst i) →
      ∃ t, exec (.copyPacket q (some l)) s = .next t ∧ onLaunch t ((List.range n).foldl (word p src dst) s) l
        { la with work := .copy (src + 4 * n) (dst + 4 * n) (len - 4 * n), stage := if len ≤ 4 * n then 5 else 4 } ∧
        ∀ x, x ∈ t.poison ↔ x ∈ s.poison ∧ ¬ whole s p dst n x) ∧
    (∀ i, i < n → (∀ j, j < i → good s p src dst j) →
      s.usable p (addr src + BitVec.ofNat 64 (4 * i)) true false = true →
      s.usable p (addr dst + BitVec.ofNat 64 (4 * i)) false true = true →
      s.packetBreaks p (addr src + BitVec.ofNat 64 (4 * i)) true = true ∨
      s.packetBreaks p (addr dst + BitVec.ofNat 64 (4 * i)) false = true →
      ∃ t, exec (.copyPacket q (some l)) s = .next t ∧
        onLaunch t (((List.range i).foldl (word p src dst) s).foundFault p) l
          { la with work := .copy (src + 4 * i) (dst + 4 * i) (len - 4 * i) } ∧ t.poison = s.poison) ∧
    (∀ i, i < n → (∀ j, j < i → good s p src dst j) →
      s.usable p (addr src + BitVec.ofNat 64 (4 * i)) true false = false ∨
      s.usable p (addr dst + BitVec.ofNat 64 (4 * i)) false true = false →
      ∃ t, exec (.copyPacket q (some l)) s = .next t ∧ onLaunch t ((List.range i).foldl (word p src dst) s) l
        { la with stage := 5, error := la.error <|> some (0x38, 0) } ∧ t.poison = s.poison)) ∧
  (∀ (s : State) (p n v va pa : Nat) (e : Pte) (a : Dword), classify a = .global va → s.translate p va = some (e, pa) →
    0 < n → pa % 128 + n ≤ 128 → calm s (lineOf pa) →
    (∀ x, memRead (s.packetRead p a n).2.mem x = memRead s.mem x) ∧
    (s.packetRead p a n).1 = (List.range n).foldr (fun i v => (memRead s.mem (pa + i)).toNat + 256 * v) 0 ∧
    ∀ x, memRead (s.packetWrite p a n v).mem x =
      if pa ≤ x ∧ x < pa + n then BitVec.ofNat 8 (v / 256 ^ (x - pa)) else memRead s.mem x) ∧
  (∀ (s : State) (q p : Nat) (r : BitVec 512), atHead s q p r → recOp r = 4 → ¬ room s p r →
    exec (.tilesPacket q) s = .next (s.packetRead p (ring s q) 64).2) ∧
  (∀ (s : State) (q p : Nat) (r : BitVec 512), atHead s q p r → recOp r = 4 → room s p r →
    let nexp := recN r 26 2
    let nrec := recN r 28 4
    let recs := addr (recN r 32 8)
    let exps := addr (recN r 40 8)
    let u := (s.packetRead p (ring s q) 64).2
    let x := u.readUnits p recs nrec
    let y := x.2.readUnits p exps nexp
    let rows := x.1.map fun v => (v % 2 ^ 32, v / 2 ^ 32 % 2 ^ 32, v / 2 ^ 64)
    let work := Work.tiles (recN r 24 1) (recN r 25 1) nexp nrec (recN r 32 8) (recN r 40 8)
    let la := base s q p r work
    let readable := (∀ i, i < nrec → s.usable p (recs + BitVec.ofNat 64 (16 * i)) true false = true) ∧
      ∀ i, i < nexp → s.usable p (exps + BitVec.ofNat 64 (16 * i)) true false = true
    let unbroken := (∀ i, i < nrec → s.packetBreaks p (recs + BitVec.ofNat 64 (16 * i)) true = false) ∧
      ∀ i, i < nexp → s.packetBreaks p (exps + BitVec.ofNat 64 (16 * i)) true = false
    let es := (rows.map (·.1)).dedup
    let sig := fun (e : Nat) => y.1.getD e 0 / 2 ^ 64
    let ks := es.filter (sig · ≠ 0)
    let legal := (∀ v ∈ x.1, v < 2 ^ 96 ∧ v % 2 ^ 32 < nexp ∧ v / 2 ^ 32 % 2 ^ 32 + v / 2 ^ 64 ≤ 2 ^ 32) ∧
      (decompose rows).length ≤ 2 ^ 20 ∧ ∀ e ∈ ks, sig e % 8 = 0 ∧ s.usable p (addr (sig e)) true false = true
    let z := readSignals p (ks.map sig) y.2
    let held := fun (t : State) => (∀ j, j ≠ slot p r → Tab.find j t.jobs = Tab.find j s.jobs) ∧
      Tab.find (slot p r) t.jobs = some ⟨s.nextLaunch, recN r 25 1, [], []⟩
    let ends := fun (u : State) => ∃ t, exec (.tilesPacket q) s = .next t ∧
      left t u s q { la with stage := 5, error := some (0x32, 0) } ∧ held t
    let broken := fun (u : State) => ∃ t, exec (.tilesPacket q) s = .next t ∧
      left t (u.foundFault p) s q { la with stage := 4 } ∧ held t
    (¬ readable → ends u) ∧ (readable → ¬ unbroken → broken u) ∧ (readable → unbroken → ¬ legal → ends y.2) ∧
    (readable → unbroken → legal → (∃ e ∈ ks, s.packetBreaks p (addr (sig e)) true = true) → broken y.2) ∧
    (readable → unbroken → legal → (∀ e ∈ ks, s.packetBreaks p (addr (sig e)) true = false) →
      ∃ t, exec (.tilesPacket q) s = .next t ∧
        left t z.2 s q { la with stage := if decompose rows = [] then 5 else 4,
                                 error := if ∃ v ∈ z.1, 2 ^ 63 ≤ v then some (0x33, 0) else none } ∧
        (∀ j, j ≠ slot p r → Tab.find j t.jobs = Tab.find j s.jobs) ∧
        ∃ xs, Tab.find (slot p r) t.jobs = some ⟨s.nextLaunch, recN r 25 1, decompose rows, xs⟩ ∧
          (∀ e ∈ es, sig e = 0 → Tab.find e xs = some ⟨BitVec.ofNat 64 (y.1.getD e 0), 0, true, false⟩) ∧
          ∀ i e, ks[i]? = some e → Tab.find e xs =
            some ⟨BitVec.ofNat 64 (y.1.getD e 0), sig e, z.1.getD i 0 == 0, decide (2 ^ 63 ≤ z.1.getD i 0)⟩)) ∧
  (∀ (rs : List (Nat × Nat × Nat)), (decompose rs).map Tile.recIx =
    (List.range rs.length).flatMap fun i => List.replicate ((rs[i]?.map fun r => tileCount r.2.2).getD 0) i) ∧
  (∀ (i e off count : Nat),
    let ts := recTiles i e (tileCount count) off count
    ts.length = tileCount count ∧ (ts.map Tile.valid).sum = count ∧
    ∀ n x, ts[n]? = some x → x.recIx = i ∧ x.expert = e ∧ x.team = none ∧ x.retired = false ∧ 0 < x.valid ∧ x.mh ≤ 5 ∧
      x.off = off + ((ts.take n).map Tile.valid).sum ∧ (x.valid = 8 * 2 ^ x.mh ∨ (x.mh = 0 ∧ x.valid < 8 ∧ n + 1 = ts.length)) ∧
      ∀ h, h ≤ 5 → 8 * 2 ^ h ≤ count - ((ts.take n).map Tile.valid).sum → h ≤ x.mh) ∧
  ∀ (s : State) (l e key : Nat) (j : Job) (x : Expert), Tab.find key s.jobs = some j → j.launch = l →
    (∀ k j', Tab.find k s.jobs = some j' → j'.launch = l → k = key) → Tab.sorted s.jobs = true →
    Tab.find e j.experts = some x → x.ready = false → x.failed = false → x.fillsig ≠ 0 →
    let readable := s.usable (key / 16) (addr x.fillsig) true false
    let breaks := s.packetBreaks (key / 16) (addr x.fillsig) true
    let r := if readable = true then s.packetRead (key / 16) (addr x.fillsig) 8 else (2 ^ 63, s)
    let failed := decide (2 ^ 63 ≤ r.1)
    (readable = true → breaks = true → exec (.fillSignalPoll l e) s = .next (s.foundFault (key / 16))) ∧
    (readable = false ∨ breaks = false →
    ∃ t, exec (.fillSignalPoll l e) s = .next t ∧ t = { r.2 with jobs := t.jobs, launches := t.launches } ∧
      (∀ k, k ≠ key → Tab.find k t.jobs = Tab.find k s.jobs) ∧
      Tab.find key t.jobs = some { j with experts := Tab.put e { x with ready := decide (r.1 = 0), failed := failed } j.experts } ∧
      (∀ k, k ≠ l → Tab.find k t.launches = Tab.find k s.launches) ∧
      Tab.find l t.launches = (Tab.find l s.launches).map fun la =>
        if failed then { la with error := la.error <|> some (0x33, 0) } else la)

/-- R363, R88, R353, R354, R370, R377, R225 to R229, R331, R359, R364: the host reads and writes a partition's HBM4E memory at
its homes, each line with a request of its own (log entry 101), and gets the bytes read; without the physical function or
the virtual ones it reaches nothing (R377). An access beyond its stops, or a read of a poisoned line, is a partition fault,
applied after a REPART that runs, and a line written whole is poisoned no more (log entry 70); a snoop brings a host-window
line home. Register writes set the unit they name where its rules allow the value. The numbers of the stops and the page
table are log entry 7's; that a page may lie behind any stop, its partition's or not, is log entry 68's; the values of QSIZE
are log entry 53's, the bits of a watchpoint's control register log entry 56's, its size and address as written log entry
96's; that partition 0's queues are reached without virtual functions is log entry 104's. -/
def Obligations.HostAccessesAndRegisters : Prop :=
  let calm := fun (s : State) (line : Nat) =>
    (∀ e ∈ s.clusters, Tab.find line e.2.dirty = none ∧ Tab.find line e.2.wrote = none) ∧
    ∀ e ∈ s.teams, ∀ q ∈ e.2.pages, q.2.dirtyOf line = none
  let lines := fun (pa n line : Nat) => pa / 128 ≤ line ∧ line ≤ (pa + n - 1) / 128
  let owned := fun (s : State) (p line : Nat) => line / 2 ^ 33 < 16 ∧ (Tab.find (64 + line / 2 ^ 33) s.conns).map (·.2) = some p
  let behind := fun (pa n : Nat) => pa % 2 ^ 40 + n ≤
    if pa / 2 ^ 40 < 16 then Config.stackBytes else if pa / 2 ^ 40 < 24 then Config.lpddrBytes
    else if pa / 2 ^ 40 = 24 then 2 ^ 40 else 0
  let serves := fun (s : State) (n : Nat) (a : Dword) =>
    s.feature 1 = true ∧ s.feature 2 = true ∧ n ≠ 0 ∧ behind a.toNat n
  let faulted := fun (s t : State) (p : Nat) =>
    (s.repart = none → t = { s with parts := t.parts } ∧
      ∀ q, t.part q = if q = p then { s.part q with faulting := true } else s.part q) ∧
    ∀ r, s.repart = some r → ∃ fs, t = { s with repart := some { r with faults := fs } } ∧ ∀ q, q ∈ fs ↔ q ∈ r.faults ∨ q = p
  let outside := fun (s t : State) =>
    t = { s with mem := t.mem, poison := t.poison, loose := t.loose, teams := t.teams, clusters := t.clusters, cores := t.cores } ∧
    (∀ x ∈ t.loose, x ∈ s.loose) ∧
    (∀ j, (Tab.find j t.teams).map Team.unaccessed = (Tab.find j s.teams).map Team.unaccessed) ∧
    (∀ c, (t.cluster c).uncached = (s.cluster c).uncached) ∧ ∀ c, (t.core c).uncached = (s.core c).uncached
  let onLaunch := fun (o : Host.Outcome State Fault Refusal) (s : State) (l : Nat) (la : Launch) =>
    ∃ t, o = .next t ∧ t = { s with launches := t.launches } ∧ (∀ j, j ≠ l → Tab.find j t.launches = Tab.find j s.launches) ∧
      Tab.find l t.launches = some la
  let bp := fun (la : Launch) (d : Debug) => { la with dbg := d }
  let onPart := fun (o : Host.Outcome State Fault Refusal) (s : State) (p : Nat) (x : Partition) =>
    ∃ t, o = .next t ∧ t = { s with parts := t.parts } ∧ ∀ q, t.part q = if q = p then x else s.part q
  (∀ (s : State) (p n : Nat) (a : Dword) (data : Option (List Byte)), serves s n a →
    (∃ line, lines a.toNat n line ∧ ¬ owned s p line) →
    ∃ t, exec (.cxlMemAccess p a n data) s = .next t ∧ faulted s t p) ∧
  (∀ (s : State) (p n : Nat) (a : Dword) (data : Option (List Byte)), ¬ serves s n a →
    exec (.cxlMemAccess p a n data) s = .next s) ∧
  (∀ (s : State) (p n : Nat) (a : Dword), serves s n a → (∀ line, lines a.toNat n line → owned s p line) →
    ((∃ line, lines a.toNat n line ∧ line ∈ s.poison) → ∃ t, exec (.cxlMemAccess p a n none) s = .next t ∧ faulted s t p) ∧
    ((∀ line, lines a.toNat n line → line ∉ s.poison ∧ calm s line) →
      ∃ t, exec (.cxlMemAccess p a n none) s = .next t ∧ outside { s with hostRead := t.hostRead } t ∧ t.poison = s.poison ∧
        t.hostRead = ((List.range n).map fun i => memRead s.mem (a.toNat + i)) ∧ ∀ x, memRead t.mem x = memRead s.mem x)) ∧
  (∀ (s : State) (p n : Nat) (a : Dword) (bs : List Byte), serves s n a → bs.length = n →
    (∀ line, lines a.toNat n line → owned s p line ∧ calm s line) →
    ∃ t, exec (.cxlMemAccess p a n (some bs)) s = .next t ∧ outside s t ∧
      (∀ x, memRead t.mem x = if a.toNat ≤ x ∧ x < a.toNat + n then bs.getD (x - a.toNat) 0 else memRead s.mem x) ∧
      ∀ line, line ∈ t.poison ↔ line ∈ s.poison ∧ ¬ (a.toNat ≤ 128 * line ∧ 128 * line + 128 ≤ a.toNat + n)) ∧
  (∀ (s : State) (line : Nat) (inval : Bool), line / 2 ^ 33 ≤ 24 → Tab.sorted s.clusters = true →
    ∃ t, exec (.cxlCacheSnoop line inval) s = .next t ∧ (∀ c, Tab.find line (t.cluster c).dirty = none) ∧
      (∀ c x, Tab.find line (s.cluster c).slice = some x → Tab.find line (t.cluster c).slice =
        if inval = true ∧ x.requested = false ∧ x.inBuffer = false ∧ x.holds = 0 then none else some { x with under := none }) ∧
      (∀ cl d, Tab.find line (s.cluster cl).dirty = some d → d.narrow = 0 → d.after = 0 →
        Tab.sorted (s.cluster cl).dirty = true → Tab.sorted d.bytes = true →
        (∀ b ∈ d.bytes, b.1 < 128) → (∀ c, c ≠ cl → Tab.find line (s.cluster c).dirty = none) →
        (∀ e ∈ s.clusters, Tab.find line e.2.wrote = none) →
        (∀ e ∈ s.teams, ∀ q ∈ e.2.pages, q.2.dirtyOf line = none) →
        ∀ x, memRead t.mem x = if x / 128 = line then s.seen cl x else memRead s.mem x)) ∧
  (∀ (s : State) (l i : Nat) (v : Dword) (u : Word) (la : Launch), Tab.find l s.launches = some la → la.dbg.taken = true → i < 8 →
    let d := la.dbg
    onLaunch (exec (.registerWrite (.bpAddr l i v)) s) s l (bp la { d with bpAddr := Tab.put i v d.bpAddr }) ∧
    onLaunch (exec (.registerWrite (.bpCtl l i u)) s) s l (bp la { d with bpCtl := Tab.put i u d.bpCtl }) ∧
    onLaunch (exec (.registerWrite (.wpAddr l i v)) s) s l (bp la { d with wpAddr := Tab.put i v d.wpAddr }) ∧
    onLaunch (exec (.registerWrite (.wpCtl l i u)) s) s l
      (bp la { d with wpCtl := Tab.put i (u &&& 0xE000000F#32) d.wpCtl }) ∧
    ∀ code on, ∃ d', onLaunch (exec (.registerWrite (.catchCode l code on)) s) s l (bp la d') ∧
      d' = { d with catches := d'.catches } ∧
      ∀ c, c ∈ d'.catches ↔ (c = code ∧ on = true) ∨ (c ≠ code ∧ c ∈ d.catches)) ∧
  (∀ (s : State) (q p : Nat) (v : Dword), (s.queue q).owner = some p → s.feature 2 = true ∨ p = 0 →
    ∃ t, exec (.registerWrite (.qsize q v)) s = .next t ∧ t = { s with queues := t.queues } ∧
      ∀ j, t.queue j = if j = q then { s.queue j with qsize := v.toNat / 2 ^ 32 % 16 } else s.queue j) ∧
  (∀ (s : State) (q : Nat) (v : Dword), (∀ p, (s.queue q).owner = some p → s.feature 2 = false ∧ p ≠ 0) →
    exec (.registerWrite (.qsize q v)) s = .next s) ∧
  (∀ (s : State) (port : Nat) (v : Dword) (r : Repart), s.repart = some r → r.step = 6 → port < 16 → linkOk r.new port v = true →
    let old := Tab.getD 1#64 port s.links
    let bit := fun (x : Dword) (i : Nat) => x.getLsbD i
    let field := fun (x : Dword) (i : Nat) => (bit x i, x.extractLsb' (4 * i + 8) 4, bit x (40 + i))
    let foreign := fun (i : Nat) => laneOwner s.layout port i ≠ 255 ∧ s.affected (laneOwner s.layout port i) = false
    let kept := ∀ i, i < 8 → foreign i → field v i = field old i ∧ (i < 7 → bit v (i + 1) = bit old (i + 1))
    (kept → ∃ t, exec (.registerWrite (.linkReg port v)) s = .next t ∧ t = { s with links := t.links } ∧
      ∀ q, Tab.getD 1#64 q t.links = if q = port then v else Tab.getD 1#64 q s.links) ∧
    (¬ kept → exec (.registerWrite (.linkReg port v)) s = .next s)) ∧
  (∀ (s : State) (port : Nat) (v : Dword), s.repart = none → exec (.registerWrite (.linkReg port v)) s = .next s) ∧
  (∀ (s : State) (p vb size pb : Nat) (r w x : Bool), size = 65536 ∨ size = 2097152 ∨ size = 1073741824 → vb % size = 0 →
    pb % size = 0 → vb < 2 ^ 56 → behind pb size →
    (∀ e ∈ (s.part p).ptes, vb + size ≤ e.vbase ∨ e.vbase + e.size ≤ vb) →
    onPart (exec (.registerWrite (.pageMap p vb size pb r w x)) s) s p
      { s.part p with ptes := (s.part p).ptes ++ [⟨vb, size, pb, r, w, x⟩] }) ∧
  (∀ (s : State) (p vb : Nat), onPart (exec (.registerWrite (.pageUnmap p vb)) s) s p
    { s.part p with ptes := (s.part p).ptes.filter fun e => e.vbase != vb }) ∧
  (∀ (s : State) (p off : Nat) (bs : List Byte), off + bs.length ≤ 131072 →
    ∃ t, exec (.registerWrite (.alcoveImage p off bs)) s = .next t ∧ t = { s with clusters := t.clusters } ∧
      ∀ c, t.cluster c = { s.cluster c with imem := (t.cluster c).imem } ∧ ∀ i, Tab.getD 0 i (t.cluster c).imem =
        if c < 64 ∧ s.layout.getD c 255 = p ∧ off ≤ i ∧ i < off + bs.length then bs.getD (i - off) 0
        else Tab.getD 0 i (s.cluster c).imem) ∧
  ∀ (s : State) (a : Nat) (bs : List Byte), a + bs.length ≤ 2 ^ 40 →
    (∀ line, (24 * 2 ^ 40 + a) / 128 ≤ line → line ≤ (24 * 2 ^ 40 + a + bs.length - 1) / 128 → calm s line) →
    ∃ t, exec (.registerWrite (.hostMem a bs)) s = .next t ∧ outside s t ∧
      (∀ line, line ∈ t.poison ↔ line ∈ s.poison ∧
        ¬ (24 * 2 ^ 40 + a ≤ 128 * line ∧ 128 * line + 128 ≤ 24 * 2 ^ 40 + a + bs.length)) ∧
      ∀ x, memRead t.mem x = if 24 * 2 ^ 40 + a ≤ x ∧ x < 24 * 2 ^ 40 + a + bs.length then bs.getD (x - (24 * 2 ^ 40 + a)) 0
        else memRead s.mem x

/-- R370, R353: a partition fault stops every wave, engine, handler and queue of its partition, discards its launches, jobs,
copies and packets, each to complete with DISCARDED unless an error is fixed, once its peer stores are acknowledged or lost
(R249, R385); it invalidates its caches without writing back, so that memory has again what stood below its dirty lines, and
raises the fault interrupt; other partitions are untouched, and a job's slot stays taken until it completes (R314). One found
during a REPART stops nothing until that command has ended. -/
def Obligations.PartitionFaultsDiscard : Prop :=
  let poisoned := fun (s t : State) (line : Option Nat) => ∀ x, x ∈ t.poison ↔ x ∈ s.poison ∨ line = some x
  let sorted := fun (s : State) => Tab.sorted s.waves = true ∧ Tab.sorted s.teams = true ∧ Tab.sorted s.jobs = true
  let within := fun (s : State) (p : Nat) (n : Nat) => ∃ tm la, Tab.find n s.teams = some tm ∧
    Tab.find tm.launch s.launches = some la ∧ la.part = p
  let cluster := fun (s : State) (p c : Nat) => c < 64 ∧ s.layout.getD c 255 = p
  let sliced := fun (s : State) (p : Nat) => ∀ c, cluster s p c → Tab.sorted (s.cluster c).slice = true
  let below := fun (s : State) (c line : Nat) => (Tab.find line (s.cluster c).slice).bind SliceLine.under
  (∀ (s : State) (p : Nat) (line : Option Nat), s.repart = none → sorted s →
    ∃ t, exec (.partitionFault p line) s = .next t ∧ poisoned s t line ∧
      t = { s with waves := t.waves, teams := t.teams, jobs := t.jobs, launches := t.launches, queues := t.queues, mem := t.mem,
                   cores := t.cores, clusters := t.clusters, parts := t.parts, poison := t.poison } ∧
      (∀ n, (within s p n → Tab.find n t.teams = none) ∧ (¬ within s p n → Tab.find n t.teams = Tab.find n s.teams)) ∧
      (∀ k w, Tab.find k s.waves = some w →
        (within s p w.team → Tab.find k t.waves = none) ∧ (¬ within s p w.team → Tab.find k t.waves = some w)) ∧
      (∀ j, Tab.find j t.jobs = (Tab.find j s.jobs).map fun x => if j / 16 = p then { x with tiles := [], experts := [] } else x) ∧
      (∀ l, Tab.find l t.launches = (Tab.find l s.launches).map fun la =>
        if la.part = p then { la with stage := 5, error := la.error <|> some (0x37, 0) } else la) ∧
      (∀ q, t.queue q = if (s.queue q).owner = some p then { s.queue q with err := true } else s.queue q) ∧
      (∀ c, (cluster s p (c / 4) → t.core c = { s.core c with pending := [], copy0 := [], copy1 := [], mx := Mx.fresh none,
                                                              mxSpilt := [], banksSpilt := [], l1 := [] }) ∧
        (¬ cluster s p (c / 4) → t.core c = s.core c)) ∧
      (∀ c, (cluster s p c → t.cluster c = { s.cluster c with queue := [], ctxs := [], classQ := [], slice := [], dirty := [],
                                                              wrote := [] }) ∧
        (¬ cluster s p c → t.cluster c = s.cluster c)) ∧
      (sliced s p → ∀ x,
        ((∀ c, cluster s p c → below s c (x / 128) = none) → memRead t.mem x = memRead s.mem x) ∧
        ∀ c bs, cluster s p c → below s c (x / 128) = some bs →
          (∀ c', cluster s p c' → c' ≠ c → below s c' (x / 128) = none) → memRead t.mem x = bs.getD (x % 128) 0) ∧
      ∀ q, t.part q = if q = p then { s.part q with reqs := [], fault := true, faulting := false } else s.part q) ∧
  (∀ (s : State) (p : Nat) (line : Option Nat) (r : Repart), s.repart = some r →
    ∃ t fs, exec (.partitionFault p line) s = .next t ∧ poisoned s t line ∧
      t = { s with repart := some { r with faults := fs }, poison := t.poison } ∧ ∀ q, q ∈ fs ↔ q ∈ r.faults ∨ q = p) ∧
  ∀ (s : State) (r : Repart), s.repart = some r → r.step = 1 →
    ∃ t, exec .repartTimeout s = .next t ∧ t = { s with repart := none, answer := .refused, parts := t.parts } ∧
      ∀ q, t.part q = if q ∈ r.faults then { s.part q with faulting := true } else s.part q

/-- R371, R373, R377, R129, R331, R332, R355, R360, R364, R369, R374 to R376, R380: the mailbox takes one command at a time, in
order of arrival, so one given while a REPART runs or another waits is left waiting, and taken later; one out of stage 6, or
before ACCEPT but for those that the mailbox then takes, ends REFUSED and changes nothing; otherwise each command sets what it
names and ends DONE, or answers REFUSED where its rule forbids, on any cluster of the partition. A SETQUEUE for which the
host-queue pool has nothing waits, and the first that can be served then is. UPDATE reads its image from host memory. The
UPDATE accepts exactly the images of R374: their length, format, version, zero fields, key and signature. The contents of the
image, the key and the certificate are open (log entry 4), as are the power reading (log entry 78) and what peer a lane
reaches (log entry 60). The model's choices are a SETQUEUE of a queue that holds packets (log entry 55), the numbers of the
pools (log entry 9), the reserved bits of a class control (log entry 56), the answer of FEATURES (log entry 66) and the box
of waiting commands (log entry 69). -/
def Obligations.MailboxCommands : Prop :=
  let unused := fun (s : State) => s.repart = none ∧ s.box = []
  let takes := fun (s : State) => unused s ∧ s.stage = 6 ∧ s.accepted.isSome = true
  let answers := fun (o : Host.Outcome State Fault Refusal) (s : State) (a : Answer) => o = .next { s with answer := a }
  let late := fun (i : Instr) (j : MailCmd) => (i = .telemetry ∧ j = .telemetry) ∨
    (∃ a b c d, i = .setpool a b c d ∧ j = .setpool a b c d) ∨ (∃ q p, i = .setqueue q p ∧ j = .setqueue q p) ∨
    (∃ p c, i = .alcove p c ∧ j = .alcove p c) ∨ (∃ q es, i = .setlink q es ∧ j = .setlink q es) ∨
    (∃ p b n, i = .faultq p b n ∧ j = .faultq p b n) ∨ (∃ p n, i = .setwait p n ∧ j = .setwait p n) ∨
    (∃ l n, i = .repart l n ∧ j = .repart l n) ∨ (∃ p ids, i = .preempt p ids ∧ j = .preempt p ids) ∨
    ∃ p ids, i = .resume p ids ∧ j = .resume p ids
  let early := fun (i : Instr) (j : MailCmd) => (i = .features ∧ j = .features) ∨ (∃ v, i = .accept v ∧ j = .accept v) ∨
    (∃ n, i = .attest n ∧ j = .attest n) ∨ (i = .idcert ∧ j = .idcert)
  let onPart := fun (o : Host.Outcome State Fault Refusal) (s : State) (p : Nat) (g : Partition → Partition) =>
    ∃ t, o = .next t ∧ t = { s with parts := t.parts, answer := .done } ∧
      ∀ q, t.part q = if q = p then g (s.part q) else s.part q
  let eachAlcove := fun (o : Host.Outcome State Fault Refusal) (s : State) (p : Nat) (g : Cluster → Cluster) =>
    ∃ t, o = .next t ∧ t = { s with clusters := t.clusters, answer := .done } ∧
      ∀ c, t.cluster c = if c < 64 ∧ s.layout.getD c 255 = p then g (s.cluster c) else s.cluster c
  let others := fun (s : State) (pool p : Nat) => (((List.range 16).filter (· ≠ p)).map fun i => (s.pool pool i).1).sum
  let held := fun (s : State) (q : Nat) => (s.queue q).doorbell ≠ (s.queue q).rdidx ∨ ∃ e ∈ s.launches, e.2.queue = some q
  let room := fun (s : State) (q p : Nat) => (s.queue q).owner = some p ∨ 0 < s.poolFree 8 p s.queuesOf
  let given := fun (t s : State) (q p : Nat) => t = { s with queues := t.queues, answer := .done } ∧
    ∀ j, t.queue j = if j = q then { s.queue j with owner := some p } else s.queue j
  (∀ (i : Instr) (j : MailCmd) (s : State), late i j ∨ early i j ∨ (∃ a, i = .update a ∧ j = .update a ∧ s.stage ≠ 1) →
    ¬ unused s → exec i s = .next { s with box := s.box ++ [j] }) ∧
  (∀ (i : Instr) (j : MailCmd) (s : State), late i j → unused s → s.stage ≠ 6 ∨ s.accepted = none →
    answers (exec i s) s .refused) ∧
  (∀ (i : Instr) (j : MailCmd) (s : State), early i j ∨ (∃ a, i = .update a ∧ j = .update a ∧ s.stage ≠ 1) → unused s →
    s.stage ≠ 6 → answers (exec i s) s .refused) ∧
  (∀ (i : Instr) (j : MailCmd) (s t : State) (rest : List MailCmd),
    late i j ∨ early i j ∨ (∃ a, i = .update a ∧ j = .update a) → s.box = j :: rest → s.repart = none →
    exec i { s with box := [] } = .next t → takeTurn .mailbox s = .next { t with box := rest }) ∧
  (∀ (s : State), s.repart.isSome = true → takeTurn .mailbox s = .next s) ∧
  (∀ (s : State) (pool p rsv cap : Nat), takes s →
    let legal := pool ≤ 8 ∧ pool ≠ 7 ∧ p < 16 ∧ others s pool p + rsv ≤ poolSize pool
    (¬ legal → answers (exec (.setpool pool p rsv cap) s) s .refused) ∧
    (legal → ∃ t, exec (.setpool pool p rsv cap) s = .next t ∧ t = { s with pools := t.pools, answer := .done } ∧
      ∀ a b, b < 16 → t.pool a b = if a = pool ∧ b = p then (rsv, cap) else s.pool a b)) ∧
  (∀ (s : State) (q p : Nat), takes s →
    let legal := q < 65536 ∧ p < 16 ∧ ¬ held s q
    (legal → room s q p → ∃ t, exec (.setqueue q p) s = .next t ∧ given t s q p) ∧
    (legal → ¬ room s q p → exec (.setqueue q p) s = .next { s with asks := s.asks ++ [(q, p)] }) ∧
    (¬ legal → answers (exec (.setqueue q p) s) s .refused)) ∧
  (∀ (s : State) (q p : Nat) (before after : List (Nat × Nat)), s.asks = before ++ (q, p) :: after →
    (∀ x ∈ before, ¬ room s x.1 x.2) → room s q p → unused s →
    (¬ held s q → ∃ t, takeTurn .ask s = .next t ∧ given t { s with asks := before ++ after } q p) ∧
    (held s q → takeTurn .ask s = .next { s with asks := before ++ after, answer := .refused })) ∧
  (∀ (s : State), ¬ unused s ∨ (∀ x ∈ s.asks, ¬ room s x.1 x.2) → takeTurn .ask s = .next s) ∧
  (∀ (s : State) (p cls : Nat) (v : Word), takes s → s.feature 5 = true →
    let rsv := fun (w : Word) => w.toNat / 2 ^ 20 % 16
    let cap := fun (w : Word) => w.toNat / 2 ^ 24 % 16
    let others := fun (c : Nat) =>
      (((List.range 4).filter (· ≠ cls)).map fun j => rsv (Tab.getD 0 j (s.cluster c).control)).sum
    let legal := cls < 4 ∧ cap v ≤ 8 ∧ rsv v ≤ cap v ∧ (∀ c, c < 64 → s.layout.getD c 255 = p → others c + rsv v ≤ 8) ∧
      (v.getLsbD 31 = true → 1 ≤ v.toNat % 2 ^ 13 ∧ v.toNat % 2 ^ 13 ≤ 4096)
    (legal → eachAlcove (exec (.alcove p (.control cls v)) s) s p
      fun c => { c with control := Tab.put cls (v &&& 0x8FF01FFF#32) c.control }) ∧
    (¬ legal → answers (exec (.alcove p (.control cls v)) s) s .refused)) ∧
  (∀ (s : State) (p cls idx : Nat) (r : BitVec 256), takes s → s.feature 5 = true →
    let base := fun (x : BitVec 256) => (bits x 192 64).toNat
    let len := fun (x : BitVec 256) => (bits x 128 64).toNat
    let entry := (bits r 96 32).toNat
    let apart := ∀ c, c < 64 → s.layout.getD c 255 = p → ∀ j, j < 16 → j ≠ idx → ∀ x g,
      Tab.find (16 * cls + j) (s.cluster c).regs = some (x, g) → x.getLsbD 31 = true →
      base r + len r ≤ base x ∨ base x + len x ≤ base r
    let legal := cls < 4 ∧ idx < 16 ∧ entry % 2 = 0 ∧ entry < 131072 ∧ (cls = 3 → base r = 0 ∧ len r = 0) ∧
      (cls ≠ 3 → base r % 65536 = 0 ∧ len r % 65536 = 0 ∧ (r.getLsbD 31 = true → apart))
    let kept := r &&& BitVec.ofNat 256 (2 ^ 256 - 2 ^ 96 + 2 ^ 31)
    let pages := len r / 65536
    let va := fun (i : Nat) => base r + 65536 * i
    let mapped := fun (i pa : Nat) => classify (addr (va i)) = .global (va i) ∧ (s.translate p (va i)).map (·.2) = some pa
    (¬ legal → answers (exec (.alcove p (.register cls idx r)) s) s .refused) ∧
    (legal → r.getLsbD 31 = false → eachAlcove (exec (.alcove p (.register cls idx r)) s) s p
      fun c => { c with regs := Tab.put (16 * cls + idx) (kept, []) c.regs }) ∧
    (legal → r.getLsbD 31 = true → (∃ i, i < pages ∧ ∀ pa, ¬ mapped i pa) →
      answers (exec (.alcove p (.register cls idx r)) s) s .refused) ∧
    (legal → r.getLsbD 31 = true → ∀ (pa : Nat → Nat), (∀ i, i < pages → mapped i (pa i)) →
      eachAlcove (exec (.alcove p (.register cls idx r)) s) s p fun c =>
        { c with regs := Tab.put (16 * cls + idx) (kept, (List.range pages).map fun i => (va i, pa i, 65536)) c.regs })) ∧
  (∀ (s : State) (p : Nat) (cmd : AlcoveCmd), takes s → s.feature 5 = false → answers (exec (.alcove p cmd) s) s .refused) ∧
  (∀ (s : State) (port : Nat) (es : List (Nat × Nat × BitVec 16)), takes s →
    let mine := fun (p q : Nat) => (List.range 8).filter fun l => s.subLink q l == some p
    let one := fun (p : Nat) (m : BitVec 16) => (∀ q, q < 16 → m.getLsbD q = true → (mine p q).length = 1) ∧
      ∀ q q' l l', q < 16 → q' < 16 → m.getLsbD q = true → m.getLsbD q' = true → l ∈ mine p q → l' ∈ mine p q' →
        Config.peerDevice q l = Config.peerDevice q' l'
    let legal := s.feature 4 = true ∧ port < 16 ∧
      ∀ e ∈ es, e.1 < 16 ∧ e.2.1 < 256 ∧ (e.2.2 = 0 ∨ e.2.2.getLsbD port = true) ∧ one e.1 e.2.2
    (legal → ∃ t, exec (.setlink port es) s = .next t ∧ t = { s with parts := t.parts, answer := .done } ∧
      ∀ q, t.part q = { s.part q with
        peers := (es.filter fun e => e.1 == q).foldl (fun t e => Tab.put e.2.1 e.2.2 t) (s.part q).peers }) ∧
    (¬ legal → answers (exec (.setlink port es) s) s .refused)) ∧
  (∀ (s : State) (p n : Nat) (b : Dword), takes s →
    onPart (exec (.faultq p b n) s) s p fun x => { x with ring := some (b.toNat, n) }) ∧
  (∀ (s : State) (p n : Nat), takes s →
    (256 ≤ n → n ≤ 2 ^ 24 → onPart (exec (.setwait p n) s) s p fun x => { x with wait := n }) ∧
    (n < 256 ∨ 2 ^ 24 < n → answers (exec (.setwait p n) s) s .refused)) ∧
  (∀ (s : State), unused s → s.stage = 6 →
    answers (exec .features s) s (.words [0x1FF, 0, 0, 0]) ∧ answers (exec .idcert s) s (.bytes Config.identityCert) ∧
    (∀ v, s.accepted.isSome = true ∨ v &&& ~~~offered ≠ 0 → answers (exec (.accept v) s) s .refused) ∧
    (∀ v, s.accepted = none → v &&& ~~~offered = 0 → exec (.accept v) s = .next { s with accepted := some v, answer := .done }) ∧
    ∀ (nonce : List Byte), nonce.length = 64 → ∃ bs sg, answers (exec (.attest nonce) s) s (.bytes (bs ++ sg)) ∧
      bs = leBytes 4 1 ++ leBytes 4 (leNat (((s.running.bytes).drop 4).take 4)) ++ nonce ++
        sha512 (s.running.bytes.take 256 ++ s.running.bytes.drop 512) ++ leBytes 16 (s.accepted.getD 0).toNat ++
        leBytes 8 s.commit.2 ++ (s.layout.flatMap fun b => leBytes 1 b) ++ leBytes 4 0 ∧
      sg = (let x := ecSign (1 + Config.identityKey % (ecN - 1)) (1 + Config.signNonce (sha512 bs) % (ecN - 1)) (beNat (sha512 bs))
        beBytes 66 x.1 ++ beBytes 66 x.2)) ∧
  (∀ (s : State), takes s → ∃ ws, exec .telemetry s = .next { s with answer := .words ws, frees := s.frees + 1 } ∧
    ws.length = 257 ∧ ∀ c, c < 256 → ws[c]? =
      some (BitVec.ofNat 32 ((s.core c).vmv % 2 ^ 12 * 2 ^ 16 + (s.core c).fstep % 2 ^ 8)) ∧ ws[256]? =
      some (BitVec.ofNat 32 (1000 * Config.packagePower ((List.range 256).map fun c => ((s.core c).fstep, (s.core c).vmv)) s.frees))) ∧
  ∀ (s : State) (a : Nat), s.stage = 1 ∨ (unused s ∧ s.stage = 6) →
    let h := s.hostImage a
    let pa := 24 * 2 ^ 40 + a
    let len := leNat (memReads s.mem (pa + 8) 8)
    let n := if len ≤ 2 ^ 26 ∧ a + 512 + len ≤ 2 ^ 40 then 512 + len else 512
    (imageOk h.1 = true → exec (.update a) s = .next { h.2 with flash := .image h.1, answer := .done }) ∧
    (imageOk h.1 = false → exec (.update a) s = .next { h.2 with answer := .refused }) ∧
    ((∀ line, pa / 128 ≤ line → line ≤ (pa + n - 1) / 128 →
        (∀ e ∈ s.clusters, Tab.find line e.2.dirty = none ∧ Tab.find line e.2.wrote = none) ∧
        ∀ e ∈ s.teams, ∀ q ∈ e.2.pages, q.2.dirtyOf line = none) →
      h.1 = memReads s.mem pa n ∧ ∀ x, memRead h.2.mem x = memRead s.mem x) ∧
    ∀ (img : List Byte),
      let field := fun (i m : Nat) => (img.drop i).take m
      let size := leNat (field 8 8)
      imageOk img = true ↔ img.length = 512 + size ∧ size % 4096 = 0 ∧ size ≤ 2 ^ 26 ∧ leNat (field 0 4) = 1 ∧
      (∀ i, (148 ≤ i ∧ i < 256) ∨ (388 ≤ i ∧ i < 512) → img.getD i 0 = 0) ∧
      sha512 (field 16 132) = Config.fusedDigest ∧ Config.minSvn ≤ leNat (field 4 4) ∧
      ecVerify (beNat (field 16 66), beNat (field 82 66)) (beNat (field 256 66)) (beNat (field 322 66))
        (beNat (sha512 (img.take 256 ++ img.drop 512))) = true

/-- R356 to R359, R191, R221, R370: a REPART whose layout is legal is accepted and goes on step by step: once no team stands
on a cluster that leaves, it is refused, with nothing changed, or it pre-empts every launch of the affected partitions and
spills its waves and pages; once that has ended it spills engines and banks and flushes, writes its record, then the digest,
then the stops and zeroed memory of phase two, with what moves as fresh, and commits, with the banks that it spilt back where
they stood (R189). A watchdog reset rolls forward exactly when the free slot holds the complete record one above the committed
SEQ, and back otherwise, every stop then carrying the committed layout. What was held is released at the end, and the faults
found meanwhile are applied. An illegal layout is REFUSED (log entry 55), banks are spilt under their launch and pending
images committed (log entry 61), a roll back resumes what log entry 63 says, and the timeout is an event of its own (log entry
64). -/
def Obligations.RepartitionIsAtomic : Prop :=
  let takes := fun (s : State) => s.repart = none ∧ s.box = [] ∧ s.stage = 6 ∧ s.accepted.isSome = true
  let owner := fun (l : List Nat) (i : Nat) => l.getD i 255
  let legal := fun (l : List Nat) => l.length = 216 ∧ (∀ b ∈ l, b < 16 ∨ b = 255) ∧
    ∀ b ∈ l, b ≠ 255 → b ∈ l.take 64 ∧ b ∈ (l.drop 64).take 16
  let free := fun (s : State) => if s.commit.1 = 0 then s.slot1 else s.slot0
  let affected := fun (s : State) (new : List Nat) (p : Nat) =>
    p < 16 ∧ ∃ i, i < 216 ∧ owner s.layout i ≠ owner new i ∧ (owner s.layout i = p ∨ owner new i = p)
  let onCluster := fun (s : State) (new : List Nat) (c : Nat) => c < 64 ∧ affected s new (owner s.layout c)
  let ended := fun (s t : State) (fs : List Nat) (a : Answer) => t.repart = none ∧ t.answer = a ∧
    ∀ q, t.part q = if q ∈ fs then { s.part q with faulting := true } else s.part q
  let refused := fun (s : State) (r : Repart) (o : Host.Outcome State Fault Refusal) => ∃ t, o = .next t ∧
    t = { s with repart := none, answer := .refused, parts := t.parts } ∧ ended s t r.faults .refused
  let committed := fun (s t : State) (new : List Nat) =>
    t.layout = new ∧ t.commit = (1 - s.commit.1, s.commit.2 + 1) ∧ t.repart = none ∧ t.answer = .committed
  let stops := fun (s t : State) (new : List Nat) (epoch : Nat) => ∀ i, i < 216 → owner s.layout i ≠ owner new i →
    Tab.find i t.conns = if owner new i = 255 then none else some (epoch % 65536, owner new i)
  let zeroed := fun (s t : State) (new : List Nat) => ∀ a, a / 2 ^ 40 < 24 →
    owner s.layout (64 + a / 2 ^ 40) ≠ owner new (64 + a / 2 ^ 40) → memRead t.mem a = 0
  let slots := fun (s t : State) (step : Nat) (r : Repart) =>
    t = { s with slot0 := t.slot0, slot1 := t.slot1, repart := some { r with step := step } } ∧
      if s.commit.1 = 0 then t.slot0 = s.slot0 else t.slot1 = s.slot1
  let ids := fun (s : State) (r : Repart) => r.quiet.filterMap fun l => (Tab.find l s.launches).map Launch.id
  (∀ (s : State) (l : List Nat) (n : Nat), takes s →
    let ok := legal l ∧ (s.feature 3 = true ∨ ∀ b ∈ (l.drop 80).take 8, b = 255)
    (ok → exec (.repart l n) s = .next { s with repart := some ⟨l, 1, [], [], []⟩ }) ∧
    (¬ ok → exec (.repart l n) s = .next { s with answer := .refused })) ∧
  (∀ (s : State) (r : Repart), s.repart = some r → r.step = 1 →
    let leaving := ∃ n tm, (n, tm) ∈ s.teams ∧ owner s.layout (clusterOf tm.core) ≠ owner r.new (clusterOf tm.core)
    refused s r (exec .repartTimeout s) ∧
    (leaving → exec .repartDrainEnd s = .next s) ∧
    (¬ leaving → s.repartRefused r.new = true → refused s r (exec .repartDrainEnd s)) ∧
    (¬ leaving → s.repartRefused r.new = false → Tab.sorted s.launches = true → Tab.sorted s.teams = true →
      Tab.sorted s.waves = true →
      ∃ t ls, exec .repartDrainEnd s = .next t ∧ t.repart = some { r with step := 2, quiet := ls } ∧ t.layout = s.layout ∧
        t.commit = s.commit ∧ t.slot0 = s.slot0 ∧ t.slot1 = s.slot1 ∧ t.conns = s.conns ∧
        (∀ l, l ∈ ls ↔ ∃ la, Tab.find l s.launches = some la ∧ affected s r.new la.part ∧ la.isLaunch = true ∧ la.parked = false) ∧
        (∀ l la, Tab.find l s.launches = some la →
          Tab.find l t.launches = some (if l ∈ ls then { la with parked := true } else la)) ∧
        ∀ n tm la, Tab.find n s.teams = some tm → Tab.find tm.launch s.launches = some la → affected s r.new la.part →
          (∀ k w, Tab.find k s.waves = some w → w.team = n → (Tab.find k t.waves).map Wave.spilt = some true) ∧
          ∀ p, p < tm.window / 4096 → (Tab.find n t.teams).map (fun x => x.away p) = some true)) ∧
  (∀ (s : State) (r : Repart), s.repart = some r → r.step ≠ 1 → exec .repartTimeout s = .next s) ∧
  (∀ (s : State) (r : Repart), s.repart = some r → r.step = 2 →
    (s.quietNow = false → exec .repartDrainEnd s = .next s) ∧
    (s.quietNow = true → ∃ t bs, exec .repartDrainEnd s = .next t ∧
      t = { s with mem := t.mem, clusters := t.clusters, cores := t.cores, teams := t.teams, waves := t.waves,
                   repart := some { r with step := 3, banks := bs } } ∧
      (∀ c, onCluster s r.new c → (t.cluster c).dirty = []) ∧
      (∀ c, ¬ onCluster s r.new (c / 4) → (t.core c).uncached = (s.core c).uncached) ∧
      ∀ c, onCluster s r.new (c / 4) → (t.core c).mx = (if (s.core c).mx.holder = none then (s.core c).mx else Mx.fresh none) ∧
        (t.core c).pending = [] ∧
        (∀ n, (s.core c).mx.holder = some n → Tab.find n (t.core c).mxSpilt = some (s.core c).mx) ∧
        ∀ b l la, b < 2 → (s.core c).pending = [] → Tab.sorted s.launches = true → Tab.find l s.launches = some la →
          ((s.core c).bank b).owner = some la.id → (∀ e ∈ s.launches, e.2.id = la.id → e.1 = l) →
          Tab.find (2 * l + b) (t.core c).banksSpilt = some ((s.core c).bank b) ∧ (t.core c).bank b = Bank.empty ∧
          (c, 2 * l + b) ∈ bs)) ∧
  (∀ (s : State) (r : Repart), s.repart = some r → r.step = 3 →
    ∃ t, exec .repartDrainEnd s = .next t ∧ slots s t 4 r ∧
      free t = ⟨s.commit.2 + 1, s.layout, r.new, ids s r, List.replicate 64 0⟩) ∧
  (∀ (s : State) (r : Repart), s.repart = some r → r.step = 4 →
    ∃ t, exec .repartDrainEnd s = .next t ∧ slots s t 5 r ∧
      free t = ⟨s.commit.2 + 1, s.layout, r.new, ids s r, sha512 (journalBytes (s.commit.2 + 1) s.layout r.new (ids s r))⟩) ∧
  (∀ (s : State) (r : Repart), s.repart = some r → r.step = 5 → Tab.sorted s.mem = true →
    ∃ t, exec .repartDrainEnd s = .next t ∧ t.repart = some { r with step := 6 } ∧ t.layout = s.layout ∧ t.commit = s.commit ∧
      t.waves = s.waves ∧ t.teams = s.teams ∧ t.launches = s.launches ∧
      stops s t r.new (s.commit.2 + 1) ∧ zeroed s t r.new ∧
      (∀ c, c < 64 → owner s.layout c ≠ owner r.new c →
        t.cluster c = { Cluster.fresh with cycle := (s.cluster c).cycle, releases := (s.cluster c).releases }) ∧
      (∀ c, c < 256 → owner s.layout (c / 4) ≠ owner r.new (c / 4) → t.core c =
        { Core.fresh with clock := (s.core c).clock, fstep := (s.core c).fstep, vmv := (s.core c).vmv }) ∧
      (∀ p, affected s r.new p → p ∉ s.layout.take 64 ∨ p ∉ r.new.take 64 → t.part p = Partition.fresh) ∧
      ∀ q, q < 16 → linkOk r.new q (Tab.getD 1#64 q s.links) = true → Tab.find q t.links = Tab.find q s.links) ∧
  (∀ (s : State) (r : Repart), s.repart = some r → r.step = 6 →
    ∃ t, exec .repartDrainEnd s = .next t ∧ committed s t r.new ∧ ended s t r.faults .committed ∧ t.mem = s.mem ∧
      t.conns = s.conns ∧
      (∀ c b l x, b < 2 → (c, 2 * l + b) ∈ r.banks → (∀ y ∈ r.banks, y.1 = c → y.2 % 2 = b → y.2 = 2 * l + b) →
        Tab.find (2 * l + b) (s.core c).banksSpilt = some x → ((s.core c).bank b).owner = none → (t.core c).bank b = x) ∧
      ∀ l la, Tab.find l s.launches = some la →
        (l ∈ r.quiet → Tab.find l t.launches = some { la with parked := false }) ∧
        (l ∉ r.quiet → Tab.find l t.launches = some la)) ∧
  (∀ (s : State), Tab.sorted s.mem = true → Tab.sorted s.conns = true → Tab.sorted s.launches = true →
    let rec' := free s
    let forward := rec'.digest = sha512 (journalBytes rec'.seq rec'.old rec'.new rec'.qlist) ∧ rec'.seq = s.commit.2 + 1
    let cut := (s.repart.map Repart.step) = some 4
    (forward → ∃ t, exec .watchdogReset s = .next t ∧ committed s t rec'.new ∧ stops s t rec'.new (s.commit.2 + 1) ∧
      zeroed s t rec'.new ∧ ∀ l la, Tab.find l s.launches = some la →
        Tab.find l t.launches = some (if la.id ∈ rec'.qlist then { la with parked := false } else la)) ∧
    (¬ forward → ∃ t, exec .watchdogReset s = .next t ∧ t.layout = s.layout ∧ t.commit = s.commit ∧ t.mem = s.mem ∧
      ended s t ((s.repart.map Repart.faults).getD []) (if s.repart.isSome = true then .rolledBack else s.answer) ∧
      (∀ l la, Tab.find l s.launches = some la →
        let back := if cut then la.id ∈ rec'.qlist else la.part ∈ s.layout.take 64
        (back → Tab.find l t.launches = some { la with parked := false }) ∧ (¬ back → Tab.find l t.launches = some la)) ∧
      ∀ i, i < 216 → Tab.find i t.conns =
        if owner s.layout i = 255 then none else some (s.commit.2 % 65536, owner s.layout i)))

/-- R373, R375, R378 to R380: a device reset leaves the reset state with the image in flash running, at stage 6 where that
image boots and in stage 1 otherwise; host memory is not the device's, so that it is kept, and device memory reads 0 again
(log entry 65, with log entry 2). The voltage, frequency and power loops move a core's supply and clock within their ranges,
to values that the spec leaves open (log entry 1), and nothing else; a target above the lowest keeps the package within its
2.2 kW, its power being a free value of targets and supplies (log entry 78); equalisation changes timing only. -/
def Obligations.ResetAndControlLoops : Prop :=
  let core := fun (s : State) (c : Nat) (x : Core) (t : State) => t = { s with cores := t.cores, frees := s.frees + 1 } ∧
    t.core c = x ∧ ∀ j, j ≠ c → t.core j = s.core j
  let power := fun (s : State) (c f : Nat) => Config.packagePower
    ((List.range 256).map fun j => (if j = c then f else (s.core j).fstep, (s.core j).vmv)) s.frees
  (∀ (s : State), ∃ t, exec .deviceReset s = .next t ∧
    t = { State.reset with mem := t.mem, flash := s.flash, running := s.flash, stage := if s.flash.boots then 6 else 1,
                           agenda := s.agenda, choices := s.choices, frees := s.frees } ∧
    (Tab.sorted s.mem = true → ∀ a, memRead t.mem a = if a / 2 ^ 40 = 24 then memRead s.mem a else 0)) ∧
  (∀ (s : State) (c : Nat), c < 256 →
    (∃ t v, exec (.voltageLoop c) s = .next t ∧ core s c { s.core c with vmv := v } t ∧ 300 ≤ v ∧ v ≤ 450) ∧
    ∀ i, i = Instr.frequencyLoop c ∨ i = .powerLoop c → ∃ t f, exec i s = .next t ∧
      core s c { s.core c with fstep := f } t ∧ 1 ≤ f ∧ f ≤ 64 ∧ (f = 1 ∨ power s c f ≤ 2200)) ∧
  ∀ (s : State) (port lane : Nat), exec (.equalisation port lane) s = .next s

/-! ### The whole machine -/

/-- R26, R41, R140, R141, R218, R226, R328: when it is the turn of a ready fragment that no breakpoint stops, and that does
not wait or whose wait is over, a step fetches its instruction and, when its words decode to an instruction, is exec of that
instruction, with the fragment as the one that issues; unassigned opcodes and broken fields trap, and a word that cannot be
fetched traps with its address; one that a stop blocks is a partition fault. A word that the core holds for the fragment is
run in place of the word in memory (R218). Besides naming the fragment, the issue takes the turn off the agenda, counts the
cycles that other fragments have waited, brings the fetched lines to where they can be read, and has the core hold the words
fetched; the core may give up any such word: that it holds every word fetched, and may give up any, is log entry 21's. A
fragment that waits is passed over unless its instruction gets on (log entry 74), and a quadrant issues from the fragment that
R140 and R141 put first (log entry 88). The context of an Alcove whose turn it is runs the instruction at its PC. Any other
turn that names an event is exec of that event. -/
def Obligations.StepRunsDecodedInstruction : Prop :=
  (∀ (s : State) (k i : Nat) (rest : List Turn) (w : Wave) (fr : Frag), s.agenda = .issue k i :: rest →
    let a : State := { s with agenda := rest }
    a.ready k i = true → a.goes (k, i) = true →
    Tab.find k s.waves = some w → w.frags[i]? = some fr → s.breakpoint w fr = none →
    let who := s.whoOf k w
    let u := { a.passOver k i with cur := some (k, i) }
    let v := u.fetchPrep who fr.held fr.pc
    v = { a with cur := some (k, i), waves := v.waves, teams := v.teams, clusters := v.clusters, cores := v.cores, mem := v.mem } ∧
    (∀ ws, v.fetchIns who fr.held fr.pc = .words ws → ∃ x held w', x = { v with waves := x.waves } ∧
      Issues x k i w' { fr with readyFor := 0, held := held } ∧ w' = { w with frags := w'.frags } ∧
      w'.frags.length = w.frags.length ∧ (∀ j y, ws[j]? = some y → Tab.find (fr.pc + 4 * BitVec.ofNat 64 j).toNat held = some y) ∧
      (∀ a, (∀ j, j < ws.length → a ≠ (fr.pc + 4 * BitVec.ofNat 64 j).toNat) → Tab.find a held = Tab.find a fr.held) ∧
      (∀ j, decode ws = .ok j → step s = exec j x) ∧
      (decode ws = .illegalOpcode → step s = .next ((x.tick (coreOf k)).trapIssue k i w
        { code := 0x01, lane := (lanesOf fr.mask).headD 0, info := ws.headD 0 })) ∧
      (decode ws = .illegalEncoding → step s = .next ((x.tick (coreOf k)).trapIssue k i w
        { code := 0x02, lane := (lanesOf fr.mask).headD 0, info := ws.headD 0 }))) ∧
    (∀ c sub a, v.fetchIns who fr.held fr.pc = .bad c sub a → step s = .next ((v.tick (coreOf k)).trapIssue k i w
      { code := c, sub := sub, lane := (lanesOf fr.mask).headD 0, addr := a })) ∧
    (v.fetchIns who fr.held fr.pc = .broken → step s = .next (v.foundFault (s.partOf w)))) ∧
  (∀ (s : State) (who : Who) (held : Tab Word) (pc : Dword) (ws : List Word), ws.length = instrWords (ws.headD 0) →
    (∀ j x, ws[j]? = some x → ∃ va e pa, classify (pc + BitVec.ofNat 64 (4 * j)) = .global va ∧
      s.translate who.part va = some (e, pa) ∧ e.x = true ∧
      (Tab.find (pc + BitVec.ofNat 64 (4 * j)).toNat held = some x ∨
        Tab.find (pc + BitVec.ofNat 64 (4 * j)).toNat held = none ∧
        s.packetBreaks who.part (pc + BitVec.ofNat 64 (4 * j)) true = false ∧
        ∀ b, b < 4 → s.seen who.cl (pa + b) = x.extractLsb' (8 * b) 8)) →
    s.fetchIns who held pc = .words ws) ∧
  (∀ (s : State) (k i : Nat) (rest : List Turn), s.agenda = .issue k i :: rest →
    let a : State := { s with agenda := rest }
    a.ready k i = false ∨ a.goes (k, i) = false → step s = .next a) ∧
  (∀ (s : State) (k i : Nat) (a : Dword) (rest : List Turn) (w : Wave) (fr : Frag), s.agenda = .giveUp k i a :: rest →
    Tab.find k s.waves = some w → w.frags[i]? = some fr →
    ∃ t w' held, step s = .next t ∧ t = { s with agenda := rest, waves := t.waves } ∧ Tab.find k t.waves = some w' ∧
      (∀ n, n ≠ k → Tab.find n t.waves = Tab.find n s.waves) ∧ w' = { w with frags := w'.frags } ∧ OtherFrags w w' i ∧
      w'.frags[i]? = some { fr with held := held } ∧ Tab.find a.toNat held = none ∧
      ∀ n, n ≠ a.toNat → Tab.find n held = Tab.find n fr.held) ∧
  (∀ (s : State) (j : Instr) (rest : List Turn), s.agenda = .event j :: rest → step s = exec j { s with agenda := rest }) ∧
  (∀ (s : State) (core q k i : Nat) (rest : List Turn), s.agenda = .quad core q :: rest →
    let a : State := { s with agenda := rest }
    let starved := (a.starved core q).filter a.goes
    let ready := (a.quadReady core q).filter a.goes
    a.first (if starved = [] then ready else starved) = some (k, i) → step s = step { s with agenda := .issue k i :: rest }) ∧
  ∀ (s : State) (cl ctx : Nat) (h : HCtx) (rest : List Turn), s.agenda = .alcove cl ctx :: rest →
    Tab.find ctx (s.cluster cl).ctxs = some h → (s.part (s.layout.getD cl 255)).faulting = false →
    let a : State := { s with agenda := rest }
    ((s.cluster cl).nextCtx ≠ some ctx → step s = .next a) ∧
    ((s.cluster cl).nextCtx = some ctx →
      (∀ j, (s.cluster cl).fetch cl ctx h = .ext j → step s = exec j a) ∧
      ∀ len j, (s.cluster cl).fetch cl ctx h = .base len j → step s = exec (.handlerInstruction cl ctx len j) a)

/-- R32, R33, R163, R216, R41: a REP body's forbidden instruction, or a SYSW to trap.pc outside a handler, traps with
ILLEGAL_ENCODING; after that check, an instruction that names a register of the extended row without the hold traps with
EXT_NOT_HELD and its lowest such register; in every case before it has any effect but the cycles it takes. -/
def Obligations.ChecksBeforeEffects : Prop :=
  ∀ (j : Instr) (s : State) (k i : Nat) (w : Wave) (fr : Frag), j.wellFormed = true → j.form ≠ .event → Issues s k i w fr →
    let x := insOf j
    let low := (lanesOf fr.mask).headD 0
    let sysw := x.op = 0x1E4 ∧ x.f.imm.toNat = 4 ∧ w.handlerFlag = false
    ((fr.rep.isSome = true ∧ repForbidden x.op = true) ∨ sysw → exec j s = .next ((s.tick (coreOf k)).trapIssue k i w
      { code := 0x02, lane := low, info := x.word })) ∧
    (Placed x w fr → w.ext = false → ∀ r, lowestExt x.op x.f = some r →
      exec j s = .next ((s.tick (coreOf k)).trapIssue k i w { code := 0x03, lane := low, info := BitVec.ofNat 32 r }))

/-- R25 to R30, R54, R56, R59: words written out bit by bit from the encoding tables decode to the instructions they stand
for. The four forms of operand B: a literal stands for it, by its low bits; in an immediate twin it is the sign-extended
IMM18, and a B32 immediate form reads as that twin with the sign-extended imm7; otherwise it is the register or the pair, low
word first. -/
def Obligations.WordsAndOperandForms : Prop :=
  let x : XF := ⟨none, false, false, 0, 0, 0, 0, 0, 0, 0, 0, Guard.none, 0⟩
  decode [0x0E182830#32] = .ok (.isubB32 ⟨none, false, false, 5, 6, 7⟩) ∧
  decode [0x00182813#32, 0x00012345#32, 0#32] = .ok (.iaddB32 ⟨some 0x12345#64, false, false, 5, 6, 0⟩) ∧
  decode [0x00C14411#32, 0x0A000000#32, 0xFFFF4003#32] =
    .ok (.iaddImm { x with d := 5, a := 6, t := 2, g := { Guard.none with ge0 := true, g0 := 3 }, imm := 0x3FFFD#18 }) ∧
  decode [0x00422031#32, 0x02000180#32, 0#32] = .ok (.ldbf { x with d := 8, a := 2, c := 3, t := 2 }) ∧
  decode [0x020A2A01#32, 0#32, 0x00008000#32] = .ok (.push { x with d := 40, a := 16, imm := 2 }) ∧
  decodeExt 0 0 0xFF85850B#32 = some (.alLdw 0 0 10 11 0xFF8) ∧ decodeExt 0 0 0x0020400B#32 = some (.alEnd 0 0 0 0 2) ∧
  decode [0x3F1#32, 0#32, 0#32] = .illegalOpcode ∧ decode [0x00C14011#32, 0x02000007#32, 0x4000#32] = .illegalEncoding ∧
  (∀ (f : XF) (op : Nat) (k i l : Nat) (w : Wave) (fr : Frag) (v : Dword), f.lit = some v →
    (⟨k, w, i, fr, Ins.ofX op f⟩ : Ctx).bitsB l = v.setWidth _) ∧
  (∀ (f : XF) (op : Nat) (k i l : Nat) (w : Wave) (fr : Frag), f.lit = none →
    let c : Ctx := ⟨k, w, i, fr, Ins.ofX op f⟩
    (isTwin op = true → c.bitsB l = f.imm.signExtend _) ∧
    (isTwin op = false → typeWords c = 1 → c.opB 1 l = (w.reg f.b.toNat l).toNat) ∧
    (isTwin op = false → typeWords c = 2 → c.opB 2 l = (w.reg (f.b.toNat + 1) l ++ w.reg f.b.toNat l).toNat)) ∧
  (∀ (f : BF) (op : Nat) (r : BRow) (k i l : Nat) (w : Wave) (fr : Frag), bRow op = some r → f.lit = none →
    let c : Ctx := ⟨k, w, i, fr, Ins.ofB op f⟩
    (isTwin r.op10 = true → c.bitsB l = f.b.signExtend _) ∧
    (isTwin r.op10 = false → r.imm = false → typeWords c = 1 → c.opB 1 l = (w.reg f.b.toNat l).toNat)) ∧
  ∀ (f : BF) (op : Nat) (r : BRow) (k i l : Nat) (w : Wave) (fr : Frag) (v : Dword), bRow op = some r → f.lit = some v →
    (⟨k, w, i, fr, Ins.ofB op f⟩ : Ctx).bitsB l = v.setWidth _

/-- R25 to R30, R41, R59, R337: the words of every well-formed instruction decode to it, with every operand at every value,
whatever follows them; and words that decode to an instruction are its words, so that no bit of an encoding is dropped. -/
def Obligations.DecodeInvertsEncode : Prop :=
  (∀ (i : Instr), i.wellFormed = true → i.form ≠ .event → ∀ rest, decode (encode i ++ rest) = .ok i) ∧
  (∀ (ws : List Word) (i : Instr), decode ws = .ok i →
    i.wellFormed = true ∧ i.form ≠ .event ∧ encode i = ws.take (instrWords (ws.headD 0))) ∧
  (∀ (i : Instr) (cl ctx : Nat) (a b : BitVec 5) (m : BitVec 12), i.wellFormed = true →
    i = .alLdw cl ctx a b m ∨ i = .alStw cl ctx a b m ∨ i = .alFetch cl ctx a b m ∨ i = .alDrop cl ctx a b m ∨
      i = .alArg cl ctx a b m ∨ i = .alSend cl ctx a b m ∨ i = .alEnd cl ctx a b m →
    ∃ w, encode i = [w] ∧ decodeExt cl ctx w = some i) ∧
  ∀ (cl ctx : Nat) (w : Word) (i : Instr), decodeExt cl ctx w = some i → encode i = [w] ∧ i.wellFormed = true

/-- The memory keeps its canonical form: addresses strictly rising, no entry equal to what an unlisted address reads as (log
entry 2), so that equal memories are equal data. Every step keeps it, from every state that has it. -/
def Obligations.EveryStepKeepsMemoryCanonical : Prop :=
  ∀ (s t : State), memWf s.mem → step s = .next t → memWf t.mem

/-- R373, R353, R356, R357, R359, R364, R380: after reset the device is in stage 6 with the mailbox answering; no wave, team,
launch or host queue's owner is there; every owner byte is 0xFF, the journal's commit word is slot 0 with SEQ 0, whose record
is complete, and the other slot is zero; every connection register is unowned and every link register SPLIT 0x01; every core
has its nominal clock and supply; no partition runs. The memory that lists nothing is canonical (log entry 2). -/
def Obligations.ResetState : Prop :=
  let s := State.reset
  s.stage = 6 ∧ s.accepted = none ∧ s.repart = none ∧ s.box = [] ∧ s.asks = [] ∧ s.layout = List.replicate 216 255 ∧
  s.commit = (0, 0) ∧ s.slot0.complete = true ∧ s.slot0.seq = 0 ∧ s.slot0.new = s.layout ∧
  s.slot1 = ⟨0, List.replicate 216 0, List.replicate 216 0, [], List.replicate 64 0⟩ ∧
  (∀ k, Tab.find k s.waves = none ∧ Tab.find k s.teams = none ∧ Tab.find k s.launches = none) ∧
  (∀ q, (s.queue q).owner = none ∧ (s.queue q).doorbell = 0 ∧ (s.queue q).rdidx = 0 ∧ (s.queue q).qbase = 0 ∧
    (s.queue q).qsize = 0 ∧ (s.queue q).err = false) ∧
  (∀ i, Tab.find i s.conns = none) ∧ (∀ p, Tab.getD 1#64 p s.links = 1) ∧
  (∀ c, (s.core c).clock = 0 ∧ (s.core c).bank0.owner = none ∧ (s.core c).bank1.owner = none ∧ (s.core c).mx.holder = none ∧
    (s.core c).fstep = 64 ∧ (s.core c).vmv = 350) ∧
  (∀ p, (s.part p).wait = 4096) ∧ memWf s.mem ∧ step s = .next s
end

