-- ==== Sys2Proof/Laws/Tab.lean ====
section
/-! SUPPORT. The laws of sparse tables: what is found after a change, and that changes keep keys rising and the canonical
form. -/

namespace Sys2Proof.Machine

variable {α : Type}

/-! ### Finding after a change -/

theorem Tab.find_put_same (k : Nat) (v : α) (t : Tab α) : Tab.find k (Tab.put k v t) = some v := by
  induction t with
  | nil => simp [Tab.put, Tab.find]
  | cons e t ih =>
    obtain ⟨j, u⟩ := e
    simp only [Tab.put]
    split
    · simp [Tab.find]
    · split
      · simp [Tab.find]
      · simp [Tab.find, *]

theorem Tab.find_put_other {j k : Nat} (h : j ≠ k) (v : α) (t : Tab α) :
    Tab.find j (Tab.put k v t) = Tab.find j t := by
  induction t with
  | nil => simp [Tab.put, Tab.find, Ne.symm h]
  | cons e t ih =>
    obtain ⟨i, u⟩ := e
    simp only [Tab.put]
    split
    · simp [Tab.find, Ne.symm h]
    · split
      · subst_vars; simp [Tab.find, Ne.symm h]
      · simp [Tab.find, ih]

theorem Tab.find_del_same (k : Nat) (t : Tab α) : Tab.find k (Tab.del k t) = none := by
  induction t with
  | nil => rfl
  | cons e t ih =>
    obtain ⟨i, u⟩ := e
    simp only [Tab.del]
    split
    · exact ih
    · simp [Tab.find, *]

theorem Tab.find_del_other {j k : Nat} (h : j ≠ k) (t : Tab α) : Tab.find j (Tab.del k t) = Tab.find j t := by
  induction t with
  | nil => rfl
  | cons e t ih =>
    obtain ⟨i, u⟩ := e
    simp only [Tab.del]
    split
    · subst_vars; simp [Tab.find, Ne.symm h, ih]
    · simp [Tab.find, ih]

theorem Tab.find_upd (j k : Nat) (g : α → α) (t : Tab α) :
    Tab.find j (Tab.upd k g t) = if j = k then (Tab.find j t).map g else Tab.find j t := by
  induction t with
  | nil => simp [Tab.upd, Tab.find]
  | cons e t ih =>
    obtain ⟨i, u⟩ := e
    simp only [Tab.upd, List.map_cons]
    simp only [Tab.upd] at ih
    by_cases hik : i = k <;> by_cases hij : i = j <;> simp [Tab.find, *] <;> split <;> simp_all

theorem Tab.find_upd_same (k : Nat) (g : α → α) (t : Tab α) : Tab.find k (Tab.upd k g t) = (Tab.find k t).map g := by
  simp [Tab.find_upd]

theorem Tab.find_upd_other {j k : Nat} (h : j ≠ k) (g : α → α) (t : Tab α) :
    Tab.find j (Tab.upd k g t) = Tab.find j t := by
  simp [Tab.find_upd, h]

/-- A change of every value finds the changed value. -/
theorem Tab.find_map (k : Nat) (g : Nat → α → α) (t : Tab α) :
    Tab.find k (t.map fun e => (e.1, g e.1 e.2)) = (Tab.find k t).map (g k) := by
  induction t with
  | nil => rfl
  | cons e t ih =>
    obtain ⟨i, u⟩ := e
    simp only [List.map_cons, Tab.find]
    split
    · subst_vars; rfl
    · exact ih

@[simp] theorem Tab.getD_put_same (d : α) (k : Nat) (v : α) (t : Tab α) : Tab.getD d k (Tab.put k v t) = v := by
  simp [Tab.getD, Tab.find_put_same]

theorem Tab.getD_put_other (d : α) {j k : Nat} (h : j ≠ k) (v : α) (t : Tab α) :
    Tab.getD d j (Tab.put k v t) = Tab.getD d j t := by
  simp [Tab.getD, Tab.find_put_other h]

@[simp] theorem Tab.getD_setD_same [DecidableEq α] (d : α) (k : Nat) (v : α) (t : Tab α) :
    Tab.getD d k (Tab.setD d k v t) = v := by
  unfold Tab.setD
  split
  · simp [Tab.getD, Tab.find_del_same, *]
  · simp

theorem Tab.getD_setD_other [DecidableEq α] (d : α) {j k : Nat} (h : j ≠ k) (v : α) (t : Tab α) :
    Tab.getD d j (Tab.setD d k v t) = Tab.getD d j t := by
  unfold Tab.setD
  split
  · simp [Tab.getD, Tab.find_del_other h]
  · exact Tab.getD_put_other d h v t

theorem Tab.getD_setD [DecidableEq α] (d : α) (j k : Nat) (v : α) (t : Tab α) :
    Tab.getD d j (Tab.setD d k v t) = if j = k then v else Tab.getD d j t := by
  split
  · subst_vars; simp
  · exact Tab.getD_setD_other d ‹_› v t

/-! ### Keys rising -/

/-- Every key of a table lies above a bound. -/
def Tab.above (n : Nat) (t : Tab α) : Prop := ∀ e ∈ t, n < e.1

theorem Tab.sorted_cons (j : Nat) (u : α) (t : Tab α) :
    Tab.sorted ((j, u) :: t) = true ↔ Tab.above j t ∧ Tab.sorted t = true := by
  induction t generalizing j u with
  | nil => simp [Tab.sorted, Tab.above]
  | cons e t ih =>
    obtain ⟨k, v⟩ := e
    simp only [Tab.sorted, Bool.and_eq_true, decide_eq_true_eq]
    rw [ih k v]
    constructor
    · rintro ⟨hjk, ha, hs⟩
      refine ⟨?_, ha, hs⟩
      intro x hx
      rcases List.mem_cons.1 hx with rfl | hx
      · exact hjk
      · exact lt_trans hjk (ha x hx)
    · rintro ⟨ha, ha', hs⟩
      exact ⟨ha (k, v) (by simp), ha', hs⟩

theorem Tab.above_put {n k : Nat} (h : n < k) (v : α) {t : Tab α} (ht : Tab.above n t) : Tab.above n (Tab.put k v t) := by
  induction t with
  | nil => intro x hx; simp [Tab.put] at hx; subst hx; exact h
  | cons e t ih =>
    obtain ⟨j, u⟩ := e
    have ht' : Tab.above n t := fun x hx => ht x (List.mem_cons_of_mem _ hx)
    have hj : n < j := ht (j, u) (by simp)
    simp only [Tab.put]
    intro x hx
    split at hx
    · rcases List.mem_cons.1 hx with rfl | hx
      · exact h
      · exact ht x hx
    · split at hx
      · rcases List.mem_cons.1 hx with rfl | hx
        · exact h
        · exact ht' x hx
      · rcases List.mem_cons.1 hx with rfl | hx
        · exact hj
        · exact ih ht' x hx

theorem Tab.sorted_put (k : Nat) (v : α) {t : Tab α} (ht : Tab.sorted t = true) : Tab.sorted (Tab.put k v t) = true := by
  induction t with
  | nil => rfl
  | cons e t ih =>
    obtain ⟨j, u⟩ := e
    have h' := (Tab.sorted_cons j u t).1 ht
    simp only [Tab.put]
    split
    · refine (Tab.sorted_cons _ _ _).2 ⟨?_, ht⟩
      intro x hx
      rcases List.mem_cons.1 hx with rfl | hx
      · assumption
      · exact lt_trans ‹_› (h'.1 x hx)
    · split
      · subst_vars; exact (Tab.sorted_cons _ _ _).2 h'
      · exact (Tab.sorted_cons _ _ _).2 ⟨Tab.above_put (by omega) v h'.1, ih h'.2⟩

theorem Tab.mem_del {k : Nat} {t : Tab α} {x : Nat × α} (h : x ∈ Tab.del k t) : x ∈ t := by
  induction t with
  | nil => simp [Tab.del] at h
  | cons e t ih =>
    obtain ⟨j, u⟩ := e
    simp only [Tab.del] at h
    split at h
    · exact List.mem_cons_of_mem _ (ih h)
    · rcases List.mem_cons.1 h with rfl | h
      · simp
      · exact List.mem_cons_of_mem _ (ih h)

theorem Tab.sorted_del (k : Nat) {t : Tab α} (ht : Tab.sorted t = true) : Tab.sorted (Tab.del k t) = true := by
  induction t with
  | nil => rfl
  | cons e t ih =>
    obtain ⟨j, u⟩ := e
    have h' := (Tab.sorted_cons j u t).1 ht
    simp only [Tab.del]
    split
    · exact ih h'.2
    · exact (Tab.sorted_cons _ _ _).2 ⟨fun x hx => h'.1 x (Tab.mem_del hx), ih h'.2⟩

theorem Tab.mem_put {k : Nat} {v : α} {t : Tab α} {x : Nat × α} (h : x ∈ Tab.put k v t) : x = (k, v) ∨ x ∈ t := by
  induction t with
  | nil => simp [Tab.put] at h; exact .inl h
  | cons e t ih =>
    obtain ⟨j, u⟩ := e
    simp only [Tab.put] at h
    split at h
    · rcases List.mem_cons.1 h with rfl | h
      · exact .inl rfl
      · exact .inr h
    · split at h
      · rcases List.mem_cons.1 h with rfl | h
        · exact .inl rfl
        · exact .inr (List.mem_cons_of_mem _ h)
      · rcases List.mem_cons.1 h with rfl | h
        · exact .inr (by simp)
        · rcases ih h with rfl | h
          · exact .inl rfl
          · exact .inr (List.mem_cons_of_mem _ h)

/-- Setting a value keeps the canonical form. -/
theorem Tab.wf_setD [DecidableEq α] {d : α} (k : Nat) (v : α) {t : Tab α} (ht : Tab.wf d t = true) :
    Tab.wf d (Tab.setD d k v t) = true := by
  simp only [Tab.wf, Bool.and_eq_true, List.all_eq_true, decide_eq_true_eq] at ht ⊢
  unfold Tab.setD
  split
  · exact ⟨Tab.sorted_del k ht.1, fun x hx => ht.2 x (Tab.mem_del hx)⟩
  · refine ⟨Tab.sorted_put k v ht.1, fun x hx => ?_⟩
    rcases Tab.mem_put hx with rfl | hx
    · assumption
    · exact ht.2 x hx

end Sys2Proof.Machine
end

