-- ==== Sys2Proof/Laws/State.lean ====
section
/-! SUPPORT. The laws of the state's updates: each leaves every other field as it was, by computation, and what is found
after it. -/

namespace Sys2Proof.Machine

/-! ### State.setCore -/

@[simp] theorem State.setCore_waves (c : Nat) (g : Core → Core) (s : State) : (s.setCore c g).waves = s.waves := rfl
@[simp] theorem State.setCore_teams (c : Nat) (g : Core → Core) (s : State) : (s.setCore c g).teams = s.teams := rfl
@[simp] theorem State.setCore_clusters (c : Nat) (g : Core → Core) (s : State) : (s.setCore c g).clusters = s.clusters := rfl
@[simp] theorem State.setCore_mem (c : Nat) (g : Core → Core) (s : State) : (s.setCore c g).mem = s.mem := rfl
@[simp] theorem State.setCore_poison (c : Nat) (g : Core → Core) (s : State) : (s.setCore c g).poison = s.poison := rfl
@[simp] theorem State.setCore_parts (c : Nat) (g : Core → Core) (s : State) : (s.setCore c g).parts = s.parts := rfl
@[simp] theorem State.setCore_launches (c : Nat) (g : Core → Core) (s : State) : (s.setCore c g).launches = s.launches := rfl
@[simp] theorem State.setCore_past (c : Nat) (g : Core → Core) (s : State) : (s.setCore c g).past = s.past := rfl
@[simp] theorem State.setCore_jobs (c : Nat) (g : Core → Core) (s : State) : (s.setCore c g).jobs = s.jobs := rfl
@[simp] theorem State.setCore_queues (c : Nat) (g : Core → Core) (s : State) : (s.setCore c g).queues = s.queues := rfl
@[simp] theorem State.setCore_pools (c : Nat) (g : Core → Core) (s : State) : (s.setCore c g).pools = s.pools := rfl
@[simp] theorem State.setCore_layout (c : Nat) (g : Core → Core) (s : State) : (s.setCore c g).layout = s.layout := rfl
@[simp] theorem State.setCore_conns (c : Nat) (g : Core → Core) (s : State) : (s.setCore c g).conns = s.conns := rfl
@[simp] theorem State.setCore_links (c : Nat) (g : Core → Core) (s : State) : (s.setCore c g).links = s.links := rfl
@[simp] theorem State.setCore_linkDown (c : Nat) (g : Core → Core) (s : State) : (s.setCore c g).linkDown = s.linkDown := rfl
@[simp] theorem State.setCore_slot0 (c : Nat) (g : Core → Core) (s : State) : (s.setCore c g).slot0 = s.slot0 := rfl
@[simp] theorem State.setCore_slot1 (c : Nat) (g : Core → Core) (s : State) : (s.setCore c g).slot1 = s.slot1 := rfl
@[simp] theorem State.setCore_commit (c : Nat) (g : Core → Core) (s : State) : (s.setCore c g).commit = s.commit := rfl
@[simp] theorem State.setCore_repart (c : Nat) (g : Core → Core) (s : State) : (s.setCore c g).repart = s.repart := rfl
@[simp] theorem State.setCore_box (c : Nat) (g : Core → Core) (s : State) : (s.setCore c g).box = s.box := rfl
@[simp] theorem State.setCore_asks (c : Nat) (g : Core → Core) (s : State) : (s.setCore c g).asks = s.asks := rfl
@[simp] theorem State.setCore_stage (c : Nat) (g : Core → Core) (s : State) : (s.setCore c g).stage = s.stage := rfl
@[simp] theorem State.setCore_accepted (c : Nat) (g : Core → Core) (s : State) : (s.setCore c g).accepted = s.accepted := rfl
@[simp] theorem State.setCore_answer (c : Nat) (g : Core → Core) (s : State) : (s.setCore c g).answer = s.answer := rfl
@[simp] theorem State.setCore_flash (c : Nat) (g : Core → Core) (s : State) : (s.setCore c g).flash = s.flash := rfl
@[simp] theorem State.setCore_running (c : Nat) (g : Core → Core) (s : State) : (s.setCore c g).running = s.running := rfl
@[simp] theorem State.setCore_nextTeam (c : Nat) (g : Core → Core) (s : State) : (s.setCore c g).nextTeam = s.nextTeam := rfl
@[simp] theorem State.setCore_nextLaunch (c : Nat) (g : Core → Core) (s : State) : (s.setCore c g).nextLaunch = s.nextLaunch := rfl
@[simp] theorem State.setCore_cur (c : Nat) (g : Core → Core) (s : State) : (s.setCore c g).cur = s.cur := rfl
@[simp] theorem State.setCore_agenda (c : Nat) (g : Core → Core) (s : State) : (s.setCore c g).agenda = s.agenda := rfl
@[simp] theorem State.setCore_peerAnswer (c : Nat) (g : Core → Core) (s : State) : (s.setCore c g).peerAnswer = s.peerAnswer := rfl
@[simp] theorem State.setCore_loose (c : Nat) (g : Core → Core) (s : State) : (s.setCore c g).loose = s.loose := rfl
@[simp] theorem State.setCore_hostRead (c : Nat) (g : Core → Core) (s : State) : (s.setCore c g).hostRead = s.hostRead := rfl
@[simp] theorem State.setCore_choices (c : Nat) (g : Core → Core) (s : State) : (s.setCore c g).choices = s.choices := rfl
@[simp] theorem State.setCore_frees (c : Nat) (g : Core → Core) (s : State) : (s.setCore c g).frees = s.frees := rfl

/-! ### State.setCluster -/

@[simp] theorem State.setCluster_waves (c : Nat) (g : Cluster → Cluster) (s : State) : (s.setCluster c g).waves = s.waves := rfl
@[simp] theorem State.setCluster_teams (c : Nat) (g : Cluster → Cluster) (s : State) : (s.setCluster c g).teams = s.teams := rfl
@[simp] theorem State.setCluster_cores (c : Nat) (g : Cluster → Cluster) (s : State) : (s.setCluster c g).cores = s.cores := rfl
@[simp] theorem State.setCluster_mem (c : Nat) (g : Cluster → Cluster) (s : State) : (s.setCluster c g).mem = s.mem := rfl
@[simp] theorem State.setCluster_poison (c : Nat) (g : Cluster → Cluster) (s : State) : (s.setCluster c g).poison = s.poison := rfl
@[simp] theorem State.setCluster_parts (c : Nat) (g : Cluster → Cluster) (s : State) : (s.setCluster c g).parts = s.parts := rfl
@[simp] theorem State.setCluster_launches (c : Nat) (g : Cluster → Cluster) (s : State) : (s.setCluster c g).launches = s.launches := rfl
@[simp] theorem State.setCluster_past (c : Nat) (g : Cluster → Cluster) (s : State) : (s.setCluster c g).past = s.past := rfl
@[simp] theorem State.setCluster_jobs (c : Nat) (g : Cluster → Cluster) (s : State) : (s.setCluster c g).jobs = s.jobs := rfl
@[simp] theorem State.setCluster_queues (c : Nat) (g : Cluster → Cluster) (s : State) : (s.setCluster c g).queues = s.queues := rfl
@[simp] theorem State.setCluster_pools (c : Nat) (g : Cluster → Cluster) (s : State) : (s.setCluster c g).pools = s.pools := rfl
@[simp] theorem State.setCluster_layout (c : Nat) (g : Cluster → Cluster) (s : State) : (s.setCluster c g).layout = s.layout := rfl
@[simp] theorem State.setCluster_conns (c : Nat) (g : Cluster → Cluster) (s : State) : (s.setCluster c g).conns = s.conns := rfl
@[simp] theorem State.setCluster_links (c : Nat) (g : Cluster → Cluster) (s : State) : (s.setCluster c g).links = s.links := rfl
@[simp] theorem State.setCluster_linkDown (c : Nat) (g : Cluster → Cluster) (s : State) : (s.setCluster c g).linkDown = s.linkDown := rfl
@[simp] theorem State.setCluster_slot0 (c : Nat) (g : Cluster → Cluster) (s : State) : (s.setCluster c g).slot0 = s.slot0 := rfl
@[simp] theorem State.setCluster_slot1 (c : Nat) (g : Cluster → Cluster) (s : State) : (s.setCluster c g).slot1 = s.slot1 := rfl
@[simp] theorem State.setCluster_commit (c : Nat) (g : Cluster → Cluster) (s : State) : (s.setCluster c g).commit = s.commit := rfl
@[simp] theorem State.setCluster_repart (c : Nat) (g : Cluster → Cluster) (s : State) : (s.setCluster c g).repart = s.repart := rfl
@[simp] theorem State.setCluster_box (c : Nat) (g : Cluster → Cluster) (s : State) : (s.setCluster c g).box = s.box := rfl
@[simp] theorem State.setCluster_asks (c : Nat) (g : Cluster → Cluster) (s : State) : (s.setCluster c g).asks = s.asks := rfl
@[simp] theorem State.setCluster_stage (c : Nat) (g : Cluster → Cluster) (s : State) : (s.setCluster c g).stage = s.stage := rfl
@[simp] theorem State.setCluster_accepted (c : Nat) (g : Cluster → Cluster) (s : State) : (s.setCluster c g).accepted = s.accepted := rfl
@[simp] theorem State.setCluster_answer (c : Nat) (g : Cluster → Cluster) (s : State) : (s.setCluster c g).answer = s.answer := rfl
@[simp] theorem State.setCluster_flash (c : Nat) (g : Cluster → Cluster) (s : State) : (s.setCluster c g).flash = s.flash := rfl
@[simp] theorem State.setCluster_running (c : Nat) (g : Cluster → Cluster) (s : State) : (s.setCluster c g).running = s.running := rfl
@[simp] theorem State.setCluster_nextTeam (c : Nat) (g : Cluster → Cluster) (s : State) : (s.setCluster c g).nextTeam = s.nextTeam := rfl
@[simp] theorem State.setCluster_nextLaunch (c : Nat) (g : Cluster → Cluster) (s : State) : (s.setCluster c g).nextLaunch = s.nextLaunch := rfl
@[simp] theorem State.setCluster_cur (c : Nat) (g : Cluster → Cluster) (s : State) : (s.setCluster c g).cur = s.cur := rfl
@[simp] theorem State.setCluster_agenda (c : Nat) (g : Cluster → Cluster) (s : State) : (s.setCluster c g).agenda = s.agenda := rfl
@[simp] theorem State.setCluster_peerAnswer (c : Nat) (g : Cluster → Cluster) (s : State) : (s.setCluster c g).peerAnswer = s.peerAnswer := rfl
@[simp] theorem State.setCluster_loose (c : Nat) (g : Cluster → Cluster) (s : State) : (s.setCluster c g).loose = s.loose := rfl
@[simp] theorem State.setCluster_hostRead (c : Nat) (g : Cluster → Cluster) (s : State) : (s.setCluster c g).hostRead = s.hostRead := rfl
@[simp] theorem State.setCluster_choices (c : Nat) (g : Cluster → Cluster) (s : State) : (s.setCluster c g).choices = s.choices := rfl
@[simp] theorem State.setCluster_frees (c : Nat) (g : Cluster → Cluster) (s : State) : (s.setCluster c g).frees = s.frees := rfl

/-! ### State.setPart -/

@[simp] theorem State.setPart_waves (p : Nat) (g : Partition → Partition) (s : State) : (s.setPart p g).waves = s.waves := rfl
@[simp] theorem State.setPart_teams (p : Nat) (g : Partition → Partition) (s : State) : (s.setPart p g).teams = s.teams := rfl
@[simp] theorem State.setPart_cores (p : Nat) (g : Partition → Partition) (s : State) : (s.setPart p g).cores = s.cores := rfl
@[simp] theorem State.setPart_clusters (p : Nat) (g : Partition → Partition) (s : State) : (s.setPart p g).clusters = s.clusters := rfl
@[simp] theorem State.setPart_mem (p : Nat) (g : Partition → Partition) (s : State) : (s.setPart p g).mem = s.mem := rfl
@[simp] theorem State.setPart_poison (p : Nat) (g : Partition → Partition) (s : State) : (s.setPart p g).poison = s.poison := rfl
@[simp] theorem State.setPart_launches (p : Nat) (g : Partition → Partition) (s : State) : (s.setPart p g).launches = s.launches := rfl
@[simp] theorem State.setPart_past (p : Nat) (g : Partition → Partition) (s : State) : (s.setPart p g).past = s.past := rfl
@[simp] theorem State.setPart_jobs (p : Nat) (g : Partition → Partition) (s : State) : (s.setPart p g).jobs = s.jobs := rfl
@[simp] theorem State.setPart_queues (p : Nat) (g : Partition → Partition) (s : State) : (s.setPart p g).queues = s.queues := rfl
@[simp] theorem State.setPart_pools (p : Nat) (g : Partition → Partition) (s : State) : (s.setPart p g).pools = s.pools := rfl
@[simp] theorem State.setPart_layout (p : Nat) (g : Partition → Partition) (s : State) : (s.setPart p g).layout = s.layout := rfl
@[simp] theorem State.setPart_conns (p : Nat) (g : Partition → Partition) (s : State) : (s.setPart p g).conns = s.conns := rfl
@[simp] theorem State.setPart_links (p : Nat) (g : Partition → Partition) (s : State) : (s.setPart p g).links = s.links := rfl
@[simp] theorem State.setPart_linkDown (p : Nat) (g : Partition → Partition) (s : State) : (s.setPart p g).linkDown = s.linkDown := rfl
@[simp] theorem State.setPart_slot0 (p : Nat) (g : Partition → Partition) (s : State) : (s.setPart p g).slot0 = s.slot0 := rfl
@[simp] theorem State.setPart_slot1 (p : Nat) (g : Partition → Partition) (s : State) : (s.setPart p g).slot1 = s.slot1 := rfl
@[simp] theorem State.setPart_commit (p : Nat) (g : Partition → Partition) (s : State) : (s.setPart p g).commit = s.commit := rfl
@[simp] theorem State.setPart_repart (p : Nat) (g : Partition → Partition) (s : State) : (s.setPart p g).repart = s.repart := rfl
@[simp] theorem State.setPart_box (p : Nat) (g : Partition → Partition) (s : State) : (s.setPart p g).box = s.box := rfl
@[simp] theorem State.setPart_asks (p : Nat) (g : Partition → Partition) (s : State) : (s.setPart p g).asks = s.asks := rfl
@[simp] theorem State.setPart_stage (p : Nat) (g : Partition → Partition) (s : State) : (s.setPart p g).stage = s.stage := rfl
@[simp] theorem State.setPart_accepted (p : Nat) (g : Partition → Partition) (s : State) : (s.setPart p g).accepted = s.accepted := rfl
@[simp] theorem State.setPart_answer (p : Nat) (g : Partition → Partition) (s : State) : (s.setPart p g).answer = s.answer := rfl
@[simp] theorem State.setPart_flash (p : Nat) (g : Partition → Partition) (s : State) : (s.setPart p g).flash = s.flash := rfl
@[simp] theorem State.setPart_running (p : Nat) (g : Partition → Partition) (s : State) : (s.setPart p g).running = s.running := rfl
@[simp] theorem State.setPart_nextTeam (p : Nat) (g : Partition → Partition) (s : State) : (s.setPart p g).nextTeam = s.nextTeam := rfl
@[simp] theorem State.setPart_nextLaunch (p : Nat) (g : Partition → Partition) (s : State) : (s.setPart p g).nextLaunch = s.nextLaunch := rfl
@[simp] theorem State.setPart_cur (p : Nat) (g : Partition → Partition) (s : State) : (s.setPart p g).cur = s.cur := rfl
@[simp] theorem State.setPart_agenda (p : Nat) (g : Partition → Partition) (s : State) : (s.setPart p g).agenda = s.agenda := rfl
@[simp] theorem State.setPart_peerAnswer (p : Nat) (g : Partition → Partition) (s : State) : (s.setPart p g).peerAnswer = s.peerAnswer := rfl
@[simp] theorem State.setPart_loose (p : Nat) (g : Partition → Partition) (s : State) : (s.setPart p g).loose = s.loose := rfl
@[simp] theorem State.setPart_hostRead (p : Nat) (g : Partition → Partition) (s : State) : (s.setPart p g).hostRead = s.hostRead := rfl
@[simp] theorem State.setPart_choices (p : Nat) (g : Partition → Partition) (s : State) : (s.setPart p g).choices = s.choices := rfl
@[simp] theorem State.setPart_frees (p : Nat) (g : Partition → Partition) (s : State) : (s.setPart p g).frees = s.frees := rfl

/-! ### State.setWave -/

@[simp] theorem State.setWave_teams (k : Nat) (g : Wave → Wave) (s : State) : (s.setWave k g).teams = s.teams := rfl
@[simp] theorem State.setWave_cores (k : Nat) (g : Wave → Wave) (s : State) : (s.setWave k g).cores = s.cores := rfl
@[simp] theorem State.setWave_clusters (k : Nat) (g : Wave → Wave) (s : State) : (s.setWave k g).clusters = s.clusters := rfl
@[simp] theorem State.setWave_mem (k : Nat) (g : Wave → Wave) (s : State) : (s.setWave k g).mem = s.mem := rfl
@[simp] theorem State.setWave_poison (k : Nat) (g : Wave → Wave) (s : State) : (s.setWave k g).poison = s.poison := rfl
@[simp] theorem State.setWave_parts (k : Nat) (g : Wave → Wave) (s : State) : (s.setWave k g).parts = s.parts := rfl
@[simp] theorem State.setWave_launches (k : Nat) (g : Wave → Wave) (s : State) : (s.setWave k g).launches = s.launches := rfl
@[simp] theorem State.setWave_past (k : Nat) (g : Wave → Wave) (s : State) : (s.setWave k g).past = s.past := rfl
@[simp] theorem State.setWave_jobs (k : Nat) (g : Wave → Wave) (s : State) : (s.setWave k g).jobs = s.jobs := rfl
@[simp] theorem State.setWave_queues (k : Nat) (g : Wave → Wave) (s : State) : (s.setWave k g).queues = s.queues := rfl
@[simp] theorem State.setWave_pools (k : Nat) (g : Wave → Wave) (s : State) : (s.setWave k g).pools = s.pools := rfl
@[simp] theorem State.setWave_layout (k : Nat) (g : Wave → Wave) (s : State) : (s.setWave k g).layout = s.layout := rfl
@[simp] theorem State.setWave_conns (k : Nat) (g : Wave → Wave) (s : State) : (s.setWave k g).conns = s.conns := rfl
@[simp] theorem State.setWave_links (k : Nat) (g : Wave → Wave) (s : State) : (s.setWave k g).links = s.links := rfl
@[simp] theorem State.setWave_linkDown (k : Nat) (g : Wave → Wave) (s : State) : (s.setWave k g).linkDown = s.linkDown := rfl
@[simp] theorem State.setWave_slot0 (k : Nat) (g : Wave → Wave) (s : State) : (s.setWave k g).slot0 = s.slot0 := rfl
@[simp] theorem State.setWave_slot1 (k : Nat) (g : Wave → Wave) (s : State) : (s.setWave k g).slot1 = s.slot1 := rfl
@[simp] theorem State.setWave_commit (k : Nat) (g : Wave → Wave) (s : State) : (s.setWave k g).commit = s.commit := rfl
@[simp] theorem State.setWave_repart (k : Nat) (g : Wave → Wave) (s : State) : (s.setWave k g).repart = s.repart := rfl
@[simp] theorem State.setWave_box (k : Nat) (g : Wave → Wave) (s : State) : (s.setWave k g).box = s.box := rfl
@[simp] theorem State.setWave_asks (k : Nat) (g : Wave → Wave) (s : State) : (s.setWave k g).asks = s.asks := rfl
@[simp] theorem State.setWave_stage (k : Nat) (g : Wave → Wave) (s : State) : (s.setWave k g).stage = s.stage := rfl
@[simp] theorem State.setWave_accepted (k : Nat) (g : Wave → Wave) (s : State) : (s.setWave k g).accepted = s.accepted := rfl
@[simp] theorem State.setWave_answer (k : Nat) (g : Wave → Wave) (s : State) : (s.setWave k g).answer = s.answer := rfl
@[simp] theorem State.setWave_flash (k : Nat) (g : Wave → Wave) (s : State) : (s.setWave k g).flash = s.flash := rfl
@[simp] theorem State.setWave_running (k : Nat) (g : Wave → Wave) (s : State) : (s.setWave k g).running = s.running := rfl
@[simp] theorem State.setWave_nextTeam (k : Nat) (g : Wave → Wave) (s : State) : (s.setWave k g).nextTeam = s.nextTeam := rfl
@[simp] theorem State.setWave_nextLaunch (k : Nat) (g : Wave → Wave) (s : State) : (s.setWave k g).nextLaunch = s.nextLaunch := rfl
@[simp] theorem State.setWave_cur (k : Nat) (g : Wave → Wave) (s : State) : (s.setWave k g).cur = s.cur := rfl
@[simp] theorem State.setWave_agenda (k : Nat) (g : Wave → Wave) (s : State) : (s.setWave k g).agenda = s.agenda := rfl
@[simp] theorem State.setWave_peerAnswer (k : Nat) (g : Wave → Wave) (s : State) : (s.setWave k g).peerAnswer = s.peerAnswer := rfl
@[simp] theorem State.setWave_loose (k : Nat) (g : Wave → Wave) (s : State) : (s.setWave k g).loose = s.loose := rfl
@[simp] theorem State.setWave_hostRead (k : Nat) (g : Wave → Wave) (s : State) : (s.setWave k g).hostRead = s.hostRead := rfl
@[simp] theorem State.setWave_choices (k : Nat) (g : Wave → Wave) (s : State) : (s.setWave k g).choices = s.choices := rfl
@[simp] theorem State.setWave_frees (k : Nat) (g : Wave → Wave) (s : State) : (s.setWave k g).frees = s.frees := rfl

/-! ### State.setTeam -/

@[simp] theorem State.setTeam_waves (k : Nat) (g : Team → Team) (s : State) : (s.setTeam k g).waves = s.waves := rfl
@[simp] theorem State.setTeam_cores (k : Nat) (g : Team → Team) (s : State) : (s.setTeam k g).cores = s.cores := rfl
@[simp] theorem State.setTeam_clusters (k : Nat) (g : Team → Team) (s : State) : (s.setTeam k g).clusters = s.clusters := rfl
@[simp] theorem State.setTeam_mem (k : Nat) (g : Team → Team) (s : State) : (s.setTeam k g).mem = s.mem := rfl
@[simp] theorem State.setTeam_poison (k : Nat) (g : Team → Team) (s : State) : (s.setTeam k g).poison = s.poison := rfl
@[simp] theorem State.setTeam_parts (k : Nat) (g : Team → Team) (s : State) : (s.setTeam k g).parts = s.parts := rfl
@[simp] theorem State.setTeam_launches (k : Nat) (g : Team → Team) (s : State) : (s.setTeam k g).launches = s.launches := rfl
@[simp] theorem State.setTeam_past (k : Nat) (g : Team → Team) (s : State) : (s.setTeam k g).past = s.past := rfl
@[simp] theorem State.setTeam_jobs (k : Nat) (g : Team → Team) (s : State) : (s.setTeam k g).jobs = s.jobs := rfl
@[simp] theorem State.setTeam_queues (k : Nat) (g : Team → Team) (s : State) : (s.setTeam k g).queues = s.queues := rfl
@[simp] theorem State.setTeam_pools (k : Nat) (g : Team → Team) (s : State) : (s.setTeam k g).pools = s.pools := rfl
@[simp] theorem State.setTeam_layout (k : Nat) (g : Team → Team) (s : State) : (s.setTeam k g).layout = s.layout := rfl
@[simp] theorem State.setTeam_conns (k : Nat) (g : Team → Team) (s : State) : (s.setTeam k g).conns = s.conns := rfl
@[simp] theorem State.setTeam_links (k : Nat) (g : Team → Team) (s : State) : (s.setTeam k g).links = s.links := rfl
@[simp] theorem State.setTeam_linkDown (k : Nat) (g : Team → Team) (s : State) : (s.setTeam k g).linkDown = s.linkDown := rfl
@[simp] theorem State.setTeam_slot0 (k : Nat) (g : Team → Team) (s : State) : (s.setTeam k g).slot0 = s.slot0 := rfl
@[simp] theorem State.setTeam_slot1 (k : Nat) (g : Team → Team) (s : State) : (s.setTeam k g).slot1 = s.slot1 := rfl
@[simp] theorem State.setTeam_commit (k : Nat) (g : Team → Team) (s : State) : (s.setTeam k g).commit = s.commit := rfl
@[simp] theorem State.setTeam_repart (k : Nat) (g : Team → Team) (s : State) : (s.setTeam k g).repart = s.repart := rfl
@[simp] theorem State.setTeam_box (k : Nat) (g : Team → Team) (s : State) : (s.setTeam k g).box = s.box := rfl
@[simp] theorem State.setTeam_asks (k : Nat) (g : Team → Team) (s : State) : (s.setTeam k g).asks = s.asks := rfl
@[simp] theorem State.setTeam_stage (k : Nat) (g : Team → Team) (s : State) : (s.setTeam k g).stage = s.stage := rfl
@[simp] theorem State.setTeam_accepted (k : Nat) (g : Team → Team) (s : State) : (s.setTeam k g).accepted = s.accepted := rfl
@[simp] theorem State.setTeam_answer (k : Nat) (g : Team → Team) (s : State) : (s.setTeam k g).answer = s.answer := rfl
@[simp] theorem State.setTeam_flash (k : Nat) (g : Team → Team) (s : State) : (s.setTeam k g).flash = s.flash := rfl
@[simp] theorem State.setTeam_running (k : Nat) (g : Team → Team) (s : State) : (s.setTeam k g).running = s.running := rfl
@[simp] theorem State.setTeam_nextTeam (k : Nat) (g : Team → Team) (s : State) : (s.setTeam k g).nextTeam = s.nextTeam := rfl
@[simp] theorem State.setTeam_nextLaunch (k : Nat) (g : Team → Team) (s : State) : (s.setTeam k g).nextLaunch = s.nextLaunch := rfl
@[simp] theorem State.setTeam_cur (k : Nat) (g : Team → Team) (s : State) : (s.setTeam k g).cur = s.cur := rfl
@[simp] theorem State.setTeam_agenda (k : Nat) (g : Team → Team) (s : State) : (s.setTeam k g).agenda = s.agenda := rfl
@[simp] theorem State.setTeam_peerAnswer (k : Nat) (g : Team → Team) (s : State) : (s.setTeam k g).peerAnswer = s.peerAnswer := rfl
@[simp] theorem State.setTeam_loose (k : Nat) (g : Team → Team) (s : State) : (s.setTeam k g).loose = s.loose := rfl
@[simp] theorem State.setTeam_hostRead (k : Nat) (g : Team → Team) (s : State) : (s.setTeam k g).hostRead = s.hostRead := rfl
@[simp] theorem State.setTeam_choices (k : Nat) (g : Team → Team) (s : State) : (s.setTeam k g).choices = s.choices := rfl
@[simp] theorem State.setTeam_frees (k : Nat) (g : Team → Team) (s : State) : (s.setTeam k g).frees = s.frees := rfl

/-! ### State.setLaunch -/

@[simp] theorem State.setLaunch_waves (k : Nat) (g : Launch → Launch) (s : State) : (s.setLaunch k g).waves = s.waves := rfl
@[simp] theorem State.setLaunch_teams (k : Nat) (g : Launch → Launch) (s : State) : (s.setLaunch k g).teams = s.teams := rfl
@[simp] theorem State.setLaunch_cores (k : Nat) (g : Launch → Launch) (s : State) : (s.setLaunch k g).cores = s.cores := rfl
@[simp] theorem State.setLaunch_clusters (k : Nat) (g : Launch → Launch) (s : State) : (s.setLaunch k g).clusters = s.clusters := rfl
@[simp] theorem State.setLaunch_mem (k : Nat) (g : Launch → Launch) (s : State) : (s.setLaunch k g).mem = s.mem := rfl
@[simp] theorem State.setLaunch_poison (k : Nat) (g : Launch → Launch) (s : State) : (s.setLaunch k g).poison = s.poison := rfl
@[simp] theorem State.setLaunch_parts (k : Nat) (g : Launch → Launch) (s : State) : (s.setLaunch k g).parts = s.parts := rfl
@[simp] theorem State.setLaunch_jobs (k : Nat) (g : Launch → Launch) (s : State) : (s.setLaunch k g).jobs = s.jobs := rfl
@[simp] theorem State.setLaunch_past (k : Nat) (g : Launch → Launch) (s : State) : (s.setLaunch k g).past = s.past := rfl
@[simp] theorem State.setLaunch_queues (k : Nat) (g : Launch → Launch) (s : State) : (s.setLaunch k g).queues = s.queues := rfl
@[simp] theorem State.setLaunch_pools (k : Nat) (g : Launch → Launch) (s : State) : (s.setLaunch k g).pools = s.pools := rfl
@[simp] theorem State.setLaunch_layout (k : Nat) (g : Launch → Launch) (s : State) : (s.setLaunch k g).layout = s.layout := rfl
@[simp] theorem State.setLaunch_conns (k : Nat) (g : Launch → Launch) (s : State) : (s.setLaunch k g).conns = s.conns := rfl
@[simp] theorem State.setLaunch_links (k : Nat) (g : Launch → Launch) (s : State) : (s.setLaunch k g).links = s.links := rfl
@[simp] theorem State.setLaunch_linkDown (k : Nat) (g : Launch → Launch) (s : State) : (s.setLaunch k g).linkDown = s.linkDown := rfl
@[simp] theorem State.setLaunch_slot0 (k : Nat) (g : Launch → Launch) (s : State) : (s.setLaunch k g).slot0 = s.slot0 := rfl
@[simp] theorem State.setLaunch_slot1 (k : Nat) (g : Launch → Launch) (s : State) : (s.setLaunch k g).slot1 = s.slot1 := rfl
@[simp] theorem State.setLaunch_commit (k : Nat) (g : Launch → Launch) (s : State) : (s.setLaunch k g).commit = s.commit := rfl
@[simp] theorem State.setLaunch_repart (k : Nat) (g : Launch → Launch) (s : State) : (s.setLaunch k g).repart = s.repart := rfl
@[simp] theorem State.setLaunch_box (k : Nat) (g : Launch → Launch) (s : State) : (s.setLaunch k g).box = s.box := rfl
@[simp] theorem State.setLaunch_asks (k : Nat) (g : Launch → Launch) (s : State) : (s.setLaunch k g).asks = s.asks := rfl
@[simp] theorem State.setLaunch_stage (k : Nat) (g : Launch → Launch) (s : State) : (s.setLaunch k g).stage = s.stage := rfl
@[simp] theorem State.setLaunch_accepted (k : Nat) (g : Launch → Launch) (s : State) : (s.setLaunch k g).accepted = s.accepted := rfl
@[simp] theorem State.setLaunch_answer (k : Nat) (g : Launch → Launch) (s : State) : (s.setLaunch k g).answer = s.answer := rfl
@[simp] theorem State.setLaunch_flash (k : Nat) (g : Launch → Launch) (s : State) : (s.setLaunch k g).flash = s.flash := rfl
@[simp] theorem State.setLaunch_running (k : Nat) (g : Launch → Launch) (s : State) : (s.setLaunch k g).running = s.running := rfl
@[simp] theorem State.setLaunch_nextTeam (k : Nat) (g : Launch → Launch) (s : State) : (s.setLaunch k g).nextTeam = s.nextTeam := rfl
@[simp] theorem State.setLaunch_nextLaunch (k : Nat) (g : Launch → Launch) (s : State) : (s.setLaunch k g).nextLaunch = s.nextLaunch := rfl
@[simp] theorem State.setLaunch_cur (k : Nat) (g : Launch → Launch) (s : State) : (s.setLaunch k g).cur = s.cur := rfl
@[simp] theorem State.setLaunch_agenda (k : Nat) (g : Launch → Launch) (s : State) : (s.setLaunch k g).agenda = s.agenda := rfl
@[simp] theorem State.setLaunch_peerAnswer (k : Nat) (g : Launch → Launch) (s : State) : (s.setLaunch k g).peerAnswer = s.peerAnswer := rfl
@[simp] theorem State.setLaunch_loose (k : Nat) (g : Launch → Launch) (s : State) : (s.setLaunch k g).loose = s.loose := rfl
@[simp] theorem State.setLaunch_hostRead (k : Nat) (g : Launch → Launch) (s : State) : (s.setLaunch k g).hostRead = s.hostRead := rfl
@[simp] theorem State.setLaunch_choices (k : Nat) (g : Launch → Launch) (s : State) : (s.setLaunch k g).choices = s.choices := rfl
@[simp] theorem State.setLaunch_frees (k : Nat) (g : Launch → Launch) (s : State) : (s.setLaunch k g).frees = s.frees := rfl

/-! ### State.setFrag -/

@[simp] theorem State.setFrag_teams (k i : Nat) (g : Frag → Frag) (s : State) : (s.setFrag k i g).teams = s.teams := rfl
@[simp] theorem State.setFrag_cores (k i : Nat) (g : Frag → Frag) (s : State) : (s.setFrag k i g).cores = s.cores := rfl
@[simp] theorem State.setFrag_clusters (k i : Nat) (g : Frag → Frag) (s : State) : (s.setFrag k i g).clusters = s.clusters := rfl
@[simp] theorem State.setFrag_mem (k i : Nat) (g : Frag → Frag) (s : State) : (s.setFrag k i g).mem = s.mem := rfl
@[simp] theorem State.setFrag_poison (k i : Nat) (g : Frag → Frag) (s : State) : (s.setFrag k i g).poison = s.poison := rfl
@[simp] theorem State.setFrag_parts (k i : Nat) (g : Frag → Frag) (s : State) : (s.setFrag k i g).parts = s.parts := rfl
@[simp] theorem State.setFrag_launches (k i : Nat) (g : Frag → Frag) (s : State) : (s.setFrag k i g).launches = s.launches := rfl
@[simp] theorem State.setFrag_past (k i : Nat) (g : Frag → Frag) (s : State) : (s.setFrag k i g).past = s.past := rfl
@[simp] theorem State.setFrag_jobs (k i : Nat) (g : Frag → Frag) (s : State) : (s.setFrag k i g).jobs = s.jobs := rfl
@[simp] theorem State.setFrag_queues (k i : Nat) (g : Frag → Frag) (s : State) : (s.setFrag k i g).queues = s.queues := rfl
@[simp] theorem State.setFrag_pools (k i : Nat) (g : Frag → Frag) (s : State) : (s.setFrag k i g).pools = s.pools := rfl
@[simp] theorem State.setFrag_layout (k i : Nat) (g : Frag → Frag) (s : State) : (s.setFrag k i g).layout = s.layout := rfl
@[simp] theorem State.setFrag_conns (k i : Nat) (g : Frag → Frag) (s : State) : (s.setFrag k i g).conns = s.conns := rfl
@[simp] theorem State.setFrag_links (k i : Nat) (g : Frag → Frag) (s : State) : (s.setFrag k i g).links = s.links := rfl
@[simp] theorem State.setFrag_linkDown (k i : Nat) (g : Frag → Frag) (s : State) : (s.setFrag k i g).linkDown = s.linkDown := rfl
@[simp] theorem State.setFrag_slot0 (k i : Nat) (g : Frag → Frag) (s : State) : (s.setFrag k i g).slot0 = s.slot0 := rfl
@[simp] theorem State.setFrag_slot1 (k i : Nat) (g : Frag → Frag) (s : State) : (s.setFrag k i g).slot1 = s.slot1 := rfl
@[simp] theorem State.setFrag_commit (k i : Nat) (g : Frag → Frag) (s : State) : (s.setFrag k i g).commit = s.commit := rfl
@[simp] theorem State.setFrag_repart (k i : Nat) (g : Frag → Frag) (s : State) : (s.setFrag k i g).repart = s.repart := rfl
@[simp] theorem State.setFrag_box (k i : Nat) (g : Frag → Frag) (s : State) : (s.setFrag k i g).box = s.box := rfl
@[simp] theorem State.setFrag_asks (k i : Nat) (g : Frag → Frag) (s : State) : (s.setFrag k i g).asks = s.asks := rfl
@[simp] theorem State.setFrag_stage (k i : Nat) (g : Frag → Frag) (s : State) : (s.setFrag k i g).stage = s.stage := rfl
@[simp] theorem State.setFrag_accepted (k i : Nat) (g : Frag → Frag) (s : State) : (s.setFrag k i g).accepted = s.accepted := rfl
@[simp] theorem State.setFrag_answer (k i : Nat) (g : Frag → Frag) (s : State) : (s.setFrag k i g).answer = s.answer := rfl
@[simp] theorem State.setFrag_flash (k i : Nat) (g : Frag → Frag) (s : State) : (s.setFrag k i g).flash = s.flash := rfl
@[simp] theorem State.setFrag_running (k i : Nat) (g : Frag → Frag) (s : State) : (s.setFrag k i g).running = s.running := rfl
@[simp] theorem State.setFrag_nextTeam (k i : Nat) (g : Frag → Frag) (s : State) : (s.setFrag k i g).nextTeam = s.nextTeam := rfl
@[simp] theorem State.setFrag_nextLaunch (k i : Nat) (g : Frag → Frag) (s : State) : (s.setFrag k i g).nextLaunch = s.nextLaunch := rfl
@[simp] theorem State.setFrag_cur (k i : Nat) (g : Frag → Frag) (s : State) : (s.setFrag k i g).cur = s.cur := rfl
@[simp] theorem State.setFrag_agenda (k i : Nat) (g : Frag → Frag) (s : State) : (s.setFrag k i g).agenda = s.agenda := rfl
@[simp] theorem State.setFrag_peerAnswer (k i : Nat) (g : Frag → Frag) (s : State) : (s.setFrag k i g).peerAnswer = s.peerAnswer := rfl
@[simp] theorem State.setFrag_loose (k i : Nat) (g : Frag → Frag) (s : State) : (s.setFrag k i g).loose = s.loose := rfl
@[simp] theorem State.setFrag_hostRead (k i : Nat) (g : Frag → Frag) (s : State) : (s.setFrag k i g).hostRead = s.hostRead := rfl
@[simp] theorem State.setFrag_choices (k i : Nat) (g : Frag → Frag) (s : State) : (s.setFrag k i g).choices = s.choices := rfl
@[simp] theorem State.setFrag_frees (k i : Nat) (g : Frag → Frag) (s : State) : (s.setFrag k i g).frees = s.frees := rfl

/-! ### State.setQueue -/

@[simp] theorem State.setQueue_waves (q : Nat) (g : HostQueue → HostQueue) (s : State) : (s.setQueue q g).waves = s.waves := rfl
@[simp] theorem State.setQueue_teams (q : Nat) (g : HostQueue → HostQueue) (s : State) : (s.setQueue q g).teams = s.teams := rfl
@[simp] theorem State.setQueue_cores (q : Nat) (g : HostQueue → HostQueue) (s : State) : (s.setQueue q g).cores = s.cores := rfl
@[simp] theorem State.setQueue_clusters (q : Nat) (g : HostQueue → HostQueue) (s : State) : (s.setQueue q g).clusters = s.clusters := rfl
@[simp] theorem State.setQueue_mem (q : Nat) (g : HostQueue → HostQueue) (s : State) : (s.setQueue q g).mem = s.mem := rfl
@[simp] theorem State.setQueue_poison (q : Nat) (g : HostQueue → HostQueue) (s : State) : (s.setQueue q g).poison = s.poison := rfl
@[simp] theorem State.setQueue_parts (q : Nat) (g : HostQueue → HostQueue) (s : State) : (s.setQueue q g).parts = s.parts := rfl
@[simp] theorem State.setQueue_launches (q : Nat) (g : HostQueue → HostQueue) (s : State) : (s.setQueue q g).launches = s.launches := rfl
@[simp] theorem State.setQueue_past (q : Nat) (g : HostQueue → HostQueue) (s : State) : (s.setQueue q g).past = s.past := rfl
@[simp] theorem State.setQueue_jobs (q : Nat) (g : HostQueue → HostQueue) (s : State) : (s.setQueue q g).jobs = s.jobs := rfl
@[simp] theorem State.setQueue_pools (q : Nat) (g : HostQueue → HostQueue) (s : State) : (s.setQueue q g).pools = s.pools := rfl
@[simp] theorem State.setQueue_layout (q : Nat) (g : HostQueue → HostQueue) (s : State) : (s.setQueue q g).layout = s.layout := rfl
@[simp] theorem State.setQueue_conns (q : Nat) (g : HostQueue → HostQueue) (s : State) : (s.setQueue q g).conns = s.conns := rfl
@[simp] theorem State.setQueue_links (q : Nat) (g : HostQueue → HostQueue) (s : State) : (s.setQueue q g).links = s.links := rfl
@[simp] theorem State.setQueue_linkDown (q : Nat) (g : HostQueue → HostQueue) (s : State) : (s.setQueue q g).linkDown = s.linkDown := rfl
@[simp] theorem State.setQueue_slot0 (q : Nat) (g : HostQueue → HostQueue) (s : State) : (s.setQueue q g).slot0 = s.slot0 := rfl
@[simp] theorem State.setQueue_slot1 (q : Nat) (g : HostQueue → HostQueue) (s : State) : (s.setQueue q g).slot1 = s.slot1 := rfl
@[simp] theorem State.setQueue_commit (q : Nat) (g : HostQueue → HostQueue) (s : State) : (s.setQueue q g).commit = s.commit := rfl
@[simp] theorem State.setQueue_repart (q : Nat) (g : HostQueue → HostQueue) (s : State) : (s.setQueue q g).repart = s.repart := rfl
@[simp] theorem State.setQueue_box (q : Nat) (g : HostQueue → HostQueue) (s : State) : (s.setQueue q g).box = s.box := rfl
@[simp] theorem State.setQueue_asks (q : Nat) (g : HostQueue → HostQueue) (s : State) : (s.setQueue q g).asks = s.asks := rfl
@[simp] theorem State.setQueue_stage (q : Nat) (g : HostQueue → HostQueue) (s : State) : (s.setQueue q g).stage = s.stage := rfl
@[simp] theorem State.setQueue_accepted (q : Nat) (g : HostQueue → HostQueue) (s : State) : (s.setQueue q g).accepted = s.accepted := rfl
@[simp] theorem State.setQueue_answer (q : Nat) (g : HostQueue → HostQueue) (s : State) : (s.setQueue q g).answer = s.answer := rfl
@[simp] theorem State.setQueue_flash (q : Nat) (g : HostQueue → HostQueue) (s : State) : (s.setQueue q g).flash = s.flash := rfl
@[simp] theorem State.setQueue_running (q : Nat) (g : HostQueue → HostQueue) (s : State) : (s.setQueue q g).running = s.running := rfl
@[simp] theorem State.setQueue_nextTeam (q : Nat) (g : HostQueue → HostQueue) (s : State) : (s.setQueue q g).nextTeam = s.nextTeam := rfl
@[simp] theorem State.setQueue_nextLaunch (q : Nat) (g : HostQueue → HostQueue) (s : State) : (s.setQueue q g).nextLaunch = s.nextLaunch := rfl
@[simp] theorem State.setQueue_cur (q : Nat) (g : HostQueue → HostQueue) (s : State) : (s.setQueue q g).cur = s.cur := rfl
@[simp] theorem State.setQueue_agenda (q : Nat) (g : HostQueue → HostQueue) (s : State) : (s.setQueue q g).agenda = s.agenda := rfl
@[simp] theorem State.setQueue_peerAnswer (q : Nat) (g : HostQueue → HostQueue) (s : State) : (s.setQueue q g).peerAnswer = s.peerAnswer := rfl
@[simp] theorem State.setQueue_loose (q : Nat) (g : HostQueue → HostQueue) (s : State) : (s.setQueue q g).loose = s.loose := rfl
@[simp] theorem State.setQueue_hostRead (q : Nat) (g : HostQueue → HostQueue) (s : State) : (s.setQueue q g).hostRead = s.hostRead := rfl
@[simp] theorem State.setQueue_choices (q : Nat) (g : HostQueue → HostQueue) (s : State) : (s.setQueue q g).choices = s.choices := rfl
@[simp] theorem State.setQueue_frees (q : Nat) (g : HostQueue → HostQueue) (s : State) : (s.setQueue q g).frees = s.frees := rfl

/-! ### State.answers -/

@[simp] theorem State.answers_waves (a : Answer) (s : State) : (s.answers a).waves = s.waves := rfl
@[simp] theorem State.answers_teams (a : Answer) (s : State) : (s.answers a).teams = s.teams := rfl
@[simp] theorem State.answers_cores (a : Answer) (s : State) : (s.answers a).cores = s.cores := rfl
@[simp] theorem State.answers_clusters (a : Answer) (s : State) : (s.answers a).clusters = s.clusters := rfl
@[simp] theorem State.answers_mem (a : Answer) (s : State) : (s.answers a).mem = s.mem := rfl
@[simp] theorem State.answers_poison (a : Answer) (s : State) : (s.answers a).poison = s.poison := rfl
@[simp] theorem State.answers_parts (a : Answer) (s : State) : (s.answers a).parts = s.parts := rfl
@[simp] theorem State.answers_launches (a : Answer) (s : State) : (s.answers a).launches = s.launches := rfl
@[simp] theorem State.answers_past (a : Answer) (s : State) : (s.answers a).past = s.past := rfl
@[simp] theorem State.answers_jobs (a : Answer) (s : State) : (s.answers a).jobs = s.jobs := rfl
@[simp] theorem State.answers_queues (a : Answer) (s : State) : (s.answers a).queues = s.queues := rfl
@[simp] theorem State.answers_pools (a : Answer) (s : State) : (s.answers a).pools = s.pools := rfl
@[simp] theorem State.answers_layout (a : Answer) (s : State) : (s.answers a).layout = s.layout := rfl
@[simp] theorem State.answers_conns (a : Answer) (s : State) : (s.answers a).conns = s.conns := rfl
@[simp] theorem State.answers_links (a : Answer) (s : State) : (s.answers a).links = s.links := rfl
@[simp] theorem State.answers_linkDown (a : Answer) (s : State) : (s.answers a).linkDown = s.linkDown := rfl
@[simp] theorem State.answers_slot0 (a : Answer) (s : State) : (s.answers a).slot0 = s.slot0 := rfl
@[simp] theorem State.answers_slot1 (a : Answer) (s : State) : (s.answers a).slot1 = s.slot1 := rfl
@[simp] theorem State.answers_commit (a : Answer) (s : State) : (s.answers a).commit = s.commit := rfl
@[simp] theorem State.answers_repart (a : Answer) (s : State) : (s.answers a).repart = s.repart := rfl
@[simp] theorem State.answers_box (a : Answer) (s : State) : (s.answers a).box = s.box := rfl
@[simp] theorem State.answers_asks (a : Answer) (s : State) : (s.answers a).asks = s.asks := rfl
@[simp] theorem State.answers_stage (a : Answer) (s : State) : (s.answers a).stage = s.stage := rfl
@[simp] theorem State.answers_accepted (a : Answer) (s : State) : (s.answers a).accepted = s.accepted := rfl
@[simp] theorem State.answers_flash (a : Answer) (s : State) : (s.answers a).flash = s.flash := rfl
@[simp] theorem State.answers_running (a : Answer) (s : State) : (s.answers a).running = s.running := rfl
@[simp] theorem State.answers_nextTeam (a : Answer) (s : State) : (s.answers a).nextTeam = s.nextTeam := rfl
@[simp] theorem State.answers_nextLaunch (a : Answer) (s : State) : (s.answers a).nextLaunch = s.nextLaunch := rfl
@[simp] theorem State.answers_cur (a : Answer) (s : State) : (s.answers a).cur = s.cur := rfl
@[simp] theorem State.answers_agenda (a : Answer) (s : State) : (s.answers a).agenda = s.agenda := rfl
@[simp] theorem State.answers_peerAnswer (a : Answer) (s : State) : (s.answers a).peerAnswer = s.peerAnswer := rfl
@[simp] theorem State.answers_loose (a : Answer) (s : State) : (s.answers a).loose = s.loose := rfl
@[simp] theorem State.answers_hostRead (a : Answer) (s : State) : (s.answers a).hostRead = s.hostRead := rfl
@[simp] theorem State.answers_choices (a : Answer) (s : State) : (s.answers a).choices = s.choices := rfl
@[simp] theorem State.answers_frees (a : Answer) (s : State) : (s.answers a).frees = s.frees := rfl

/-! ### State.foundFault -/

/-- A partition fault found is noted in its partition, or in the REPART that runs, and nowhere else (R370). -/
theorem State.foundFault_rest (p : Nat) (s : State) :
    s.foundFault p = { s with parts := (s.foundFault p).parts, repart := (s.foundFault p).repart } := by
  unfold State.foundFault
  split
  · rfl
  · split <;> rfl

@[simp] theorem State.foundFault_waves (p : Nat) (s : State) : (s.foundFault p).waves = s.waves := by
  rw [State.foundFault_rest]
@[simp] theorem State.foundFault_teams (p : Nat) (s : State) : (s.foundFault p).teams = s.teams := by
  rw [State.foundFault_rest]
@[simp] theorem State.foundFault_cores (p : Nat) (s : State) : (s.foundFault p).cores = s.cores := by
  rw [State.foundFault_rest]
@[simp] theorem State.foundFault_clusters (p : Nat) (s : State) : (s.foundFault p).clusters = s.clusters := by
  rw [State.foundFault_rest]
@[simp] theorem State.foundFault_mem (p : Nat) (s : State) : (s.foundFault p).mem = s.mem := by
  rw [State.foundFault_rest]
@[simp] theorem State.foundFault_poison (p : Nat) (s : State) : (s.foundFault p).poison = s.poison := by
  rw [State.foundFault_rest]
@[simp] theorem State.foundFault_launches (p : Nat) (s : State) : (s.foundFault p).launches = s.launches := by
  rw [State.foundFault_rest]
@[simp] theorem State.foundFault_past (p : Nat) (s : State) : (s.foundFault p).past = s.past := by
  rw [State.foundFault_rest]
@[simp] theorem State.foundFault_jobs (p : Nat) (s : State) : (s.foundFault p).jobs = s.jobs := by
  rw [State.foundFault_rest]
@[simp] theorem State.foundFault_queues (p : Nat) (s : State) : (s.foundFault p).queues = s.queues := by
  rw [State.foundFault_rest]
@[simp] theorem State.foundFault_layout (p : Nat) (s : State) : (s.foundFault p).layout = s.layout := by
  rw [State.foundFault_rest]
@[simp] theorem State.foundFault_conns (p : Nat) (s : State) : (s.foundFault p).conns = s.conns := by
  rw [State.foundFault_rest]

/-! ### State.tick -/

@[simp] theorem State.tick_waves (c : Nat) (s : State) : (s.tick c).waves = s.waves := rfl
@[simp] theorem State.tick_teams (c : Nat) (s : State) : (s.tick c).teams = s.teams := rfl
@[simp] theorem State.tick_clusters (c : Nat) (s : State) : (s.tick c).clusters = s.clusters := rfl
@[simp] theorem State.tick_mem (c : Nat) (s : State) : (s.tick c).mem = s.mem := rfl
@[simp] theorem State.tick_poison (c : Nat) (s : State) : (s.tick c).poison = s.poison := rfl
@[simp] theorem State.tick_parts (c : Nat) (s : State) : (s.tick c).parts = s.parts := rfl
@[simp] theorem State.tick_launches (c : Nat) (s : State) : (s.tick c).launches = s.launches := rfl
@[simp] theorem State.tick_past (c : Nat) (s : State) : (s.tick c).past = s.past := rfl
@[simp] theorem State.tick_jobs (c : Nat) (s : State) : (s.tick c).jobs = s.jobs := rfl
@[simp] theorem State.tick_queues (c : Nat) (s : State) : (s.tick c).queues = s.queues := rfl
@[simp] theorem State.tick_pools (c : Nat) (s : State) : (s.tick c).pools = s.pools := rfl
@[simp] theorem State.tick_layout (c : Nat) (s : State) : (s.tick c).layout = s.layout := rfl
@[simp] theorem State.tick_conns (c : Nat) (s : State) : (s.tick c).conns = s.conns := rfl
@[simp] theorem State.tick_links (c : Nat) (s : State) : (s.tick c).links = s.links := rfl
@[simp] theorem State.tick_linkDown (c : Nat) (s : State) : (s.tick c).linkDown = s.linkDown := rfl
@[simp] theorem State.tick_slot0 (c : Nat) (s : State) : (s.tick c).slot0 = s.slot0 := rfl
@[simp] theorem State.tick_slot1 (c : Nat) (s : State) : (s.tick c).slot1 = s.slot1 := rfl
@[simp] theorem State.tick_commit (c : Nat) (s : State) : (s.tick c).commit = s.commit := rfl
@[simp] theorem State.tick_repart (c : Nat) (s : State) : (s.tick c).repart = s.repart := rfl
@[simp] theorem State.tick_box (c : Nat) (s : State) : (s.tick c).box = s.box := rfl
@[simp] theorem State.tick_asks (c : Nat) (s : State) : (s.tick c).asks = s.asks := rfl
@[simp] theorem State.tick_stage (c : Nat) (s : State) : (s.tick c).stage = s.stage := rfl
@[simp] theorem State.tick_accepted (c : Nat) (s : State) : (s.tick c).accepted = s.accepted := rfl
@[simp] theorem State.tick_answer (c : Nat) (s : State) : (s.tick c).answer = s.answer := rfl
@[simp] theorem State.tick_flash (c : Nat) (s : State) : (s.tick c).flash = s.flash := rfl
@[simp] theorem State.tick_running (c : Nat) (s : State) : (s.tick c).running = s.running := rfl
@[simp] theorem State.tick_nextTeam (c : Nat) (s : State) : (s.tick c).nextTeam = s.nextTeam := rfl
@[simp] theorem State.tick_nextLaunch (c : Nat) (s : State) : (s.tick c).nextLaunch = s.nextLaunch := rfl
@[simp] theorem State.tick_cur (c : Nat) (s : State) : (s.tick c).cur = s.cur := rfl
@[simp] theorem State.tick_agenda (c : Nat) (s : State) : (s.tick c).agenda = s.agenda := rfl
@[simp] theorem State.tick_peerAnswer (c : Nat) (s : State) : (s.tick c).peerAnswer = s.peerAnswer := rfl
@[simp] theorem State.tick_loose (c : Nat) (s : State) : (s.tick c).loose = s.loose := rfl
@[simp] theorem State.tick_hostRead (c : Nat) (s : State) : (s.tick c).hostRead = s.hostRead := rfl
@[simp] theorem State.tick_choices (c : Nat) (s : State) : (s.tick c).choices = s.choices := rfl

/-! ### What is found after an update -/

@[simp] theorem State.setWave_find (j k : Nat) (g : Wave → Wave) (s : State) :
    Tab.find j (s.setWave k g).waves = if j = k then (Tab.find j s.waves).map g else Tab.find j s.waves :=
  Tab.find_upd j k g s.waves

@[simp] theorem State.setFrag_find (j k i : Nat) (g : Frag → Frag) (s : State) :
    Tab.find j (s.setFrag k i g).waves =
      if j = k then (Tab.find j s.waves).map (Wave.setFrag i g) else Tab.find j s.waves :=
  Tab.find_upd j k (Wave.setFrag i g) s.waves

@[simp] theorem State.setTeam_find (j k : Nat) (g : Team → Team) (s : State) :
    Tab.find j (s.setTeam k g).teams = if j = k then (Tab.find j s.teams).map g else Tab.find j s.teams :=
  Tab.find_upd j k g s.teams

@[simp] theorem State.setLaunch_find (j k : Nat) (g : Launch → Launch) (s : State) :
    Tab.find j (s.setLaunch k g).launches =
      if j = k then (Tab.find j s.launches).map g else Tab.find j s.launches :=
  Tab.find_upd j k g s.launches

theorem State.setCore_core (j c : Nat) (g : Core → Core) (s : State) :
    (s.setCore c g).core j = if j = c then g (s.core c) else s.core j := by
  unfold State.core State.setCore
  split
  · subst_vars; exact Tab.getD_put_same ..
  · exact Tab.getD_put_other _ ‹_› _ _

@[simp] theorem State.setCore_core_same (c : Nat) (g : Core → Core) (s : State) : (s.setCore c g).core c = g (s.core c) := by
  simp [State.setCore_core]

theorem State.setCluster_cluster (j c : Nat) (g : Cluster → Cluster) (s : State) :
    (s.setCluster c g).cluster j = if j = c then g (s.cluster c) else s.cluster j := by
  unfold State.cluster State.setCluster
  split
  · subst_vars; exact Tab.getD_put_same ..
  · exact Tab.getD_put_other _ ‹_› _ _

@[simp] theorem State.setCluster_cluster_same (c : Nat) (g : Cluster → Cluster) (s : State) :
    (s.setCluster c g).cluster c = g (s.cluster c) := by
  simp [State.setCluster_cluster]

theorem State.setPart_part (j p : Nat) (g : Partition → Partition) (s : State) :
    (s.setPart p g).part j = if j = p then g (s.part p) else s.part j := by
  unfold State.part State.setPart
  split
  · subst_vars; exact Tab.getD_put_same ..
  · exact Tab.getD_put_other _ ‹_› _ _

@[simp] theorem State.setPart_part_same (p : Nat) (g : Partition → Partition) (s : State) :
    (s.setPart p g).part p = g (s.part p) := by
  simp [State.setPart_part]

theorem State.setQueue_queue (j q : Nat) (g : HostQueue → HostQueue) (s : State) :
    (s.setQueue q g).queue j = if j = q then g (s.queue q) else s.queue j := by
  unfold State.queue State.setQueue
  split
  · subst_vars; exact Tab.getD_put_same ..
  · exact Tab.getD_put_other _ ‹_› _ _

@[simp] theorem State.setWave_core (k : Nat) (g : Wave → Wave) (s : State) (c : Nat) : (s.setWave k g).core c = s.core c := rfl
@[simp] theorem State.setTeam_core (k : Nat) (g : Team → Team) (s : State) (c : Nat) : (s.setTeam k g).core c = s.core c := rfl
@[simp] theorem State.setFrag_core (k i : Nat) (g : Frag → Frag) (s : State) (c : Nat) : (s.setFrag k i g).core c = s.core c := rfl
@[simp] theorem State.setWave_now (k : Nat) (g : Wave → Wave) (s : State) (j : Nat) : (s.setWave k g).now j = s.now j := rfl

/-! ### A fragment of a wave changed -/

@[simp] theorem Wave.setFrag_regs (i : Nat) (g : Frag → Frag) (w : Wave) : (w.setFrag i g).regs = w.regs := rfl
@[simp] theorem Wave.setFrag_binds (i : Nat) (g : Frag → Frag) (w : Wave) : (w.setFrag i g).binds = w.binds := rfl
@[simp] theorem Wave.setFrag_scales (i : Nat) (g : Frag → Frag) (w : Wave) : (w.setFrag i g).scales = w.scales := rfl
@[simp] theorem Wave.setFrag_landing (i : Nat) (g : Frag → Frag) (w : Wave) : (w.setFrag i g).landing = w.landing := rfl
@[simp] theorem Wave.setFrag_team (i : Nat) (g : Frag → Frag) (w : Wave) : (w.setFrag i g).team = w.team := rfl
@[simp] theorem Wave.setFrag_num (i : Nat) (g : Frag → Frag) (w : Wave) : (w.setFrag i g).num = w.num := rfl
@[simp] theorem Wave.setFrag_live (i : Nat) (g : Frag → Frag) (w : Wave) : (w.setFrag i g).live = w.live := rfl
@[simp] theorem Wave.setFrag_ext (i : Nat) (g : Frag → Frag) (w : Wave) : (w.setFrag i g).ext = w.ext := rfl
@[simp] theorem Wave.setFrag_mode (i : Nat) (g : Frag → Frag) (w : Wave) : (w.setFrag i g).mode = w.mode := rfl
@[simp] theorem Wave.setFrag_arrivals (i : Nat) (g : Frag → Frag) (w : Wave) : (w.setFrag i g).arrivals = w.arrivals := rfl
@[simp] theorem Wave.setFrag_kin (i : Nat) (g : Frag → Frag) (w : Wave) : (w.setFrag i g).kin = w.kin := rfl
@[simp] theorem Wave.setFrag_late (i : Nat) (g : Frag → Frag) (w : Wave) : (w.setFrag i g).late = w.late := rfl
@[simp] theorem Wave.setFrag_sealed (i : Nat) (g : Frag → Frag) (w : Wave) : (w.setFrag i g).sealed = w.sealed := rfl
@[simp] theorem Wave.setFrag_entries (i : Nat) (g : Frag → Frag) (w : Wave) : (w.setFrag i g).entries = w.entries := rfl
@[simp] theorem Wave.setFrag_parked (i : Nat) (g : Frag → Frag) (w : Wave) : (w.setFrag i g).parked = w.parked := rfl
@[simp] theorem Wave.setFrag_trap (i : Nat) (g : Frag → Frag) (w : Wave) : (w.setFrag i g).trap = w.trap := rfl
@[simp] theorem Wave.setFrag_tretLanes (i : Nat) (g : Frag → Frag) (w : Wave) : (w.setFrag i g).tretLanes = w.tretLanes := rfl
@[simp] theorem Wave.setFrag_hostResp (i : Nat) (g : Frag → Frag) (w : Wave) : (w.setFrag i g).hostResp = w.hostResp := rfl
@[simp] theorem Wave.setFrag_scratch (i : Nat) (g : Frag → Frag) (w : Wave) : (w.setFrag i g).scratch = w.scratch := rfl
@[simp] theorem Wave.setFrag_evictable (i : Nat) (g : Frag → Frag) (w : Wave) : (w.setFrag i g).evictable = w.evictable := rfl
@[simp] theorem Wave.setFrag_spilt (i : Nat) (g : Frag → Frag) (w : Wave) : (w.setFrag i g).spilt = w.spilt := rfl
@[simp] theorem Wave.setFrag_faults (i : Nat) (g : Frag → Frag) (w : Wave) : (w.setFrag i g).faults = w.faults := rfl
@[simp] theorem Wave.setFrag_outstanding (i : Nat) (g : Frag → Frag) (w : Wave) :
    (w.setFrag i g).outstanding = w.outstanding := rfl
@[simp] theorem Wave.setFrag_handlerFlag (i : Nat) (g : Frag → Frag) (w : Wave) :
    (w.setFrag i g).handlerFlag = w.handlerFlag := rfl

theorem Wave.setFrag_get (j i : Nat) (g : Frag → Frag) (w : Wave) :
    (w.setFrag i g).frags[j]? = if j = i then (w.frags[j]?).map g else w.frags[j]? := by
  simp only [Wave.setFrag, List.getElem?_modify]
  split <;> split <;> simp_all

theorem Wave.setFrag_setFrag (i : Nat) (g h : Frag → Frag) (w : Wave) :
    (w.setFrag i g).setFrag i h = w.setFrag i (h ∘ g) := by
  simp [Wave.setFrag, List.modify_modify_eq]

/-! ### Team.setPage -/

@[simp] theorem Team.setPage_launch (p : Nat) (g : Page → Page) (tm : Team) : (tm.setPage p g).launch = tm.launch := rfl
@[simp] theorem Team.setPage_num (p : Nat) (g : Page → Page) (tm : Team) : (tm.setPage p g).num = tm.num := rfl
@[simp] theorem Team.setPage_core (p : Nat) (g : Page → Page) (tm : Team) : (tm.setPage p g).core = tm.core := rfl
@[simp] theorem Team.setPage_place (p : Nat) (g : Page → Page) (tm : Team) : (tm.setPage p g).place = tm.place := rfl
@[simp] theorem Team.setPage_origin (p : Nat) (g : Page → Page) (tm : Team) : (tm.setPage p g).origin = tm.origin := rfl
@[simp] theorem Team.setPage_shape (p : Nat) (g : Page → Page) (tm : Team) : (tm.setPage p g).shape = tm.shape := rfl
@[simp] theorem Team.setPage_waves (p : Nat) (g : Page → Page) (tm : Team) : (tm.setPage p g).waves = tm.waves := rfl
@[simp] theorem Team.setPage_window (p : Nat) (g : Page → Page) (tm : Team) : (tm.setPage p g).window = tm.window := rfl
@[simp] theorem Team.setPage_scratch (p : Nat) (g : Page → Page) (tm : Team) : (tm.setPage p g).scratch = tm.scratch := rfl
@[simp] theorem Team.setPage_gone (p : Nat) (g : Page → Page) (tm : Team) : (tm.setPage p g).gone = tm.gone := rfl
@[simp] theorem Team.setPage_holds (p : Nat) (g : Page → Page) (tm : Team) : (tm.setPage p g).holds = tm.holds := rfl
@[simp] theorem Team.setPage_halt (p : Nat) (g : Page → Page) (tm : Team) : (tm.setPage p g).halt = tm.halt := rfl
@[simp] theorem Team.setPage_parked (p : Nat) (g : Page → Page) (tm : Team) : (tm.setPage p g).parked = tm.parked := rfl
@[simp] theorem Team.setPage_dead (p : Nat) (g : Page → Page) (tm : Team) : (tm.setPage p g).dead = tm.dead := rfl
@[simp] theorem Team.setPage_faulted (p : Nat) (g : Page → Page) (tm : Team) : (tm.setPage p g).faulted = tm.faulted := rfl
@[simp] theorem Team.setPage_step (p : Nat) (g : Page → Page) (tm : Team) : (tm.setPage p g).step = tm.step := rfl
@[simp] theorem Team.setPage_minority (p : Nat) (g : Page → Page) (tm : Team) : (tm.setPage p g).minority = tm.minority := rfl
@[simp] theorem Team.setPage_foot (p : Nat) (g : Page → Page) (tm : Team) : (tm.setPage p g).foot = tm.foot := rfl
@[simp] theorem Team.setPage_l2 (p : Nat) (g : Page → Page) (tm : Team) : (tm.setPage p g).l2 = tm.l2 := rfl
@[simp] theorem Team.setPage_startedAt (p : Nat) (g : Page → Page) (tm : Team) : (tm.setPage p g).startedAt = tm.startedAt := rfl

/-! ### Team.setLine -/

@[simp] theorem Team.setLine_launch (tm : Team) (t : Nat) (l : StashLine) : (tm.setLine t l).launch = tm.launch := rfl
@[simp] theorem Team.setLine_num (tm : Team) (t : Nat) (l : StashLine) : (tm.setLine t l).num = tm.num := rfl
@[simp] theorem Team.setLine_core (tm : Team) (t : Nat) (l : StashLine) : (tm.setLine t l).core = tm.core := rfl
@[simp] theorem Team.setLine_place (tm : Team) (t : Nat) (l : StashLine) : (tm.setLine t l).place = tm.place := rfl
@[simp] theorem Team.setLine_origin (tm : Team) (t : Nat) (l : StashLine) : (tm.setLine t l).origin = tm.origin := rfl
@[simp] theorem Team.setLine_shape (tm : Team) (t : Nat) (l : StashLine) : (tm.setLine t l).shape = tm.shape := rfl
@[simp] theorem Team.setLine_waves (tm : Team) (t : Nat) (l : StashLine) : (tm.setLine t l).waves = tm.waves := rfl
@[simp] theorem Team.setLine_window (tm : Team) (t : Nat) (l : StashLine) : (tm.setLine t l).window = tm.window := rfl
@[simp] theorem Team.setLine_scratch (tm : Team) (t : Nat) (l : StashLine) : (tm.setLine t l).scratch = tm.scratch := rfl
@[simp] theorem Team.setLine_gone (tm : Team) (t : Nat) (l : StashLine) : (tm.setLine t l).gone = tm.gone := rfl
@[simp] theorem Team.setLine_holds (tm : Team) (t : Nat) (l : StashLine) : (tm.setLine t l).holds = tm.holds := rfl
@[simp] theorem Team.setLine_halt (tm : Team) (t : Nat) (l : StashLine) : (tm.setLine t l).halt = tm.halt := rfl
@[simp] theorem Team.setLine_parked (tm : Team) (t : Nat) (l : StashLine) : (tm.setLine t l).parked = tm.parked := rfl
@[simp] theorem Team.setLine_dead (tm : Team) (t : Nat) (l : StashLine) : (tm.setLine t l).dead = tm.dead := rfl
@[simp] theorem Team.setLine_faulted (tm : Team) (t : Nat) (l : StashLine) : (tm.setLine t l).faulted = tm.faulted := rfl
@[simp] theorem Team.setLine_step (tm : Team) (t : Nat) (l : StashLine) : (tm.setLine t l).step = tm.step := rfl
@[simp] theorem Team.setLine_minority (tm : Team) (t : Nat) (l : StashLine) : (tm.setLine t l).minority = tm.minority := rfl
@[simp] theorem Team.setLine_foot (tm : Team) (t : Nat) (l : StashLine) : (tm.setLine t l).foot = tm.foot := rfl
@[simp] theorem Team.setLine_l2 (tm : Team) (t : Nat) (l : StashLine) : (tm.setLine t l).l2 = tm.l2 := rfl
@[simp] theorem Team.setLine_startedAt (tm : Team) (t : Nat) (l : StashLine) : (tm.setLine t l).startedAt = tm.startedAt := rfl

/-! ### Team.putBytes -/

@[simp] theorem Team.putBytes_launch (t : Nat) (bs : List Byte) (tm : Team) : (tm.putBytes t bs).launch = tm.launch := rfl
@[simp] theorem Team.putBytes_num (t : Nat) (bs : List Byte) (tm : Team) : (tm.putBytes t bs).num = tm.num := rfl
@[simp] theorem Team.putBytes_core (t : Nat) (bs : List Byte) (tm : Team) : (tm.putBytes t bs).core = tm.core := rfl
@[simp] theorem Team.putBytes_place (t : Nat) (bs : List Byte) (tm : Team) : (tm.putBytes t bs).place = tm.place := rfl
@[simp] theorem Team.putBytes_origin (t : Nat) (bs : List Byte) (tm : Team) : (tm.putBytes t bs).origin = tm.origin := rfl
@[simp] theorem Team.putBytes_shape (t : Nat) (bs : List Byte) (tm : Team) : (tm.putBytes t bs).shape = tm.shape := rfl
@[simp] theorem Team.putBytes_waves (t : Nat) (bs : List Byte) (tm : Team) : (tm.putBytes t bs).waves = tm.waves := rfl
@[simp] theorem Team.putBytes_window (t : Nat) (bs : List Byte) (tm : Team) : (tm.putBytes t bs).window = tm.window := rfl
@[simp] theorem Team.putBytes_gone (t : Nat) (bs : List Byte) (tm : Team) : (tm.putBytes t bs).gone = tm.gone := rfl
@[simp] theorem Team.putBytes_pages (t : Nat) (bs : List Byte) (tm : Team) : (tm.putBytes t bs).pages = tm.pages := rfl
@[simp] theorem Team.putBytes_holds (t : Nat) (bs : List Byte) (tm : Team) : (tm.putBytes t bs).holds = tm.holds := rfl
@[simp] theorem Team.putBytes_halt (t : Nat) (bs : List Byte) (tm : Team) : (tm.putBytes t bs).halt = tm.halt := rfl
@[simp] theorem Team.putBytes_parked (t : Nat) (bs : List Byte) (tm : Team) : (tm.putBytes t bs).parked = tm.parked := rfl
@[simp] theorem Team.putBytes_dead (t : Nat) (bs : List Byte) (tm : Team) : (tm.putBytes t bs).dead = tm.dead := rfl
@[simp] theorem Team.putBytes_faulted (t : Nat) (bs : List Byte) (tm : Team) : (tm.putBytes t bs).faulted = tm.faulted := rfl
@[simp] theorem Team.putBytes_step (t : Nat) (bs : List Byte) (tm : Team) : (tm.putBytes t bs).step = tm.step := rfl
@[simp] theorem Team.putBytes_minority (t : Nat) (bs : List Byte) (tm : Team) : (tm.putBytes t bs).minority = tm.minority := rfl
@[simp] theorem Team.putBytes_foot (t : Nat) (bs : List Byte) (tm : Team) : (tm.putBytes t bs).foot = tm.foot := rfl
@[simp] theorem Team.putBytes_l2 (t : Nat) (bs : List Byte) (tm : Team) : (tm.putBytes t bs).l2 = tm.l2 := rfl
@[simp] theorem Team.putBytes_startedAt (t : Nat) (bs : List Byte) (tm : Team) : (tm.putBytes t bs).startedAt = tm.startedAt := rfl

end Sys2Proof.Machine
end

