-- ==== Sys2Proof/Laws/Mem.lean ====
section
/-! SUPPORT. The laws of memory: a read after a write, and that every operation of Machine/Mem.lean keeps the canonical form. -/

namespace Sys2Proof.Machine

open Sys2Proof

/-! ### Bytes -/

theorem memRead_memWrite (m : List Host.Cell) (a b : Nat) (v : Byte) :
    memRead (memWrite m a v) b = if b = a then v else memRead m b := Tab.getD_setD _ _ _ _ _

@[simp] theorem memRead_memWrite_same (m : List Host.Cell) (a : Nat) (v : Byte) : memRead (memWrite m a v) a = v := by
  simp [memRead_memWrite]

theorem memRead_memWrites (m : List Host.Cell) (a b : Nat) (vs : List Byte) :
    memRead (memWrites m a vs) b = if a ≤ b ∧ b < a + vs.length then vs.getD (b - a) 0 else memRead m b := by
  induction vs generalizing m a with
  | nil =>
    simp only [memWrites, List.length_nil]
    rw [if_neg (by omega)]
  | cons v vs ih =>
    simp only [memWrites, ih, memRead_memWrite, List.length_cons]
    by_cases h : b = a
    · subst h; simp
    · by_cases h' : a + 1 ≤ b ∧ b < a + 1 + vs.length
      · rw [if_pos h', if_pos (by omega), show b - a = (b - (a + 1)) + 1 from by omega, List.getD_cons_succ]
      · rw [if_neg h', if_neg h, if_neg (by omega)]

/-! ### The canonical form of a memory -/

theorem memWf_nil : memWf [] := rfl

theorem memWf_memWrite {m : List Host.Cell} (h : memWf m) (a : Nat) (v : Byte) : memWf (memWrite m a v) := Tab.wf_setD a v h

theorem memWf_memWrites {m : List Host.Cell} (h : memWf m) (a : Nat) (vs : List Byte) : memWf (memWrites m a vs) := by
  induction vs generalizing m a with
  | nil => exact h
  | cons v vs ih => exact ih (memWf_memWrite h a v) (a + 1)

/-- Steps that each keep the canonical form keep it together. -/
theorem memWf_foldl {β : Type} {g : List Host.Cell → β → List Host.Cell} (hg : ∀ m b, memWf m → memWf (g m b)) (l : List β)
    {m : List Host.Cell} (h : memWf m) : memWf (l.foldl g m) := by
  induction l generalizing m with
  | nil => exact h
  | cons b l ih => exact ih (hg m b h)

/-- The same of steps on the whole state. -/
theorem memWf_foldState {β : Type} {g : State → β → State} (hg : ∀ s b, memWf s.mem → memWf (g s b).mem) (l : List β)
    {s : State} (h : memWf s.mem) : memWf (l.foldl g s).mem := by
  induction l generalizing s with
  | nil => exact h
  | cons b l ih => exact ih (hg s b h)

/-- What remains of a canonical memory when cells are dropped is canonical. -/
theorem memWf_filter {m : List Host.Cell} (h : memWf m) (p : Host.Cell → Bool) : memWf (m.filter p) := by
  induction m with
  | nil => exact h
  | cons e m ih =>
    have hs : Tab.sorted (e :: m) = true ∧ ∀ x ∈ e :: m, x.2 ≠ memDefault := by
      simpa only [memWf, Tab.wf, Bool.and_eq_true, List.all_eq_true, decide_eq_true_eq] using h
    obtain ⟨ha, hm⟩ := (Tab.sorted_cons e.1 e.2 m).1 hs.1
    have ht : memWf m := by
      simp only [memWf, Tab.wf, Bool.and_eq_true, List.all_eq_true, decide_eq_true_eq]
      exact ⟨hm, fun x hx => hs.2 x (List.mem_cons_of_mem _ hx)⟩
    have hf := ih ht
    simp only [List.filter_cons]
    split
    · simp only [memWf, Tab.wf, Bool.and_eq_true, List.all_eq_true, decide_eq_true_eq] at hf ⊢
      refine ⟨(Tab.sorted_cons e.1 e.2 _).2 ⟨fun x hx => ha x (List.mem_filter.1 hx).1, hf.1⟩, fun x hx => ?_⟩
      rcases List.mem_cons.1 hx with rfl | hx
      · exact hs.2 _ (by simp)
      · exact hf.2 x hx
    · exact hf

theorem memWf_writeLine {m : List Host.Cell} (h : memWf m) (line : Nat) (d : DirtyLine) : memWf (writeLine m line d) :=
  memWf_foldl (fun _ _ hm => memWf_memWrite hm _ _) _ h

/-! ### What changes memory, and what does not -/

@[simp] theorem State.atHome_mem (p line : Nat) (g : List Host.Cell → List Host.Cell) (s : State) :
    (s.atHome p line g).mem = g s.mem := rfl

@[simp] theorem State.putHome_mem (p pa : Nat) (bs : List Byte) (s : State) :
    (s.putHome p pa bs).mem = memWrites s.mem pa bs := rfl

@[simp] theorem State.markRead_mem (cl pa n : Nat) (s : State) : (s.markRead cl pa n).mem = s.mem := by
  unfold State.markRead
  split
  · rfl
  · split <;> rfl

@[simp] theorem State.observe_mem (who : Who) (home : Bool) (loc n : Nat) (s : State) : (s.observe who home loc n).mem = s.mem := by
  unfold State.observe; split <;> rfl

@[simp] theorem State.ageCopies_mem (cl line : Nat) (s : State) : (s.ageCopies cl line).mem = s.mem := rfl

@[simp] theorem State.dropL1_mem (keep : Option Nat) (line : Nat) (s : State) : (s.dropL1 keep line).mem = s.mem := rfl

@[simp] theorem State.markWrote_mem (cl line : Nat) (s : State) : (s.markWrote cl line).mem = s.mem := by
  unfold State.markWrote; split <;> rfl

@[simp] theorem State.ask_mem (p kind core : Nat) (hint : Hint) (line : Nat) (s : State) :
    (s.ask p kind core hint line).mem = s.mem := by
  unfold State.ask; split <;> rfl

@[simp] theorem State.request_mem (kind core : Nat) (hint : Hint) (line : Nat) (s : State) :
    (s.request kind core hint line).mem = s.mem := State.ask_mem ..

@[simp] theorem State.unloose_mem (loc n : Nat) (s : State) : (s.unloose loc n).mem = s.mem := rfl

@[simp] theorem State.firm_mem (k : Nat) (m : Word) (s : State) : (s.firm k m).mem = s.mem := rfl

@[simp] theorem State.loosen_mem (s b : State) (x : Nat × Word) (who : Who) (ea : Dword) (n old : Nat) :
    (s.loosen b x who ea n old).mem = s.mem := by
  unfold State.loosen; dsimp only; split <;> rfl

@[simp] theorem State.reach_mem (who : Who) (line : Nat) (s : State) : (s.reach who line).mem = s.mem := by
  unfold State.reach State.touch
  split
  · simp
  · split <;> simp

/-- Steps that each keep a memory keep it together. -/
theorem mem_foldState {β : Type} {g : State → β → State} (hg : ∀ s b, (g s b).mem = s.mem) (l : List β) (s : State) :
    (l.foldl g s).mem = s.mem := by
  induction l generalizing s with
  | nil => rfl
  | cons b l ih => exact (ih (g s b)).trans (hg s b)

@[simp] theorem State.claimOn_mem (team : Nat) (s : State) : (s.claimOn team).mem = s.mem := by
  unfold State.claimOn
  split
  · rfl
  · split
    · exact mem_foldState (g := fun s t => (s.setTeam t fun tm => { tm with parked := true }).restartWaits t)
        (fun _ _ => rfl) _ _
    · rfl

/-! ### Every operation over memory keeps it -/

theorem State.memWf_publishOne {s : State} (h : memWf s.mem) (cl : Nat) (e : Nat × DirtyLine) :
    memWf (s.publishOne cl e).mem := by
  simpa [State.publishOne] using memWf_writeLine h _ _

theorem State.memWf_publishLines {s : State} (h : memWf s.mem) (cl : Nat) (ls : Tab DirtyLine) :
    memWf (s.publishLines cl ls).mem := memWf_foldState (fun _ _ hs => State.memWf_publishOne hs _ _) _ h

theorem State.memWf_publishUpTo {s : State} (h : memWf s.mem) (cl r : Nat) : memWf (s.publishUpTo cl r).mem :=
  State.memWf_publishLines h _ _

theorem State.memWf_publishLine {s : State} (h : memWf s.mem) (cl line : Nat) : memWf (s.publishLine cl line).mem := by
  unfold State.publishLine
  split
  · exact h
  · dsimp only
    split
    · exact State.memWf_publishUpTo h _ _
    · exact State.memWf_publishLines (State.memWf_publishUpTo h _ _) _ _

theorem State.memWf_release {s : State} (h : memWf s.mem) (cl scope : Nat) : memWf (s.release cl scope).mem := by
  unfold State.release
  split
  · exact State.memWf_publishLines h _ _
  · exact h

theorem State.memWf_recallStash {s : State} (h : memWf s.mem) (self : Option (Nat × Nat)) (line : Nat) (wr : Bool) :
    memWf (s.recallStash self line wr).mem := by
  unfold State.recallStash
  exact memWf_foldState (fun s _ hs => by rw [State.atHome_mem]; exact memWf_memWrites hs _ _) _ h

theorem State.memWf_widenOne {s : State} (h : memWf s.mem) (cl line : Nat) : memWf (s.widenOne cl line).mem := by
  unfold State.widenOne
  dsimp only
  split <;> split
  · exact h
  · split
    · exact State.memWf_publishLine h _ _
    · exact h
  · exact State.memWf_publishUpTo h _ _
  · refine State.memWf_publishUpTo ?_ _ _
    split
    · exact State.memWf_publishLine h _ _
    · exact h

theorem State.memWf_widen {s : State} (h : memWf s.mem) (cl : Option Nat) (line : Nat) : memWf (s.widen cl line).mem := by
  refine memWf_foldState (fun s e hs => ?_) _ h
  split
  · exact hs
  · exact State.memWf_widenOne hs _ _

theorem State.memWf_toHome {s : State} (h : memWf s.mem) (cl : Option Nat) (self : Option (Nat × Nat)) (line : Nat) (wr : Bool) :
    memWf (s.toHome cl self line wr).mem := by
  have h' := memWf_foldState (fun (s : State) (e : Nat × Cluster) hs => State.memWf_publishLine hs e.1 line)
    ((s.recallStash self line wr).widen cl line).clusters (State.memWf_widen (State.memWf_recallStash h self line wr) cl line)
  unfold State.toHome
  dsimp only
  split <;> exact h'

theorem State.memWf_readGlobal {s : State} (h : memWf s.mem) (self : Option (Nat × Nat)) (cl pa n : Nat) :
    memWf (s.readGlobal self cl pa n).2.mem := by
  show memWf (State.markRead _ _ _ _).mem
  rw [State.markRead_mem]
  exact State.memWf_widen (State.memWf_recallStash h _ _ _) _ _

theorem State.memWf_readOne {s : State} (h : memWf s.mem) (cl pa n : Nat) : memWf (s.readOne cl pa n).mem := by
  unfold State.readOne
  split
  · exact h
  · split
    · exact State.memWf_publishLine h _ _
    · exact h

theorem State.memWf_orderRead {s : State} (h : memWf s.mem) (cl pa n : Nat) : memWf (s.orderRead cl pa n).mem := by
  refine memWf_foldState (fun s e hs => ?_) _ h
  split
  · exact hs
  · exact State.memWf_readOne hs _ _ _

theorem State.memWf_writeGlobal {s : State} (h : memWf s.mem) (core pa : Nat) (bs : List Byte) :
    memWf (s.writeGlobal core pa bs).mem :=
  State.memWf_orderRead (State.memWf_widen (State.memWf_recallStash h _ _ _) _ _) _ _ _

theorem State.memWf_askFill {s : State} (h : memWf s.mem) (team t : Nat) (hint : Hint) (tm : Team) :
    memWf (s.askFill team t hint tm).mem := by
  unfold State.askFill
  split
  · exact h
  · exact State.memWf_widen (State.memWf_recallStash (by rw [State.request_mem]; exact h) _ _ _) _ _

theorem State.memWf_fillLine {s : State} (h : memWf s.mem) (team t : Nat) (hint : Hint) :
    memWf (s.fillLine team t hint).mem := by
  unfold State.fillLine
  split
  · exact h
  · dsimp only
    split
    · exact h
    · split <;> exact State.memWf_askFill h _ _ _ _

theorem State.memWf_readScratch {s : State} (h : memWf s.mem) (hint : Hint) (cl team t n : Nat) :
    memWf (s.readScratch hint cl team t n).2.mem := by
  unfold State.readScratch
  split
  · exact h
  · split
    · exact h
    · split
      · exact h
      · exact State.memWf_fillLine (State.memWf_readGlobal h _ _ _ _) _ _ _

theorem State.memWf_writeScratch {s : State} (h : memWf s.mem) (hint : Hint) (team t : Nat) (bs : List Byte) :
    memWf (s.writeScratch hint team t bs).mem := by
  unfold State.writeScratch
  split
  · exact h
  · dsimp only
    split
    · exact h
    · refine State.memWf_fillLine (s := State.markWrote ..) ?_ _ _ _
      rw [State.markWrote_mem]
      exact State.memWf_toHome (s := State.staleTile ..) h _ _ _ _

theorem State.memWf_writeBackPage {s : State} (h : memWf s.mem) (team p : Nat) : memWf (s.writeBackPage team p).mem := by
  unfold State.writeBackPage
  split
  · exact h
  · split
    · exact h
    · refine memWf_foldState (s := s) (fun s e hs => ?_) _ h
      split
      · exact hs
      · rw [State.putHome_mem]; exact memWf_memWrites hs _ _

theorem State.memWf_pin {s : State} (h : memWf s.mem) (team t : Nat) : memWf (s.pin team t).mem := by
  unfold State.pin
  split
  · exact h
  · split
    · exact h
    · show memWf (State.mem _)
      dsimp only
      split
      · exact h
      · split
        · exact h
        · show memWf (State.unpin _ s).mem
          unfold State.unpin
          rw [State.claimOn_mem]
          exact State.memWf_writeBackPage h _ _

theorem State.memWf_fetchBytes {s : State} (h : memWf s.mem) (who : Who) (ea : Dword) (n : Nat) :
    memWf (s.fetchBytes who ea n).2.mem := by
  unfold State.fetchBytes
  split
  · exact State.memWf_readScratch (State.memWf_pin h _ _) _ _ _ _ _
  · split
    · exact h
    · exact State.memWf_readGlobal (by rw [State.reach_mem]; exact h) _ _ _ n
  · exact h

theorem State.memWf_load {s : State} (h : memWf s.mem) (who : Who) (ea : Dword) (n : Nat) : memWf (s.load who ea n).2.mem := by
  show memWf (State.observe _ _ _ _ _).mem
  rw [State.observe_mem]
  exact State.memWf_fetchBytes h _ _ _

theorem State.memWf_store {s : State} (h : memWf s.mem) (who : Who) (ea : Dword) (n v : Nat) :
    memWf (s.store who ea n v).mem := by
  unfold State.store
  dsimp only
  split
  · exact State.memWf_writeScratch (State.memWf_pin (s := State.unloose ..) h _ _) _ _ _ _
  · split
    · exact h
    · exact State.memWf_writeGlobal (by rw [State.reach_mem]; exact h) _ _ _
  · exact h

theorem State.memWf_storeLoose {s : State} (h : memWf s.mem) (x : Nat × Word) (who : Who) (ea : Dword) (n v : Nat) :
    memWf (s.storeLoose x who ea n v).mem := by
  unfold State.storeLoose
  rw [State.loosen_mem]
  exact State.memWf_store h _ _ _ _

theorem State.memWf_rmw {s : State} (h : memWf s.mem) (who : Who) (ea : Dword) (n : Nat) (g : Nat → Nat) :
    memWf (s.rmw who ea n g).2.mem := by
  unfold State.rmw
  dsimp only
  split
  · exact State.memWf_writeScratch (State.memWf_readScratch (State.memWf_pin (s := State.unloose ..) h _ _) _ _ _ _ _) _ _ _ _
  · split
    · exact h
    · dsimp only
      rw [State.markWrote_mem, State.putHome_mem]
      exact memWf_memWrites (State.memWf_toHome (by rw [State.request_mem]; exact h) _ _ _ _) _ _
  · exact h

theorem State.memWf_homeRange {s : State} (h : memWf s.mem) (pa n : Nat) (wr : Bool) : memWf (s.homeRange pa n wr).mem :=
  memWf_foldState (fun _ _ hs => State.memWf_toHome hs _ _ _ _) _ h

theorem State.memWf_homeWrite {s : State} (h : memWf s.mem) (p pa : Nat) (bs : List Byte) :
    memWf (s.homeWrite p pa bs).mem := by
  unfold State.homeWrite
  split
  · exact h
  · exact memWf_memWrites (State.memWf_homeRange h _ _ _) _ _

theorem State.memWf_homeRead {s : State} (h : memWf s.mem) (pa n : Nat) : memWf (s.homeRead pa n).2.mem := by
  unfold State.homeRead
  split
  · exact h
  · exact State.memWf_homeRange h _ _ _

theorem State.memWf_prepWord {s : State} (h : memWf s.mem) (who : Who) (held : Tab Word) (a : Dword) :
    memWf (s.prepWord who held a).mem := by
  unfold State.prepWord
  split
  · split
    · exact h
    · exact State.memWf_widen (State.memWf_recallStash (by rw [State.request_mem]; exact h) _ _ _) _ _
  · exact h

theorem State.memWf_fetchPrep {s : State} (h : memWf s.mem) (who : Who) (held : Tab Word) (pc : Dword) :
    memWf (s.fetchPrep who held pc).mem := by
  unfold State.fetchPrep
  dsimp only
  split
  · exact State.memWf_prepWord h _ _ _
  · exact memWf_foldState (fun _ _ hs => State.memWf_prepWord hs _ _ _) _ (State.memWf_prepWord h _ _ _)

/-- Memory after reset is canonical. -/
theorem State.memWf_reset : memWf State.reset.mem := memWf_nil

end Sys2Proof.Machine
end

