-- ==== Sys2Proof/Laws/PerInstr.lean ====
section
/-! SUPPORT. Lemmas made once per instruction, for statements about all of them: the opcode map read by OP10 and OP7 (R53,
R54, R56) gives back the instruction whose form it is. -/

namespace Sys2Proof

/-- The opcode map gives back a well-formed instruction from the opcode and fields of its form. -/
def Laws.FormTable.Statement (i : Instr) : Prop :=
  i.wellFormed = true →
    match i.form with
    | .x op f => Instr.ofX op f = some i
    | .b op f => Instr.ofB op f = some i
    | .event => True

theorem Laws.FormTable.iadd (f : XF) : Laws.FormTable.Statement (.iadd f) := fun _ => rfl
theorem Laws.FormTable.iaddB32 (f : BF) : Laws.FormTable.Statement (.iaddB32 f) := fun _ => rfl
theorem Laws.FormTable.iaddB32Imm (f : BF) : Laws.FormTable.Statement (.iaddB32Imm f) := fun _ => rfl
theorem Laws.FormTable.iaddImm (f : XF) : Laws.FormTable.Statement (.iaddImm f) := fun _ => rfl
theorem Laws.FormTable.isub (f : XF) : Laws.FormTable.Statement (.isub f) := fun _ => rfl
theorem Laws.FormTable.isubB32 (f : BF) : Laws.FormTable.Statement (.isubB32 f) := fun _ => rfl
theorem Laws.FormTable.isubB32Imm (f : BF) : Laws.FormTable.Statement (.isubB32Imm f) := fun _ => rfl
theorem Laws.FormTable.isubImm (f : XF) : Laws.FormTable.Statement (.isubImm f) := fun _ => rfl
theorem Laws.FormTable.iaddc (f : XF) : Laws.FormTable.Statement (.iaddc f) := fun _ => rfl
theorem Laws.FormTable.iaddcB32 (f : BF) : Laws.FormTable.Statement (.iaddcB32 f) := fun _ => rfl
theorem Laws.FormTable.isubb (f : XF) : Laws.FormTable.Statement (.isubb f) := fun _ => rfl
theorem Laws.FormTable.isubbB32 (f : BF) : Laws.FormTable.Statement (.isubbB32 f) := fun _ => rfl
theorem Laws.FormTable.ineg (f : XF) : Laws.FormTable.Statement (.ineg f) := fun _ => rfl
theorem Laws.FormTable.inegB32 (f : BF) : Laws.FormTable.Statement (.inegB32 f) := fun _ => rfl
theorem Laws.FormTable.iabs (f : XF) : Laws.FormTable.Statement (.iabs f) := fun _ => rfl
theorem Laws.FormTable.iabsB32 (f : BF) : Laws.FormTable.Statement (.iabsB32 f) := fun _ => rfl
theorem Laws.FormTable.imul (f : XF) : Laws.FormTable.Statement (.imul f) := fun _ => rfl
theorem Laws.FormTable.imulB32 (f : BF) : Laws.FormTable.Statement (.imulB32 f) := fun _ => rfl
theorem Laws.FormTable.imulB32Imm (f : BF) : Laws.FormTable.Statement (.imulB32Imm f) := fun _ => rfl
theorem Laws.FormTable.imulImm (f : XF) : Laws.FormTable.Statement (.imulImm f) := fun _ => rfl
theorem Laws.FormTable.imulh (f : XF) : Laws.FormTable.Statement (.imulh f) := fun _ => rfl
theorem Laws.FormTable.imulhB32 (f : BF) : Laws.FormTable.Statement (.imulhB32 f) := fun _ => rfl
theorem Laws.FormTable.imad (f : XF) : Laws.FormTable.Statement (.imad f) := fun _ => rfl
theorem Laws.FormTable.icsadd (f : XF) : Laws.FormTable.Statement (.icsadd f) := fun _ => rfl
theorem Laws.FormTable.idiv (f : XF) : Laws.FormTable.Statement (.idiv f) := fun _ => rfl
theorem Laws.FormTable.imin (f : XF) : Laws.FormTable.Statement (.imin f) := fun _ => rfl
theorem Laws.FormTable.iminB32 (f : BF) : Laws.FormTable.Statement (.iminB32 f) := fun _ => rfl
theorem Laws.FormTable.iminB32Imm (f : BF) : Laws.FormTable.Statement (.iminB32Imm f) := fun _ => rfl
theorem Laws.FormTable.iminImm (f : XF) : Laws.FormTable.Statement (.iminImm f) := fun _ => rfl
theorem Laws.FormTable.imax (f : XF) : Laws.FormTable.Statement (.imax f) := fun _ => rfl
theorem Laws.FormTable.imaxB32 (f : BF) : Laws.FormTable.Statement (.imaxB32 f) := fun _ => rfl
theorem Laws.FormTable.imaxB32Imm (f : BF) : Laws.FormTable.Statement (.imaxB32Imm f) := fun _ => rfl
theorem Laws.FormTable.imaxImm (f : XF) : Laws.FormTable.Statement (.imaxImm f) := fun _ => rfl
theorem Laws.FormTable.iclamp (f : XF) : Laws.FormTable.Statement (.iclamp f) := fun _ => rfl
theorem Laws.FormTable.isat (f : XF) : Laws.FormTable.Statement (.isat f) := fun _ => rfl
theorem Laws.FormTable.and (f : XF) : Laws.FormTable.Statement (.and f) := fun _ => rfl
theorem Laws.FormTable.andB32 (f : BF) : Laws.FormTable.Statement (.andB32 f) := fun _ => rfl
theorem Laws.FormTable.andB32Imm (f : BF) : Laws.FormTable.Statement (.andB32Imm f) := fun _ => rfl
theorem Laws.FormTable.andImm (f : XF) : Laws.FormTable.Statement (.andImm f) := fun _ => rfl
theorem Laws.FormTable.or (f : XF) : Laws.FormTable.Statement (.or f) := fun _ => rfl
theorem Laws.FormTable.orB32 (f : BF) : Laws.FormTable.Statement (.orB32 f) := fun _ => rfl
theorem Laws.FormTable.orB32Imm (f : BF) : Laws.FormTable.Statement (.orB32Imm f) := fun _ => rfl
theorem Laws.FormTable.orImm (f : XF) : Laws.FormTable.Statement (.orImm f) := fun _ => rfl
theorem Laws.FormTable.xor (f : XF) : Laws.FormTable.Statement (.xor f) := fun _ => rfl
theorem Laws.FormTable.xorB32 (f : BF) : Laws.FormTable.Statement (.xorB32 f) := fun _ => rfl
theorem Laws.FormTable.xorB32Imm (f : BF) : Laws.FormTable.Statement (.xorB32Imm f) := fun _ => rfl
theorem Laws.FormTable.xorImm (f : XF) : Laws.FormTable.Statement (.xorImm f) := fun _ => rfl
theorem Laws.FormTable.andn (f : XF) : Laws.FormTable.Statement (.andn f) := fun _ => rfl
theorem Laws.FormTable.andnB32 (f : BF) : Laws.FormTable.Statement (.andnB32 f) := fun _ => rfl
theorem Laws.FormTable.andnB32Imm (f : BF) : Laws.FormTable.Statement (.andnB32Imm f) := fun _ => rfl
theorem Laws.FormTable.andnImm (f : XF) : Laws.FormTable.Statement (.andnImm f) := fun _ => rfl
theorem Laws.FormTable.not (f : XF) : Laws.FormTable.Statement (.not f) := fun _ => rfl
theorem Laws.FormTable.notB32 (f : BF) : Laws.FormTable.Statement (.notB32 f) := fun _ => rfl
theorem Laws.FormTable.shl (f : XF) : Laws.FormTable.Statement (.shl f) := fun _ => rfl
theorem Laws.FormTable.shlB32 (f : BF) : Laws.FormTable.Statement (.shlB32 f) := fun _ => rfl
theorem Laws.FormTable.shlB32Imm (f : BF) : Laws.FormTable.Statement (.shlB32Imm f) := fun _ => rfl
theorem Laws.FormTable.shlImm (f : XF) : Laws.FormTable.Statement (.shlImm f) := fun _ => rfl
theorem Laws.FormTable.shr (f : XF) : Laws.FormTable.Statement (.shr f) := fun _ => rfl
theorem Laws.FormTable.shrB32 (f : BF) : Laws.FormTable.Statement (.shrB32 f) := fun _ => rfl
theorem Laws.FormTable.shrB32Imm (f : BF) : Laws.FormTable.Statement (.shrB32Imm f) := fun _ => rfl
theorem Laws.FormTable.shrImm (f : XF) : Laws.FormTable.Statement (.shrImm f) := fun _ => rfl
theorem Laws.FormTable.sar (f : XF) : Laws.FormTable.Statement (.sar f) := fun _ => rfl
theorem Laws.FormTable.sarB32 (f : BF) : Laws.FormTable.Statement (.sarB32 f) := fun _ => rfl
theorem Laws.FormTable.sarB32Imm (f : BF) : Laws.FormTable.Statement (.sarB32Imm f) := fun _ => rfl
theorem Laws.FormTable.sarImm (f : XF) : Laws.FormTable.Statement (.sarImm f) := fun _ => rfl
theorem Laws.FormTable.rot (f : XF) : Laws.FormTable.Statement (.rot f) := fun _ => rfl
theorem Laws.FormTable.rotB32 (f : BF) : Laws.FormTable.Statement (.rotB32 f) := fun _ => rfl
theorem Laws.FormTable.rotB32Imm (f : BF) : Laws.FormTable.Statement (.rotB32Imm f) := fun _ => rfl
theorem Laws.FormTable.rotImm (f : XF) : Laws.FormTable.Statement (.rotImm f) := fun _ => rfl
theorem Laws.FormTable.bfx (f : XF) : Laws.FormTable.Statement (.bfx f) := fun _ => rfl
theorem Laws.FormTable.bfi (f : XF) : Laws.FormTable.Statement (.bfi f) := fun _ => rfl
theorem Laws.FormTable.popc (f : XF) : Laws.FormTable.Statement (.popc f) := fun _ => rfl
theorem Laws.FormTable.popcB32 (f : BF) : Laws.FormTable.Statement (.popcB32 f) := fun _ => rfl
theorem Laws.FormTable.clz (f : XF) : Laws.FormTable.Statement (.clz f) := fun _ => rfl
theorem Laws.FormTable.clzB32 (f : BF) : Laws.FormTable.Statement (.clzB32 f) := fun _ => rfl
theorem Laws.FormTable.ctz (f : XF) : Laws.FormTable.Statement (.ctz f) := fun _ => rfl
theorem Laws.FormTable.ctzB32 (f : BF) : Laws.FormTable.Statement (.ctzB32 f) := fun _ => rfl
theorem Laws.FormTable.brev (f : XF) : Laws.FormTable.Statement (.brev f) := fun _ => rfl
theorem Laws.FormTable.brevB32 (f : BF) : Laws.FormTable.Statement (.brevB32 f) := fun _ => rfl
theorem Laws.FormTable.icmp (f : XF) : Laws.FormTable.Statement (.icmp f) := fun _ => rfl
theorem Laws.FormTable.sel (f : XF) : Laws.FormTable.Statement (.sel f) := fun _ => rfl
theorem Laws.FormTable.lea (f : XF) : Laws.FormTable.Statement (.lea f) := fun _ => rfl
theorem Laws.FormTable.mov (f : XF) : Laws.FormTable.Statement (.mov f) := fun _ => rfl
theorem Laws.FormTable.movB32 (f : BF) : Laws.FormTable.Statement (.movB32 f) := fun _ => rfl
theorem Laws.FormTable.movi (f : XF) : Laws.FormTable.Statement (.movi f) := fun _ => rfl
theorem Laws.FormTable.moviB32 (f : BF) : Laws.FormTable.Statement (.moviB32 f) := fun _ => rfl
theorem Laws.FormTable.bra (f : XF) : Laws.FormTable.Statement (.bra f) := fun _ => rfl
theorem Laws.FormTable.braB32 (f : BF) : Laws.FormTable.Statement (.braB32 f) := fun _ => rfl
theorem Laws.FormTable.brc (f : XF) : Laws.FormTable.Statement (.brc f) := fun _ => rfl
theorem Laws.FormTable.join (f : XF) : Laws.FormTable.Statement (.join f) := fun _ => rfl
theorem Laws.FormTable.joinB32 (f : BF) : Laws.FormTable.Statement (.joinB32 f) := fun _ => rfl
theorem Laws.FormTable.call (f : XF) : Laws.FormTable.Statement (.call f) := fun _ => rfl
theorem Laws.FormTable.callB32 (f : BF) : Laws.FormTable.Statement (.callB32 f) := fun _ => rfl
theorem Laws.FormTable.ret (f : XF) : Laws.FormTable.Statement (.ret f) := fun _ => rfl
theorem Laws.FormTable.retB32 (f : BF) : Laws.FormTable.Statement (.retB32 f) := fun _ => rfl
theorem Laws.FormTable.jmpx (f : XF) : Laws.FormTable.Statement (.jmpx f) := fun _ => rfl
theorem Laws.FormTable.jmpxB32 (f : BF) : Laws.FormTable.Statement (.jmpxB32 f) := fun _ => rfl
theorem Laws.FormTable.rep (f : XF) : Laws.FormTable.Statement (.rep f) := fun _ => rfl
theorem Laws.FormTable.exit (f : XF) : Laws.FormTable.Statement (.exit f) := fun _ => rfl
theorem Laws.FormTable.exitB32 (f : BF) : Laws.FormTable.Statement (.exitB32 f) := fun _ => rfl
theorem Laws.FormTable.nop (f : XF) : Laws.FormTable.Statement (.nop f) := fun _ => rfl
theorem Laws.FormTable.nopB32 (f : BF) : Laws.FormTable.Statement (.nopB32 f) := fun _ => rfl
theorem Laws.FormTable.shfl (f : XF) : Laws.FormTable.Statement (.shfl f) := fun _ => rfl
theorem Laws.FormTable.vote (f : XF) : Laws.FormTable.Statement (.vote f) := fun _ => rfl
theorem Laws.FormTable.redx (f : XF) : Laws.FormTable.Statement (.redx f) := fun _ => rfl
theorem Laws.FormTable.scanx (f : XF) : Laws.FormTable.Statement (.scanx f) := fun _ => rfl
theorem Laws.FormTable.matchLanes (f : XF) : Laws.FormTable.Statement (.matchLanes f) := fun _ => rfl
theorem Laws.FormTable.get (f : XF) : Laws.FormTable.Statement (.get f) := fun _ => rfl
theorem Laws.FormTable.setmode (f : XF) : Laws.FormTable.Statement (.setmode f) := fun _ => rfl
theorem Laws.FormTable.getmode (f : XF) : Laws.FormTable.Statement (.getmode f) := fun _ => rfl
theorem Laws.FormTable.xlock (f : XF) : Laws.FormTable.Statement (.xlock f) := fun _ => rfl
theorem Laws.FormTable.xfree (f : XF) : Laws.FormTable.Statement (.xfree f) := fun _ => rfl
theorem Laws.FormTable.fadd (f : XF) : Laws.FormTable.Statement (.fadd f) := fun _ => rfl
theorem Laws.FormTable.faddB32 (f : BF) : Laws.FormTable.Statement (.faddB32 f) := fun _ => rfl
theorem Laws.FormTable.fsub (f : XF) : Laws.FormTable.Statement (.fsub f) := fun _ => rfl
theorem Laws.FormTable.fsubB32 (f : BF) : Laws.FormTable.Statement (.fsubB32 f) := fun _ => rfl
theorem Laws.FormTable.fmul (f : XF) : Laws.FormTable.Statement (.fmul f) := fun _ => rfl
theorem Laws.FormTable.fmulB32 (f : BF) : Laws.FormTable.Statement (.fmulB32 f) := fun _ => rfl
theorem Laws.FormTable.ffma (f : XF) : Laws.FormTable.Statement (.ffma f) := fun _ => rfl
theorem Laws.FormTable.fmin (f : XF) : Laws.FormTable.Statement (.fmin f) := fun _ => rfl
theorem Laws.FormTable.fminB32 (f : BF) : Laws.FormTable.Statement (.fminB32 f) := fun _ => rfl
theorem Laws.FormTable.fmax (f : XF) : Laws.FormTable.Statement (.fmax f) := fun _ => rfl
theorem Laws.FormTable.fmaxB32 (f : BF) : Laws.FormTable.Statement (.fmaxB32 f) := fun _ => rfl
theorem Laws.FormTable.fcmp (f : XF) : Laws.FormTable.Statement (.fcmp f) := fun _ => rfl
theorem Laws.FormTable.fclass (f : XF) : Laws.FormTable.Statement (.fclass f) := fun _ => rfl
theorem Laws.FormTable.frcp (f : XF) : Laws.FormTable.Statement (.frcp f) := fun _ => rfl
theorem Laws.FormTable.frcpB32 (f : BF) : Laws.FormTable.Statement (.frcpB32 f) := fun _ => rfl
theorem Laws.FormTable.frsq (f : XF) : Laws.FormTable.Statement (.frsq f) := fun _ => rfl
theorem Laws.FormTable.frsqB32 (f : BF) : Laws.FormTable.Statement (.frsqB32 f) := fun _ => rfl
theorem Laws.FormTable.fsqrt (f : XF) : Laws.FormTable.Statement (.fsqrt f) := fun _ => rfl
theorem Laws.FormTable.fsqrtB32 (f : BF) : Laws.FormTable.Statement (.fsqrtB32 f) := fun _ => rfl
theorem Laws.FormTable.fexp2 (f : XF) : Laws.FormTable.Statement (.fexp2 f) := fun _ => rfl
theorem Laws.FormTable.fexp2B32 (f : BF) : Laws.FormTable.Statement (.fexp2B32 f) := fun _ => rfl
theorem Laws.FormTable.flog2 (f : XF) : Laws.FormTable.Statement (.flog2 f) := fun _ => rfl
theorem Laws.FormTable.flog2B32 (f : BF) : Laws.FormTable.Statement (.flog2B32 f) := fun _ => rfl
theorem Laws.FormTable.fsin (f : XF) : Laws.FormTable.Statement (.fsin f) := fun _ => rfl
theorem Laws.FormTable.fsinB32 (f : BF) : Laws.FormTable.Statement (.fsinB32 f) := fun _ => rfl
theorem Laws.FormTable.fcos (f : XF) : Laws.FormTable.Statement (.fcos f) := fun _ => rfl
theorem Laws.FormTable.fcosB32 (f : BF) : Laws.FormTable.Statement (.fcosB32 f) := fun _ => rfl
theorem Laws.FormTable.fcvt (f : XF) : Laws.FormTable.Statement (.fcvt f) := fun _ => rfl
theorem Laws.FormTable.cvtif (f : XF) : Laws.FormTable.Statement (.cvtif f) := fun _ => rfl
theorem Laws.FormTable.cvtfi (f : XF) : Laws.FormTable.Statement (.cvtfi f) := fun _ => rfl
theorem Laws.FormTable.padd2 (f : XF) : Laws.FormTable.Statement (.padd2 f) := fun _ => rfl
theorem Laws.FormTable.padd2B32 (f : BF) : Laws.FormTable.Statement (.padd2B32 f) := fun _ => rfl
theorem Laws.FormTable.pmul2 (f : XF) : Laws.FormTable.Statement (.pmul2 f) := fun _ => rfl
theorem Laws.FormTable.pmul2B32 (f : BF) : Laws.FormTable.Statement (.pmul2B32 f) := fun _ => rfl
theorem Laws.FormTable.pfma2 (f : XF) : Laws.FormTable.Statement (.pfma2 f) := fun _ => rfl
theorem Laws.FormTable.idot4 (f : XF) : Laws.FormTable.Statement (.idot4 f) := fun _ => rfl
theorem Laws.FormTable.unpk3 (f : XF) : Laws.FormTable.Statement (.unpk3 f) := fun _ => rfl
theorem Laws.FormTable.unpkn (f : XF) : Laws.FormTable.Statement (.unpkn f) := fun _ => rfl
theorem Laws.FormTable.packn (f : XF) : Laws.FormTable.Statement (.packn f) := fun _ => rfl
theorem Laws.FormTable.bfpq (f : XF) : Laws.FormTable.Statement (.bfpq f) := fun _ => rfl
theorem Laws.FormTable.ssi (f : XF) : Laws.FormTable.Statement (.ssi f) := fun _ => rfl
theorem Laws.FormTable.kins (f : XF) : Laws.FormTable.Statement (.kins f) := fun _ => rfl
theorem Laws.FormTable.act (f : XF) : Laws.FormTable.Statement (.act f) := fun _ => rfl
theorem Laws.FormTable.actld (f : XF) : Laws.FormTable.Statement (.actld f) := fun _ => rfl
theorem Laws.FormTable.sld (f : XF) : Laws.FormTable.Statement (.sld f) := fun _ => rfl
theorem Laws.FormTable.sst (f : XF) : Laws.FormTable.Statement (.sst f) := by
  intro h
  have h2 := of_decide_eq_true (Bool.and_eq_true_iff.1 h).2
  show (if f.m.toNat ≤ 1 then some (Instr.sst f) else some (Instr.sstStream f)) = _
  exact if_pos h2
theorem Laws.FormTable.sstStream (f : XF) : Laws.FormTable.Statement (.sstStream f) := by
  intro h
  have h2 := of_decide_eq_true (Bool.and_eq_true_iff.1 h).2
  show (if f.m.toNat ≤ 1 then some (Instr.sst f) else some (Instr.sstStream f)) = _
  exact if_neg (by omega)
theorem Laws.FormTable.smov (f : XF) : Laws.FormTable.Statement (.smov f) := fun _ => rfl
theorem Laws.FormTable.sbind (f : XF) : Laws.FormTable.Statement (.sbind f) := fun _ => rfl
theorem Laws.FormTable.sadd (f : XF) : Laws.FormTable.Statement (.sadd f) := fun _ => rfl
theorem Laws.FormTable.ssub (f : XF) : Laws.FormTable.Statement (.ssub f) := fun _ => rfl
theorem Laws.FormTable.smax (f : XF) : Laws.FormTable.Statement (.smax f) := fun _ => rfl
theorem Laws.FormTable.smin (f : XF) : Laws.FormTable.Statement (.smin f) := fun _ => rfl
theorem Laws.FormTable.scvt (f : XF) : Laws.FormTable.Statement (.scvt f) := fun _ => rfl
theorem Laws.FormTable.sacc (f : XF) : Laws.FormTable.Statement (.sacc f) := fun _ => rfl
theorem Laws.FormTable.sqry (f : XF) : Laws.FormTable.Statement (.sqry f) := fun _ => rfl
theorem Laws.FormTable.trap (f : XF) : Laws.FormTable.Statement (.trap f) := fun _ => rfl
theorem Laws.FormTable.trapB32 (f : BF) : Laws.FormTable.Statement (.trapB32 f) := fun _ => rfl
theorem Laws.FormTable.tret (f : XF) : Laws.FormTable.Statement (.tret f) := fun _ => rfl
theorem Laws.FormTable.bkpt (f : XF) : Laws.FormTable.Statement (.bkpt f) := fun _ => rfl
theorem Laws.FormTable.bkptB32 (f : BF) : Laws.FormTable.Statement (.bkptB32 f) := fun _ => rfl
theorem Laws.FormTable.sysr (f : XF) : Laws.FormTable.Statement (.sysr f) := fun _ => rfl
theorem Laws.FormTable.sysw (f : XF) : Laws.FormTable.Statement (.sysw f) := fun _ => rfl
theorem Laws.FormTable.icinv (f : XF) : Laws.FormTable.Statement (.icinv f) := fun _ => rfl
theorem Laws.FormTable.ld (f : XF) : Laws.FormTable.Statement (.ld f) := fun _ => rfl
theorem Laws.FormTable.ldB32 (f : BF) : Laws.FormTable.Statement (.ldB32 f) := fun _ => rfl
theorem Laws.FormTable.st (f : XF) : Laws.FormTable.Statement (.st f) := fun _ => rfl
theorem Laws.FormTable.stB32 (f : BF) : Laws.FormTable.Statement (.stB32 f) := fun _ => rfl
theorem Laws.FormTable.ldu (f : XF) : Laws.FormTable.Statement (.ldu f) := fun _ => rfl
theorem Laws.FormTable.lduB32 (f : BF) : Laws.FormTable.Statement (.lduB32 f) := fun _ => rfl
theorem Laws.FormTable.ldbf (f : XF) : Laws.FormTable.Statement (.ldbf f) := fun _ => rfl
theorem Laws.FormTable.pref (f : XF) : Laws.FormTable.Statement (.pref f) := fun _ => rfl
theorem Laws.FormTable.prefB32 (f : BF) : Laws.FormTable.Statement (.prefB32 f) := fun _ => rfl
theorem Laws.FormTable.spmap (f : XF) : Laws.FormTable.Statement (.spmap f) := fun _ => rfl
theorem Laws.FormTable.stash (f : XF) : Laws.FormTable.Statement (.stash f) := fun _ => rfl
theorem Laws.FormTable.unstash (f : XF) : Laws.FormTable.Statement (.unstash f) := fun _ => rfl
theorem Laws.FormTable.flush (f : XF) : Laws.FormTable.Statement (.flush f) := fun _ => rfl
theorem Laws.FormTable.inval (f : XF) : Laws.FormTable.Statement (.inval f) := fun _ => rfl
theorem Laws.FormTable.atom (f : XF) : Laws.FormTable.Statement (.atom f) := fun _ => rfl
theorem Laws.FormTable.acas (f : XF) : Laws.FormTable.Statement (.acas f) := fun _ => rfl
theorem Laws.FormTable.aincb (f : XF) : Laws.FormTable.Statement (.aincb f) := fun _ => rfl
theorem Laws.FormTable.afadd (f : XF) : Laws.FormTable.Statement (.afadd f) := fun _ => rfl
theorem Laws.FormTable.fence (f : XF) : Laws.FormTable.Statement (.fence f) := fun _ => rfl
theorem Laws.FormTable.bari (f : XF) : Laws.FormTable.Statement (.bari f) := fun _ => rfl
theorem Laws.FormTable.bara (f : XF) : Laws.FormTable.Statement (.bara f) := fun _ => rfl
theorem Laws.FormTable.barx (f : XF) : Laws.FormTable.Statement (.barx f) := fun _ => rfl
theorem Laws.FormTable.barw (f : XF) : Laws.FormTable.Statement (.barw f) := fun _ => rfl
theorem Laws.FormTable.waita (f : XF) : Laws.FormTable.Statement (.waita f) := fun _ => rfl
theorem Laws.FormTable.push (f : XF) : Laws.FormTable.Statement (.push f) := fun _ => rfl
theorem Laws.FormTable.seal (f : XF) : Laws.FormTable.Statement (.seal f) := fun _ => rfl
theorem Laws.FormTable.waitb (f : XF) : Laws.FormTable.Statement (.waitb f) := fun _ => rfl
theorem Laws.FormTable.qstat (f : XF) : Laws.FormTable.Statement (.qstat f) := fun _ => rfl
theorem Laws.FormTable.gen (f : XF) : Laws.FormTable.Statement (.gen f) := fun _ => rfl
theorem Laws.FormTable.yld (f : XF) : Laws.FormTable.Statement (.yld f) := fun _ => rfl
theorem Laws.FormTable.gend (f : XF) : Laws.FormTable.Statement (.gend f) := fun _ => rfl
theorem Laws.FormTable.gflip (f : XF) : Laws.FormTable.Statement (.gflip f) := fun _ => rfl
theorem Laws.FormTable.gnext (f : XF) : Laws.FormTable.Statement (.gnext f) := fun _ => rfl
theorem Laws.FormTable.take (f : XF) : Laws.FormTable.Statement (.take f) := fun _ => rfl
theorem Laws.FormTable.gstat (f : XF) : Laws.FormTable.Statement (.gstat f) := fun _ => rfl
theorem Laws.FormTable.launch (f : XF) : Laws.FormTable.Statement (.launch f) := fun _ => rfl
theorem Laws.FormTable.cutq (f : XF) : Laws.FormTable.Statement (.cutq f) := fun _ => rfl
theorem Laws.FormTable.tlpop (f : XF) : Laws.FormTable.Statement (.tlpop f) := fun _ => rfl
theorem Laws.FormTable.tldone (f : XF) : Laws.FormTable.Statement (.tldone f) := fun _ => rfl
theorem Laws.FormTable.alLdw (cl ctx : Nat) (rd rs1 : BitVec 5) (imm : BitVec 12) : Laws.FormTable.Statement (.alLdw cl ctx rd rs1 imm) := fun _ => trivial
theorem Laws.FormTable.alFetch (cl ctx : Nat) (rd rs1 : BitVec 5) (imm : BitVec 12) : Laws.FormTable.Statement (.alFetch cl ctx rd rs1 imm) := fun _ => trivial
theorem Laws.FormTable.alDrop (cl ctx : Nat) (rd rs1 : BitVec 5) (imm : BitVec 12) : Laws.FormTable.Statement (.alDrop cl ctx rd rs1 imm) := fun _ => trivial
theorem Laws.FormTable.alArg (cl ctx : Nat) (rd rs1 : BitVec 5) (imm : BitVec 12) : Laws.FormTable.Statement (.alArg cl ctx rd rs1 imm) := fun _ => trivial
theorem Laws.FormTable.alEnd (cl ctx : Nat) (rd rs1 : BitVec 5) (imm : BitVec 12) : Laws.FormTable.Statement (.alEnd cl ctx rd rs1 imm) := fun _ => trivial
theorem Laws.FormTable.alStw (cl ctx : Nat) (rs2 rs1 : BitVec 5) (imm : BitVec 12) : Laws.FormTable.Statement (.alStw cl ctx rs2 rs1 imm) := fun _ => trivial
theorem Laws.FormTable.alSend (cl ctx : Nat) (rs2 rs1 : BitVec 5) (imm : BitVec 12) : Laws.FormTable.Statement (.alSend cl ctx rs2 rs1 imm) := fun _ => trivial
theorem Laws.FormTable.handlerInstruction (cl ctx len : Nat) (i : Rv) : Laws.FormTable.Statement (.handlerInstruction cl ctx len i) := fun _ => trivial
theorem Laws.FormTable.actldCommit (core : Nat) : Laws.FormTable.Statement (.actldCommit core) := fun _ => trivial
theorem Laws.FormTable.stashFill (team page line : Nat) : Laws.FormTable.Statement (.stashFill team page line) := fun _ => trivial
theorem Laws.FormTable.waitaWake (wave frag : Nat) : Laws.FormTable.Statement (.waitaWake wave frag) := fun _ => trivial
theorem Laws.FormTable.resultReturn (wave : Nat) : Laws.FormTable.Statement (.resultReturn wave) := fun _ => trivial
theorem Laws.FormTable.parkComplete (wave : Nat) : Laws.FormTable.Statement (.parkComplete wave) := fun _ => trivial
theorem Laws.FormTable.starvationIssue (core quad : Nat) : Laws.FormTable.Statement (.starvationIssue core quad) := fun _ => trivial
theorem Laws.FormTable.waitThreshold (wave : Nat) : Laws.FormTable.Statement (.waitThreshold wave) := fun _ => trivial
theorem Laws.FormTable.evictedWaveResume (wave : Nat) : Laws.FormTable.Statement (.evictedWaveResume wave) := fun _ => trivial
theorem Laws.FormTable.cpLin (core q idx n : Nat) : Laws.FormTable.Statement (.cpLin core q idx n) := fun _ => trivial
theorem Laws.FormTable.cpTile (core q idx n : Nat) : Laws.FormTable.Statement (.cpTile core q idx n) := fun _ => trivial
theorem Laws.FormTable.cpGath (core q idx n : Nat) : Laws.FormTable.Statement (.cpGath core q idx n) := fun _ => trivial
theorem Laws.FormTable.cpStrm (core q idx n : Nat) : Laws.FormTable.Statement (.cpStrm core q idx n) := fun _ => trivial
theorem Laws.FormTable.cpPeer (core q idx n : Nat) : Laws.FormTable.Statement (.cpPeer core q idx n) := fun _ => trivial
theorem Laws.FormTable.cpFill (core q idx n : Nat) : Laws.FormTable.Statement (.cpFill core q idx n) := fun _ => trivial
theorem Laws.FormTable.copyResume (core q idx : Nat) : Laws.FormTable.Statement (.copyResume core q idx) := fun _ => trivial
theorem Laws.FormTable.mxZero (core : Nat) : Laws.FormTable.Statement (.mxZero core) := fun _ => trivial
theorem Laws.FormTable.mxMul (core : Nat) : Laws.FormTable.Statement (.mxMul core) := fun _ => trivial
theorem Laws.FormTable.mxMulTileCheck (core : Nat) : Laws.FormTable.Statement (.mxMulTileCheck core) := fun _ => trivial
theorem Laws.FormTable.mxDrain (core : Nat) : Laws.FormTable.Statement (.mxDrain core) := fun _ => trivial
theorem Laws.FormTable.mxLoadc (core : Nat) : Laws.FormTable.Statement (.mxLoadc core) := fun _ => trivial
theorem Laws.FormTable.mxArrive (core : Nat) : Laws.FormTable.Statement (.mxArrive core) := fun _ => trivial
theorem Laws.FormTable.alcoveMessage (cl : Nat) : Laws.FormTable.Statement (.alcoveMessage cl) := fun _ => trivial
theorem Laws.FormTable.miss (line kind core : Nat) : Laws.FormTable.Statement (.miss line kind core) := fun _ => trivial
theorem Laws.FormTable.fill (line : Nat) : Laws.FormTable.Statement (.fill line) := fun _ => trivial
theorem Laws.FormTable.evict (line : Nat) : Laws.FormTable.Statement (.evict line) := fun _ => trivial
theorem Laws.FormTable.handlerStart (cl cls : Nat) : Laws.FormTable.Statement (.handlerStart cl cls) := fun _ => trivial
theorem Laws.FormTable.budgetOverrun (cl ctx : Nat) : Laws.FormTable.Statement (.budgetOverrun cl ctx) := fun _ => trivial
theorem Laws.FormTable.doorbell (q : Nat) (v : BitVec 64) : Laws.FormTable.Statement (.doorbell q v) := fun _ => trivial
theorem Laws.FormTable.qbase (q : Nat) (v : BitVec 64) : Laws.FormTable.Statement (.qbase q v) := fun _ => trivial
theorem Laws.FormTable.launchPacket (q : Nat) : Laws.FormTable.Statement (.launchPacket q) := fun _ => trivial
theorem Laws.FormTable.barrierPacket (q : Nat) : Laws.FormTable.Statement (.barrierPacket q) := fun _ => trivial
theorem Laws.FormTable.barrierEvaluation (q : Nat) : Laws.FormTable.Statement (.barrierEvaluation q) := fun _ => trivial
theorem Laws.FormTable.copyPacket (q : Nat) (id : Option Nat) : Laws.FormTable.Statement (.copyPacket q id) := fun _ => trivial
theorem Laws.FormTable.tilesPacket (q : Nat) : Laws.FormTable.Statement (.tilesPacket q) := fun _ => trivial
theorem Laws.FormTable.signalPacket (q : Nat) : Laws.FormTable.Statement (.signalPacket q) := fun _ => trivial
theorem Laws.FormTable.markerPacket (q : Nat) : Laws.FormTable.Statement (.markerPacket q) := fun _ => trivial
theorem Laws.FormTable.launchAcceptance (id : Nat) : Laws.FormTable.Statement (.launchAcceptance id) := fun _ => trivial
theorem Laws.FormTable.teamDispatch (id die core : Nat) : Laws.FormTable.Statement (.teamDispatch id die core) := fun _ => trivial
theorem Laws.FormTable.coresidentPlacement (id : Nat) (cores : List Nat) : Laws.FormTable.Statement (.coresidentPlacement id cores) := fun _ => trivial
theorem Laws.FormTable.teamRetire (team : Nat) : Laws.FormTable.Statement (.teamRetire team) := fun _ => trivial
theorem Laws.FormTable.windowEvaluation (id : Nat) : Laws.FormTable.Statement (.windowEvaluation id) := fun _ => trivial
theorem Laws.FormTable.launchCompletion (id : Nat) : Laws.FormTable.Statement (.launchCompletion id) := fun _ => trivial
theorem Laws.FormTable.peerAck (id bytes : Nat) : Laws.FormTable.Statement (.peerAck id bytes) := fun _ => trivial
theorem Laws.FormTable.flitResend (id bytes tries : Nat) : Laws.FormTable.Statement (.flitResend id bytes tries) := fun _ => trivial
theorem Laws.FormTable.linkDown (port lane : Nat) : Laws.FormTable.Statement (.linkDown port lane) := fun _ => trivial
theorem Laws.FormTable.congestionMark (part core : Nat) : Laws.FormTable.Statement (.congestionMark part core) := fun _ => trivial
theorem Laws.FormTable.rateRaise (part core : Nat) : Laws.FormTable.Statement (.rateRaise part core) := fun _ => trivial
theorem Laws.FormTable.fillSignalPoll (id expert : Nat) : Laws.FormTable.Statement (.fillSignalPoll id expert) := fun _ => trivial
theorem Laws.FormTable.teamResume (team : Nat) : Laws.FormTable.Statement (.teamResume team) := fun _ => trivial
theorem Laws.FormTable.faultAnswer (part : Nat) (tag : BitVec 64) (resp : BitVec 32) : Laws.FormTable.Statement (.faultAnswer part tag resp) := fun _ => trivial
theorem Laws.FormTable.cxlMemAccess (part : Nat) (addr : BitVec 64) (n : Nat) (data : Option (List (BitVec 8))) : Laws.FormTable.Statement (.cxlMemAccess part addr n data) := fun _ => trivial
theorem Laws.FormTable.partitionFault (part : Nat) (line : Option Nat) : Laws.FormTable.Statement (.partitionFault part line) := fun _ => trivial
theorem Laws.FormTable.repart (layout : List Nat) (timeout : Nat) : Laws.FormTable.Statement (.repart layout timeout) := fun _ => trivial
theorem Laws.FormTable.repartDrainEnd : Laws.FormTable.Statement (.repartDrainEnd) := fun _ => trivial
theorem Laws.FormTable.repartTimeout : Laws.FormTable.Statement (.repartTimeout) := fun _ => trivial
theorem Laws.FormTable.watchdogReset : Laws.FormTable.Statement (.watchdogReset) := fun _ => trivial
theorem Laws.FormTable.preempt (part : Nat) (ids : List (BitVec 32)) : Laws.FormTable.Statement (.preempt part ids) := fun _ => trivial
theorem Laws.FormTable.resume (part : Nat) (ids : List (BitVec 32)) : Laws.FormTable.Statement (.resume part ids) := fun _ => trivial
theorem Laws.FormTable.setpool (pool part rsv cap : Nat) : Laws.FormTable.Statement (.setpool pool part rsv cap) := fun _ => trivial
theorem Laws.FormTable.setqueue (q part : Nat) : Laws.FormTable.Statement (.setqueue q part) := fun _ => trivial
theorem Laws.FormTable.alcove (part : Nat) (cmd : AlcoveCmd) : Laws.FormTable.Statement (.alcove part cmd) := fun _ => trivial
theorem Laws.FormTable.setlink (port : Nat) (entries : List (Nat × Nat × BitVec 16)) : Laws.FormTable.Statement (.setlink port entries) := fun _ => trivial
theorem Laws.FormTable.faultq (part : Nat) (base : BitVec 64) (size : Nat) : Laws.FormTable.Statement (.faultq part base size) := fun _ => trivial
theorem Laws.FormTable.setwait (part cycles : Nat) : Laws.FormTable.Statement (.setwait part cycles) := fun _ => trivial
theorem Laws.FormTable.features : Laws.FormTable.Statement (.features) := fun _ => trivial
theorem Laws.FormTable.accept (bits : BitVec 128) : Laws.FormTable.Statement (.accept bits) := fun _ => trivial
theorem Laws.FormTable.attest (nonce : List (BitVec 8)) : Laws.FormTable.Statement (.attest nonce) := fun _ => trivial
theorem Laws.FormTable.telemetry : Laws.FormTable.Statement (.telemetry) := fun _ => trivial
theorem Laws.FormTable.update (addr : Nat) : Laws.FormTable.Statement (.update addr) := fun _ => trivial
theorem Laws.FormTable.idcert : Laws.FormTable.Statement (.idcert) := fun _ => trivial
theorem Laws.FormTable.deviceReset : Laws.FormTable.Statement (.deviceReset) := fun _ => trivial
theorem Laws.FormTable.voltageLoop (core : Nat) : Laws.FormTable.Statement (.voltageLoop core) := fun _ => trivial
theorem Laws.FormTable.frequencyLoop (core : Nat) : Laws.FormTable.Statement (.frequencyLoop core) := fun _ => trivial
theorem Laws.FormTable.powerLoop (core : Nat) : Laws.FormTable.Statement (.powerLoop core) := fun _ => trivial
theorem Laws.FormTable.equalisation (port lane : Nat) : Laws.FormTable.Statement (.equalisation port lane) := fun _ => trivial
theorem Laws.FormTable.debugContinue (team : Nat) : Laws.FormTable.Statement (.debugContinue team) := fun _ => trivial
theorem Laws.FormTable.waveStep (team w : Nat) : Laws.FormTable.Statement (.waveStep team w) := fun _ => trivial
theorem Laws.FormTable.fragmentStep (team w frag : Nat) : Laws.FormTable.Statement (.fragmentStep team w frag) := fun _ => trivial
theorem Laws.FormTable.laneStep (team w lane : Nat) : Laws.FormTable.Statement (.laneStep team w lane) := fun _ => trivial
theorem Laws.FormTable.leythRegisterWrite (wave reg lane : Nat) (v : BitVec 32) : Laws.FormTable.Statement (.leythRegisterWrite wave reg lane v) := fun _ => trivial
theorem Laws.FormTable.registerWrite (r : RegTarget) : Laws.FormTable.Statement (.registerWrite r) := fun _ => trivial
theorem Laws.FormTable.peerStoreArrival (port lane : Nat) (addr : BitVec 64) (data : List (BitVec 8)) : Laws.FormTable.Statement (.peerStoreArrival port lane addr data) := fun _ => trivial
theorem Laws.FormTable.narrowLinePublication (cl line : Nat) : Laws.FormTable.Statement (.narrowLinePublication cl line) := fun _ => trivial
theorem Laws.FormTable.debugContextTake (id : Nat) (taken : Bool) : Laws.FormTable.Statement (.debugContextTake id taken) := fun _ => trivial
theorem Laws.FormTable.cxlCacheSnoop (line : Nat) (inval : Bool) : Laws.FormTable.Statement (.cxlCacheSnoop line inval) := fun _ => trivial

end Sys2Proof
end

