-- ==== Sys2Proof/Laws/Wave.lean ====
section
/-! SUPPORT. What an instruction's frame does, once: the checks, the end of an instruction that goes on, and the body that only
writes vector registers. -/

namespace Sys2Proof.Machine

open Sys2Proof

/-! ### The current fragment -/

theorem Issues.ctx {s : State} {k i : Nat} {w : Wave} {fr : Frag} (h : Issues s k i w fr) (x : Ins) :
    s.ctx x = some ⟨k, w, i, fr, x⟩ := by
  simp [State.ctx, h.cur, h.wave, h.frag]

theorem Admits.precheck {x : Ins} {k i : Nat} {w : Wave} {fr : Frag} (h : Admits x w fr) :
    (⟨k, w, i, fr, x⟩ : Ctx).precheck = none := by
  obtain ⟨he, hr, hp⟩ := h
  unfold Ctx.precheck
  have h1 : Ctx.misplaced ⟨k, w, i, fr, x⟩ = false := by
    have hr : (fr.rep.isSome && repForbidden x.op) = false := by rcases hr with hr | hr <;> simp [hr]
    have hp : (x.op == 0x1E4 && x.f.imm.toNat == 4 && !w.handlerFlag) = false := by
      rcases hp with hp | hp | hp <;> simp [hp]
    show ((fr.rep.isSome && repForbidden x.op) || (x.op == 0x1E4 && x.f.imm.toNat == 4 && !w.handlerFlag)) = false
    rw [hr, hp]; rfl
  simp only [h1]
  rcases he with he | he
  · simp [Ctx.f, he]
  · cases hl : lowestExt x.op x.f <;> simp [he]

/-- An admitted instruction runs its body one clock tick later, and its answer finishes it. -/
theorem runWave_admits {x : Ins} {s : State} {k i : Nat} {w : Wave} {fr : Frag} (hi : Issues s k i w fr)
    (ha : Admits x w fr) (body : Ctx → State → Act) :
    runWave x body s =
      .next ((⟨k, w, i, fr, x⟩ : Ctx).finish (s.tick (coreOf k)) (body ⟨k, w, i, fr, x⟩ (s.tick (coreOf k)))) := by
  simp only [runWave, hi.ctx, ha.precheck]

/-! ### The end of an instruction that goes on -/

/-- The end of a debugger's step changes a team's halt and step alone. -/
theorem State.endStep_teams (k i : Nat) (w : Wave) (s : State) (j : Nat) :
    (Tab.find j (s.endStep k i w).teams).map Team.unstepped = (Tab.find j s.teams).map Team.unstepped := by
  unfold State.endStep
  split
  · rfl
  · split
    · rfl
    · simp only [State.setTeam_find]
      split
      · cases Tab.find j s.teams <;> simp [Team.unstepped]
      · rfl

theorem State.endStep_rest (k i : Nat) (w : Wave) (s : State) :
    s.endStep k i w = { s with teams := (s.endStep k i w).teams } := by
  unfold State.endStep
  split
  · rfl
  · split
    · rfl
    · rfl

/-- What the end of an instruction that goes on at an address leaves: the wave with its fragment moved on, and at most the park
and the end of a debugger's step besides. -/
structure WentOn (t u : State) (k i : Nat) (w : Wave) (pc : Dword) (rep : Option Rep) : Prop where
  wave : ∃ pk, Tab.find k u.waves =
    some { w.setFrag i (·.resume pc rep (t.now k)) with evictable := false, parked := pk }
  waves : ∀ j, j ≠ k → Tab.find j u.waves = Tab.find j t.waves
  teams : ∀ j, (Tab.find j u.teams).map Team.unstepped = (Tab.find j t.teams).map Team.unstepped
  rest : u = { t with waves := u.waves, teams := u.teams }

theorem Ctx.goOn_park (c : Ctx) (pc : Dword) (rep : Option Rep) (t : State) {w : Wave} (hw : Tab.find c.k t.waves = some w)
    (hu : c.ins.f.p = false ∨ w.faults = [] ∨ w.handlerFlag = true) :
    WentOn t ((c.goOn pc rep t).park c.k (some c.i) c.f.p) c.k c.i w pc rep := by
  set t1 := t.setWave c.k fun w => { w.setFrag c.i (·.resume pc rep (t.now c.k)) with evictable := false } with ht1
  have hg : c.goOn pc rep t = t1.endStep c.k c.i c.w := rfl
  have hrest := State.endStep_rest c.k c.i c.w t1
  have hwaves : (t1.endStep c.k c.i c.w).waves = t1.waves := by have h := congrArg State.waves hrest; exact h
  have hteams := State.endStep_teams c.k c.i c.w t1
  set t2 := t1.endStep c.k c.i c.w with ht2
  have hf : Tab.find c.k t2.waves = some { w.setFrag c.i (·.resume pc rep (t.now c.k)) with evictable := false } := by
    rw [hwaves, ht1]; simp [hw]
  have ho : ∀ j, j ≠ c.k → Tab.find j t2.waves = Tab.find j t.waves := by
    intro j hj; rw [hwaves, ht1]; simp [hj]
  have hr : t2 = { t with waves := t2.waves, teams := t2.teams } := by
    rw [hwaves]; exact hrest
  have base : WentOn t t2 c.k c.i w pc rep := ⟨⟨w.parked, hf⟩, ho, hteams, hr⟩
  rw [hg]
  unfold State.park
  split
  · rename_i hp
    rw [hf]
    dsimp only
    split
    · unfold State.endPark
      rw [hf]
      dsimp only [Option.bind_some]
      split
      · exact base
      rename_i fr hfr
      have hwait : fr.wait = .none := by
        have h : (w.frags[c.i]?).map (·.resume pc rep (t.now c.k)) = some fr := by
          rw [← hfr]; exact ((Wave.setFrag_get c.i c.i _ w).trans (if_pos rfl)).symm
        obtain ⟨g, -, rfl⟩ := Option.map_eq_some_iff.1 h
        rfl
      rw [hwait]
      dsimp only
      unfold State.deliverFault
      rw [hf]
      dsimp only [Wave.setFrag_faults, Wave.setFrag_handlerFlag]
      rcases hu with hu | hu | hu
      · exact absurd hp (by simp [Ctx.f, hu])
      · simp [hu]; exact base
      · simp [hu]; exact base
    · refine ⟨⟨some c.i, ?_⟩, ?_, ?_, ?_⟩
      · simp [hf]
      · intro j hj; simp [hj, ho j hj]
      · exact hteams
      · show t2.setWave c.k _ = _
        unfold State.setWave
        rw [hr]
  · exact base

/-- The pieces of the frame that every instruction shares: the tick before its body. -/
theorem State.tick_core (c j : Nat) (s : State) : { (s.tick c).core j with clock := 0 } = { s.core j with clock := 0 } := by
  have h : (s.tick c).core j = (s.setCore c fun x =>
      { x with clock := x.clock + BitVec.ofNat 64 (1 + Config.freeCycles s.frees) }).core j := rfl
  rw [h, State.setCore_core]
  split <;> simp_all

theorem State.tick_clock (c j : Nat) (h : j ≠ c) (s : State) : ((s.tick c).core j).clock = (s.core j).clock := by
  have h' : (s.tick c).core j = (s.setCore c fun x =>
      { x with clock := x.clock + BitVec.ofNat 64 (1 + Config.freeCycles s.frees) }).core j := rfl
  rw [h', State.setCore_core]; simp [h]

theorem State.tick_rest (c : Nat) (s : State) :
    s.tick c = { s with cores := (s.tick c).cores, frees := (s.tick c).frees } := rfl

/-- The frame after an instruction whose body changed its own wave alone. -/
theorem keptRest_of_wentOn {s u : State} {k i : Nat} {w : Wave} {pc : Dword} {rep : Option Rep} {g : Wave → Wave}
    (h : WentOn ((s.tick (coreOf k)).setWave k g) u k i w pc rep) : KeptRest s u k where
  waves j hj := by rw [h.waves j hj]; simp [hj]
  teams j := by rw [h.teams j]; rfl
  cores c := by
    have h1 : u.cores = (s.tick (coreOf k)).cores := by have h := congrArg State.cores h.rest; exact h
    have h2 : u.core c = (s.tick (coreOf k)).core c := by unfold State.core; rw [h1]
    rw [h2]; exact State.tick_core _ _ _
  clocks c hc := by
    have h1 : u.cores = (s.tick (coreOf k)).cores := by have h := congrArg State.cores h.rest; exact h
    have h2 : u.core c = (s.tick (coreOf k)).core c := by unfold State.core; rw [h1]
    rw [h2]; exact State.tick_clock _ _ hc _
  rest := by
    have h0 := h.rest
    have h1 : u.cores = (s.tick (coreOf k)).cores := by have h := congrArg State.cores h.rest; exact h
    have h2 : u.frees = (s.tick (coreOf k)).frees := by have h := congrArg State.frees h.rest; exact h
    rw [h1, h2]
    exact h0

/-- The place after an instruction outside a REP body is the next address. -/
theorem advance_none {f : Frag} (h : f.rep = none) (n : Dword) : advance f n = (n, none) := by simp [advance, h]

/-! ### Register writes -/

theorem foldl_staleReg_rest (rs : List Nat) (w : Wave) :
    rs.foldl Wave.staleReg w = { w with binds := (rs.foldl Wave.staleReg w).binds } := by
  induction rs generalizing w with
  | nil => rfl
  | cons r rs ih => exact ih (w.staleReg r)

theorem foldl_put_rest (ws : List RegW) (w : Wave) : ws.foldl Wave.put w = { w with regs := (ws.foldl Wave.put w).regs } := by
  induction ws generalizing w with
  | nil => rfl
  | cons r rs ih => exact ih (w.put r)

/-- Register writes change registers and bindings alone. -/
theorem Wave.writeRegs_rest (ws : List RegW) (w : Wave) :
    w.writeRegs ws = { w with regs := (w.writeRegs ws).regs, binds := (w.writeRegs ws).binds } := by
  have h := foldl_staleReg_rest (writtenRegs ws) (ws.foldl Wave.put w)
  have h2 := foldl_put_rest ws w
  unfold Wave.writeRegs
  rw [h, h2]

theorem Wave.writeRegs_frags (ws : List RegW) (w : Wave) : (w.writeRegs ws).frags = w.frags :=
  by have h := congrArg Wave.frags (Wave.writeRegs_rest ws w); exact h

theorem Wave.writeRegs_landing (ws : List RegW) (w : Wave) : (w.writeRegs ws).landing = w.landing :=
  by have h := congrArg Wave.landing (Wave.writeRegs_rest ws w); exact h

theorem Wave.writeRegs_faults (ws : List RegW) (w : Wave) : (w.writeRegs ws).faults = w.faults :=
  by have h := congrArg Wave.faults (Wave.writeRegs_rest ws w); exact h

theorem Wave.writeRegs_handlerFlag (ws : List RegW) (w : Wave) : (w.writeRegs ws).handlerFlag = w.handlerFlag :=
  by have h := congrArg Wave.handlerFlag (Wave.writeRegs_rest ws w); exact h

theorem Wave.writeRegs_regs (ws : List RegW) (w : Wave) : (w.writeRegs ws).regs = (ws.foldl Wave.put w).regs := by
  unfold Wave.writeRegs
  have h := congrArg Wave.regs (foldl_staleReg_rest (writtenRegs ws) (ws.foldl Wave.put w))
  exact h

theorem Wave.regKey_congr {w w' : Wave} (h : w'.landing = w.landing) (r l : Nat) : w'.regKey r l = w.regKey r l := by
  simp [Wave.regKey, h]

theorem Wave.reg_congr {w w' : Wave} (h : w'.landing = w.landing) (h2 : w'.regs = w.regs) (r l : Nat) :
    w'.reg r l = w.reg r l := by
  simp [Wave.reg, Wave.regKey, h, h2]

/-- Two places of the register file have two keys. -/
theorem Wave.regKey_inj (w : Wave) {r l r' l' : Nat} (hr : r < 128) (hl : l < 32) (hr' : r' < 128) (hl' : l' < 32)
    (h : w.regKey r l = w.regKey r' l') : r = r' ∧ l = l' := by
  unfold Wave.regKey at h
  split at h <;> split at h <;> omega

theorem Wave.put_landing (w : Wave) (x : RegW) : (w.put x).landing = w.landing := rfl

theorem Wave.put_reg (w : Wave) {x : RegW} (hx : x.1 < 128) (hxl : x.2.1 < 32) {r l : Nat} (hr : r < 128) (hl : l < 32) :
    (w.put x).reg r l = if x.1 = r ∧ x.2.1 = l then x.2.2 else w.reg r l := by
  have hk : (w.put x).regKey r l = w.regKey r l := rfl
  unfold Wave.reg
  rw [hk]
  show Tab.getD 0 (w.regKey r l) (Tab.setD 0 (w.regKey x.1 x.2.1) x.2.2 w.regs) = _
  rw [Tab.getD_setD]
  by_cases h : x.1 = r ∧ x.2.1 = l
  · obtain ⟨rfl, rfl⟩ := h; simp
  · have : w.regKey r l ≠ w.regKey x.1 x.2.1 := by
      intro hh
      exact h ((w.regKey_inj hr hl hx hxl hh).imp Eq.symm Eq.symm)
    simp [h, this]

/-- What a place holds after a list of register writes. -/
theorem Wave.foldl_put_reg (ws : List RegW) (hws : ∀ x ∈ ws, x.1 < 128 ∧ x.2.1 < 32) (w : Wave) {r l : Nat} (hr : r < 128)
    (hl : l < 32) :
    (ws.foldl Wave.put w).reg r l =
      ws.foldl (fun v x => if x.1 = r ∧ x.2.1 = l then x.2.2 else v) (w.reg r l) := by
  induction ws generalizing w with
  | nil => rfl
  | cons x ws ih =>
    simp only [List.foldl_cons]
    rw [ih (fun y hy => hws y (List.mem_cons_of_mem _ hy))]
    rw [w.put_reg (hws x (by simp)).1 (hws x (by simp)).2 hr hl]

theorem Wave.writeRegs_reg (ws : List RegW) (hws : ∀ x ∈ ws, x.1 < 128 ∧ x.2.1 < 32) (w : Wave) {r l : Nat} (hr : r < 128)
    (hl : l < 32) :
    (w.writeRegs ws).reg r l = ws.foldl (fun v x => if x.1 = r ∧ x.2.1 = l then x.2.2 else v) (w.reg r l) := by
  rw [← Wave.foldl_put_reg ws hws w hr hl]
  have hl' : (ws.foldl Wave.put w).landing = w.landing := by
    have h := congrArg Wave.landing (foldl_put_rest ws w); exact h
  exact Wave.reg_congr ((Wave.writeRegs_landing ws w).trans hl'.symm) (Wave.writeRegs_regs ws w) r l

/-- Writes gathered lane by lane, at one place: those of its own lane, if it is among the lanes. -/
theorem foldl_lanes (ls : List Nat) (hn : ls.Nodup) (g : Nat → List (Nat × Word)) (r l : Nat) (old : Word) :
    (ls.flatMap fun m => (g m).map fun x => ((x.1, m, x.2) : RegW)).foldl
        (fun v x => if x.1 = r ∧ x.2.1 = l then x.2.2 else v) old =
      if l ∈ ls then afterWrites (g l) r old else old := by
  have other : ∀ (m : Nat) (ys : List (Nat × Word)) (v : Word), m ≠ l →
      (ys.map fun x => ((x.1, m, x.2) : RegW)).foldl (fun v x => if x.1 = r ∧ x.2.1 = l then x.2.2 else v) v = v := by
    intro m ys
    induction ys with
    | nil => intros; rfl
    | cons y ys ih => intro v hm; simp [hm, ih]
  have own : ∀ (ys : List (Nat × Word)) (v : Word),
      (ys.map fun x => ((x.1, l, x.2) : RegW)).foldl (fun v x => if x.1 = r ∧ x.2.1 = l then x.2.2 else v) v =
        afterWrites ys r v := by
    intro ys
    induction ys with
    | nil => intros; rfl
    | cons y ys ih => intro v; simp [afterWrites, ih]
  induction ls generalizing old with
  | nil => rfl
  | cons m ls ih =>
    simp only [List.flatMap_cons, List.foldl_append]
    have hm := List.nodup_cons.1 hn
    by_cases h : m = l
    · subst h
      rw [own, ih hm.2]
      simp [hm.1]
    · rw [other m _ _ h, ih hm.2]
      simp [Ne.symm h]

theorem lanesOf_nodup (m : Word) : (lanesOf m).Nodup := List.Nodup.filter _ List.nodup_range

theorem Ctx.lanes_nodup (c : Ctx) : c.lanes.Nodup := (lanesOf_nodup _).filter _

theorem lanesOf_lt {m : Word} {l : Nat} (h : l ∈ lanesOf m) : l < 32 := by
  have := List.mem_filter.1 h
  exact List.mem_range.1 this.1

theorem Ctx.lanes_lt {c : Ctx} {l : Nat} (h : l ∈ c.lanes) : l < 32 := lanesOf_lt (List.mem_filter.1 h).1

/-- A binding over no register written stays. -/
theorem foldl_staleReg_bind (rs : List Nat) (w : Wave) (b : Nat)
    (h : ∀ r ∈ rs, bindHasReg (w.bind b) r w.landing.mode = false) : (rs.foldl Wave.staleReg w).bind b = w.bind b := by
  induction rs generalizing w with
  | nil => rfl
  | cons r rs ih =>
    have hb : (w.staleReg r).bind b = w.bind b := by
      have hr := h r (by simp)
      unfold Wave.bind Wave.staleReg at *
      simp only [Tab.getD] at *
      have hm := Tab.find_map b (fun _ v => if bindHasReg v r w.landing.mode then setStale v else v) w.binds
      have he : (w.binds.map fun e => if bindHasReg e.2 r w.landing.mode then (e.1, setStale e.2) else e) =
          w.binds.map fun e => (e.1, if bindHasReg e.2 r w.landing.mode then setStale e.2 else e.2) := by
        apply List.map_congr_left; intro e _; split <;> rfl
      rw [he, hm]
      cases hf : Tab.find b w.binds with
      | none => rfl
      | some v => simp only [hf, Option.getD_some] at hr; simp [hr]
    rw [List.foldl_cons, ih (w.staleReg r), hb]
    intro r' hr'
    rw [hb]
    exact h r' (List.mem_cons_of_mem _ hr')

theorem Wave.writeRegs_bind (ws : List RegW) (w : Wave) (b : Nat)
    (h : ∀ x ∈ ws, bindHasReg (w.bind b) x.1 w.landing.mode = false) : (w.writeRegs ws).bind b = w.bind b := by
  unfold Wave.writeRegs
  have h2 := foldl_put_rest ws w
  have hl : (ws.foldl Wave.put w).landing = w.landing := by have h := congrArg Wave.landing h2; exact h
  have hb : (ws.foldl Wave.put w).binds = w.binds := by have h := congrArg Wave.binds h2; exact h
  have hbb : (ws.foldl Wave.put w).bind b = w.bind b := by unfold Wave.bind; rw [hb]
  rw [foldl_staleReg_bind, hbb]
  intro r hr
  rw [hbb, hl]
  unfold writtenRegs at hr
  obtain ⟨x, hx, rfl⟩ := List.mem_map.1 (List.mem_dedup.1 hr)
  exact h x hx

/-! ### The body that only writes registers -/

/-- The writes of a body gathered lane by lane. -/
def laneWrites (c : Ctx) (ws : Nat → List (Nat × Word)) : List RegW :=
  c.lanes.flatMap fun l => (ws l).map fun x => ((x.1, l, x.2) : RegW)

/-- An instruction whose body writes registers lane by lane completes, and does nothing else. -/
theorem runWave_regBody {x : Ins} {s : State} {k i : Nat} {w : Wave} {fr : Frag} (hi : Issues s k i w fr)
    (ha : Admits x w fr) (hu : Undisturbed x w) {g : Ctx → List RegW} (ws : Nat → List (Nat × Word))
    (hg : g ⟨k, w, i, fr, x⟩ = laneWrites ⟨k, w, i, fr, x⟩ ws) (hd : ∀ l, ∀ y ∈ ws l, y.1 < 128) :
    let c : Ctx := ⟨k, w, i, fr, x⟩
    ∃ t w' fr', runWave x (regBody g) s = .next t ∧ KeptRest s t k ∧ Tab.find k t.waves = some w' ∧ KeptWave w w' i ∧
      w'.frags[i]? = some fr' ∧ GoesOn fr fr' x.len ∧
      (∀ r l, r < 128 → l < 32 →
        w'.reg r l = if l ∈ c.lanes then afterWrites (ws l) r (w.reg r l) else w.reg r l) ∧
      ∀ b, (∀ l ∈ c.lanes, ∀ y ∈ ws l, bindHasReg (w.bind b) y.1 w.landing.mode = false) → w'.bind b = w.bind b := by
  intro c
  rw [runWave_admits hi ha]
  set s1 := s.tick (coreOf k) with hs1
  have hw1 : Tab.find k s1.waves = some w := hi.wave
  set G : Wave → Wave := fun w => (w.writeRegs (g c)).setFrag c.i fun f =>
    if w.changes c.fr.mask (g c) = true then { f with spins := [], prio := 0 } else f with hG
  have hb : regBody g c s1 = .next (s1.setWave k G) := rfl
  have hfin : c.finish s1 (regBody g c s1) =
      (c.goOn c.after.1 c.after.2 (s1.setWave k G)).park c.k (some c.i) c.f.p := by rw [hb]; rfl
  have hwG : Tab.find k (s1.setWave k G).waves = some (G w) := by simp [hw1]
  have huG : c.ins.f.p = false ∨ (G w).faults = [] ∨ (G w).handlerFlag = true := by
    have h1 : (G w).faults = w.faults := by simp [hG, Wave.writeRegs_faults]
    have h2 : (G w).handlerFlag = w.handlerFlag := by simp [hG, Wave.writeRegs_handlerFlag]
    rw [h1, h2]; exact hu
  have H := c.goOn_park c.after.1 c.after.2 (s1.setWave k G) hwG huG
  rw [← hfin] at H
  obtain ⟨pk, hwave⟩ := H.wave
  set fr1 : Frag := Frag.resume c.after.1 c.after.2 ((s1.setWave k G).now c.k)
    (if w.changes c.fr.mask (g c) = true then { fr with spins := [], prio := 0 } else fr) with hfr1
  refine ⟨_, _, fr1, rfl, keptRest_of_wentOn (s := s) (g := G) H, hwave, ⟨?_, ?_⟩, ?_, ?_, ?_, ?_⟩
  · have h := Wave.writeRegs_rest (g c) w
    simp only [hG, Wave.setFrag]
    rw [h]
  · intro j hj
    show (((G w).setFrag c.i _).frags)[j]? = _
    rw [Wave.setFrag_get]
    have : j ≠ c.i := hj
    simp only [this, if_false, hG, Wave.setFrag_get, Wave.writeRegs_frags]
  · show (((G w).setFrag c.i _).frags)[i]? = _
    rw [Wave.setFrag_get]
    simp only [hG, Wave.setFrag_get, Wave.writeRegs_frags, hi.frag, c]
    simp only [if_true, Option.map_some]
    rfl
  · have hf : ∀ f : Frag, f = (if w.changes c.fr.mask (g c) = true then { fr with spins := [], prio := 0 } else fr) →
        f.mask = fr.mask ∧ f.tokens = fr.tokens ∧ f.handler = fr.handler ∧ f.cons = fr.cons ∧
        f.held = fr.held := by
      intro f hf; subst hf; split <;> exact ⟨rfl, rfl, rfl, rfl, rfl⟩
    obtain ⟨h1, h2, h3, h4, h5⟩ := hf _ rfl
    refine ⟨h1, h2, h3, h4, rfl, h5, fun hr => ?_⟩
    have h6 := advance_none hr (fr.pc + BitVec.ofNat 64 x.len)
    exact ⟨congrArg Prod.fst h6, congrArg Prod.snd h6⟩
  · intro r l hr hl
    have hlen : ∀ y ∈ g c, y.1 < 128 ∧ y.2.1 < 32 := by
      intro y hy
      rw [show g c = laneWrites c ws from hg] at hy
      obtain ⟨m, hm, hy⟩ := List.mem_flatMap.1 hy
      obtain ⟨z, hz, rfl⟩ := List.mem_map.1 hy
      exact ⟨hd m z hz, Ctx.lanes_lt hm⟩
    have h1 : ({ (G w).setFrag c.i (·.resume c.after.1 c.after.2 ((s1.setWave k G).now c.k)) with
        evictable := false, parked := pk } : Wave).reg r l = (w.writeRegs (g c)).reg r l :=
      Wave.reg_congr rfl rfl r l
    rw [h1, Wave.writeRegs_reg (g c) hlen w hr hl, show g c = laneWrites c ws from hg]
    exact foldl_lanes c.lanes c.lanes_nodup ws r l (w.reg r l)
  · intro b hb'
    have h1 : ({ (G w).setFrag c.i (·.resume c.after.1 c.after.2 ((s1.setWave k G).now c.k)) with
        evictable := false, parked := pk } : Wave).bind b = (w.writeRegs (g c)).bind b := rfl
    rw [h1]
    apply Wave.writeRegs_bind
    intro y hy
    rw [show g c = laneWrites c ws from hg] at hy
    obtain ⟨m, hm, hy⟩ := List.mem_flatMap.1 hy
    obtain ⟨z, hz, rfl⟩ := List.mem_map.1 hy
    exact hb' m hm z hz

end Sys2Proof.Machine
end

