-- ==== Sys2Proof/Laws/Run.lean ====
section
/-! SUPPORT. Every wave instruction runs in the one frame of `runWave`, with the opcode and the fields of its form; so the checks
that come before an instruction's own effect are the same for all. -/

namespace Sys2Proof.Machine

open Sys2Proof

/-- exec of a wave instruction is `runWave` of the instruction as it runs and of some body. -/
theorem exec_runs (j : Instr) (h : j.form ≠ .event) : ∃ body, ∀ s, exec j s = runWave (insOf j) body s := by
  cases j <;> first
    | exact ⟨_, fun _ => rfl⟩
    | exact absurd rfl h

/-- A trap of the checks of R32, R163 and R216 is the instruction's whole effect, beside the cycles it takes. -/
theorem runWave_refused {x : Ins} {s : State} {k i : Nat} {w : Wave} {fr : Frag} (hi : Issues s k i w fr) {t : TrapInfo}
    (ht : Ctx.precheck ⟨k, w, i, fr, x⟩ = some t) (body : Ctx → State → Act) :
    runWave x body s = .next ((s.tick (coreOf k)).trapIssue k i w t) := by
  simp only [runWave, hi.ctx, ht, Ctx.finish]

end Sys2Proof.Machine
end

