-- ==== Sys2Proof/Laws/Trap.lean ====
section
/-! SUPPORT. Taking a trap, leaving a handler, and the frame of an instruction: what each can do, once; and that the frame keeps
the canonical form of memory when the instruction's body does. -/

namespace Sys2Proof.Machine

open Sys2Proof

/-! ### Taking a trap (R209, R212) -/

/-- What taking a trap does: nothing where there is no such wave; in a handler, the launch's end; where Leyth catches the code, a
debug halt with the trap pending; without a vector, the launch's end; otherwise the entry into the handler. -/
theorem State.takeTrap_cases (k i : Nat) (t : TrapInfo) (s : State) :
    (Tab.find k s.waves = none ∧ s.takeTrap k i t = s) ∨
    ∃ w, Tab.find k s.waves = some w ∧
      ((w.handlerFlag = true ∧ s.takeTrap k i t = s.fatal w 0x20 t) ∨
       (w.handlerFlag = false ∧ s.catches w t.code = true ∧
        s.takeTrap k i t = s.setTeam w.team fun tm =>
          { tm with halt := some ⟨t.code, t.info.toNat, k, i, some t⟩, step := none }) ∨
       (w.handlerFlag = false ∧ s.catches w t.code = false ∧ s.trapVec w = 0 ∧ s.takeTrap k i t = s.fatal w t.code t) ∨
       (w.handlerFlag = false ∧ s.catches w t.code = false ∧ s.trapVec w ≠ 0 ∧
        s.takeTrap k i t = s.setWave k (·.enterHandler i (s.trapVec w) t))) := by
  unfold State.takeTrap
  cases hw : Tab.find k s.waves with
  | none => exact .inl ⟨rfl, rfl⟩
  | some w =>
    refine .inr ⟨w, rfl, ?_⟩
    cases hh : w.handlerFlag
    · cases hc : s.catches w t.code
      · by_cases hv : s.trapVec w = 0
        · refine .inr (.inr (.inl ⟨rfl, rfl, hv, ?_⟩))
          simp [State.proceedTrap, hw, hv, hc, hh]
        · refine .inr (.inr (.inr ⟨rfl, rfl, hv, ?_⟩))
          simp only [hh, hc, Bool.false_eq_true, if_false, State.proceedTrap, hw]
          exact if_neg hv
      · exact .inr (.inl ⟨rfl, rfl, by simp [hc, hh]⟩)
    · exact .inl ⟨rfl, by simp [hh]⟩

theorem State.fatal_mem (w : Wave) (n : Nat) (t : TrapInfo) (s : State) : (s.fatal w n t).mem = s.mem := by
  unfold State.fatal; split <;> rfl

theorem State.proceedTrap_mem (k i : Nat) (t : TrapInfo) (s : State) : (s.proceedTrap k i t).mem = s.mem := by
  unfold State.proceedTrap
  split
  · rfl
  · split
    · exact State.fatal_mem _ _ _ _
    · rfl

@[simp] theorem State.takeTrap_mem (k i : Nat) (t : TrapInfo) (s : State) : (s.takeTrap k i t).mem = s.mem := by
  obtain ⟨-, h⟩ | ⟨w, -, ⟨-, h⟩ | ⟨-, -, h⟩ | ⟨-, -, -, h⟩ | ⟨-, -, -, h⟩⟩ := s.takeTrap_cases k i t <;> rw [h] <;>
    first
      | rfl
      | exact State.fatal_mem _ _ _ _

/-- Entry into the handler, of fragment i: what the trap registers take, and where the fragment goes (R209, R213). -/
theorem Wave.enterHandler_frag (i : Nat) (vec : Dword) (t : TrapInfo) (w : Wave) (f : Frag) (h : w.frags[i]? = some f) :
    (w.enterHandler i vec t).trap = ⟨causeWord t, t.info, t.addr, f.pc, f.mask, f.tokens, f.rep, false, f.cons⟩ ∧
    (w.enterHandler i vec t).handlerFlag = true ∧
    (w.enterHandler i vec t).frags[i]? = some { f with
      tokens := 0, rep := none, pc := handlerPc vec, handler := true, wait := .none, launchLane := none, got := [], bpSkip := [],
      due := none } := by
  have hl : i < w.frags.length := (List.getElem?_eq_some_iff.1 h).1
  simp [Wave.enterHandler, Wave.setFrag, hl, (List.getElem?_eq_some_iff.1 h).2]

/-- Leaving a handler clears its flag and its registers (R213, R217). -/
theorem Wave.leaveHandler_flags (w : Wave) :
    w.leaveHandler.handlerFlag = false ∧ w.leaveHandler.trap = TrapRegs.zero ∧ w.leaveHandler.tretLanes = 0 := by
  unfold Wave.leaveHandler
  dsimp only
  split <;> exact ⟨rfl, rfl, rfl⟩

/-! ### The frame of an instruction -/

@[simp] theorem State.deliverFault_mem (k i : Nat) (s : State) : (s.deliverFault k i).mem = s.mem := by
  unfold State.deliverFault
  split
  · rfl
  · split
    · simp
    · rfl

@[simp] theorem State.endPark_mem (k i : Nat) (s : State) : (s.endPark k i).mem = s.mem := by
  unfold State.endPark
  split
  · rfl
  · split <;> simp

@[simp] theorem State.park_mem (k : Nat) (i : Option Nat) (p : Bool) (s : State) : (s.park k i p).mem = s.mem := by
  unfold State.park
  split
  · split
    · rfl
    · split
      · split <;> simp
      · rfl
  · rfl

@[simp] theorem State.stir_mem (k : Nat) (s : State) : (s.stir k).mem = s.mem := rfl

@[simp] theorem State.endStep_mem (k i : Nat) (w : Wave) (s : State) : (s.endStep k i w).mem = s.mem := by
  rw [State.endStep_rest]

@[simp] theorem State.pinStep_mem (k i : Nat) (w : Wave) (s : State) : (s.pinStep k i w).mem = s.mem := rfl

@[simp] theorem State.parkOnly_mem (k i : Nat) (p : Bool) (s : State) : (s.parkOnly k i p).mem = s.mem := rfl

@[simp] theorem State.parkWait_mem (k i : Nat) (wt : Wait) (p : Bool) (s : State) : (s.parkWait k i wt p).mem = s.mem := by
  unfold State.parkWait; split <;> simp

@[simp] theorem State.trapIssue_mem (k i : Nat) (w : Wave) (t : TrapInfo) (s : State) : (s.trapIssue k i w t).mem = s.mem := by
  simp [State.trapIssue]

@[simp] theorem Ctx.goOn_mem (c : Ctx) (pc : Dword) (rep : Option Rep) (s : State) : (c.goOn pc rep s).mem = s.mem := by
  simp [Ctx.goOn]

/-- Whatever state an answer of a body carries has a canonical memory. -/
def Act.KeepsMem : Act → Prop
  | .next t => memWf t.mem
  | .goto _ t => memWf t.mem
  | .wait _ t => memWf t.mem
  | .moved _ t => memWf t.mem
  | .trap _ => True
  | .after _ t => memWf t.mem

theorem Ctx.memWf_finish (c : Ctx) {s : State} (h : memWf s.mem) {a : Act} (ha : a.KeepsMem) : memWf (c.finish s a).mem := by
  have e : (c.finish s a).mem = s.mem ∨ memWf (c.finish s a).mem := by
    cases a with
    | trap => exact .inl (by simp [Ctx.finish])
    | moved i => cases i <;> exact .inr (by simpa [Ctx.finish, Act.KeepsMem] using ha)
    | _ => exact .inr (by simpa [Ctx.finish, Act.KeepsMem] using ha)
  rcases e with e | e
  · rw [e]; exact h
  · exact e

/-- An instruction whose body keeps the canonical form keeps it. -/
theorem memWf_runWave {x : Ins} {body : Ctx → State → Act} (hb : ∀ c s, memWf s.mem → (body c s).KeepsMem) {s t : State}
    (h : memWf s.mem) (hr : runWave x body s = .next t) : memWf t.mem := by
  unfold runWave at hr
  split at hr
  · cases hr
  · dsimp only at hr
    split at hr <;> cases hr
    · exact Ctx.memWf_finish (s := s.tick _) (a := .trap _) _ h trivial
    · exact Ctx.memWf_finish (s := s.tick _) _ h (hb _ (s.tick _) h)

theorem regBody_keepsMem (g : Ctx → List RegW) (c : Ctx) (s : State) (h : memWf s.mem) : (regBody g c s).KeepsMem := h

end Sys2Proof.Machine
end

