-- ==== Sys2Proof/Machine/Context.lean ====
section
/-! DEFINITION. What Leyth and the host read of a wave, a region and a copy in flight: the wave context image (R224), the
generator state record (R271), the progress record of a copy command (R247). -/

namespace Sys2Proof.Machine

open Sys2Proof

/-- Byte i of a number, little-endian (R6). -/
def numByte (v i : Nat) : Byte := BitVec.ofNat 8 (v / 2 ^ (8 * i))

/-- The generator state record (R271). -/
def Landing.record (x : Landing) : BitVec 256 :=
  x.consPc ++ x.exitPc ++ x.regMask ++ x.prodMask ++ 0#16 ++ x.genTok ++ 0#11 ++ x.bsz ++ BitVec.ofBool x.inReg ++
    BitVec.ofBool x.drain ++ BitVec.ofBool x.mode ++ BitVec.ofNat 8 x.batch ++ BitVec.ofNat 8 x.entries.length

/-- The progress record of a command of copy queue q, in flight or faulted (R247). NEXT shows a payload index modulo 2^32. Log
entry 117. -/
def CopyCmd.progress (q : Nat) (x : CopyCmd) : BitVec 128 :=
  BitVec.ofNat 32 x.next ++ x.batch ++ x.entry ++ BitVec.ofNat 8 (recOp x.record) ++
    BitVec.ofNat 8 (x.fault.getD 0) ++ BitVec.ofNat 8 (x.susp.getD 0) ++ 0#4 ++ BitVec.ofBool x.fault.isSome ++
    BitVec.ofBool x.susp.isSome ++ 0#1 ++ BitVec.ofNat 1 q

/-- The state word of a fragment entry (R224): tokens, priority, Landing set, handler fragment. -/
def Frag.stateWord (f : Frag) : Nat :=
  f.tokens.toNat + f.prio % 8 * 2 ^ 16 + (if f.cons then 2 ^ 19 else 0) + (if f.handler then 2 ^ 20 else 0)

/-- The repeat word of a fragment entry (R224): k − 1, REP active, LAUNCH resume lane and valid. -/
def Frag.repeatWord (f : Frag) : Nat :=
  (match f.rep with
    | none => 0
    | some r => (r.k - 1) % 16 + 2 ^ 4) +
  match f.launchLane with
    | none => 0
    | some l => l % 32 * 2 ^ 5 + 2 ^ 10

/-- The 32 bytes of a fragment entry as a number (R224). -/
def Frag.entryNum (f : Frag) : Nat :=
  f.pc.toNat + f.mask.toNat * 2 ^ 64 + f.stateWord * 2 ^ 96 + ((f.rep.map fun r => r.start.toNat).getD 0) * 2 ^ 128 +
    f.repeatWord * 2 ^ 192 + ((f.rep.map fun r => r.left.toNat).getD 0) * 2 ^ 224

/-- Lane l of v r in the frame that is not current; 0 outside a region (R224, R272). -/
def Wave.otherFrame (w : Wave) (r l : Nat) : Word :=
  if w.landing.inReg then { w with landing := { w.landing with mode := !w.landing.mode } }.reg r l else 0

/-- The words from mode to scratch3 of the context image (R224): mode, hold bit, handler flag, trap registers 1 to 7, scratch. -/
def Wave.controlWords (w : Wave) : List Word :=
  let t := w.trap
  [w.mode, if w.ext then 1 else 0, if w.handlerFlag then 1 else 0, t.cause, t.info, t.addr.setWidth 32, t.addr.extractLsb' 32 32,
    t.pc.setWidth 32, t.pc.extractLsb' 32 32, t.mask, t.tok.setWidth 32, (t.rep.map Rep.left).getD 0,
    w.scratch.1, w.scratch.2.1, w.scratch.2.2.1, w.scratch.2.2.2]

/-- Word n of an entry of the Landing. -/
def heldWord (e : Word × Word × Word × Word) (n : Nat) : Word :=
  match n with
  | 0 => e.1
  | 1 => e.2.1
  | 2 => e.2.2.1
  | _ => e.2.2.2

/-- Byte i of the context image of a wave, 22,720 bytes (R224); its fragment entries stand in the order of the model's list of
them (log entry 95). -/
def Wave.contextByte (w : Wave) (i : Nat) : Byte :=
  let word := fun (v : Word) => numByte v.toNat (i % 4)
  if i < 8192 then word (w.reg (i / 128) (i % 128 / 4))
  else if i < 16384 then (if w.ext then word (w.reg (i / 128) (i % 128 / 4)) else 0)
  else if i < 18432 then word (w.otherFrame (48 + (i - 16384) / 128) (i % 128 / 4))
  else if i < 19456 then w.scale ((i - 18432) / 32) (i % 32)
  else if i < 19584 then word (w.bind ((i - 19456) / 4))
  else if i < 20608 then
    match w.frags[(i - 19584) / 32]? with
    | none => 0
    | some f => numByte f.entryNum (i % 32)
  else if i < 20672 then word (w.controlWords.getD ((i - 20608) / 4) 0)
  else
    match w.landing.entries[(i - 20672) / 16]? with
    | none => 0
    | some e => word (heldWord e (i % 16 / 4))

/-- The context image (R224). -/
def Wave.contextImage (w : Wave) : List Byte := (List.range 22720).map w.contextByte

end Sys2Proof.Machine
end

