-- ==== Sys2Proof/Tests/Slice0.lean ====
section
/-! SUPPORT. The model's own tests: words of the spec's listings decode to what they stand for, ill-formed terms are refused, one
step on small states, and for each statement a state and operands that meet its hypotheses. -/

namespace Sys2Proof.Tests

open Sys2Proof Sys2Proof.Machine

/-- The fields of an X96 instruction, all zero. -/
def xf : XF := ⟨none, false, false, 0, 0, 0, 0, 0, 0, 0, 0, Guard.none, 0⟩

/-- The fields of a B32 instruction, all zero. -/
def bf : BF := ⟨none, false, false, 0, 0, 0⟩

/-! ### Words of the spec's listings and of its encoding tables (R25 to R30, R53, R56) -/

/-- The words of: iadd v5, v6, 0x12345; ?v3 iadd v5, v6, -3; iaddc v5, v6, v7, v8, v9; iclamp v5, v6, v7, v8; icmp.lt v5,
v6, v7; icsadd v5, v5, v7, v8. -/
theorem test_decode_int0 :
    decode [0x0018_2813, 0x0001_2345, 0x0000_0000] = .ok (.iaddB32 { bf with lit := some 0x12345, d := 5, a := 6 }) ∧
    decode [0x00C1_4411, 0x0A00_0000, 0xFFFF_4003] =
      .ok (.iaddImm { xf with d := 5, a := 6, t := 2, imm := 0x3fffd, g := { Guard.none with ge0 := true, g0 := 0x3 } }) ∧
    decode [0x00C1_4031, 0x0202_4407, 0x0000_0000] =
      .ok (.iaddc { xf with d := 5, a := 6, b := 7, c := 8, e := 9, t := 2 }) ∧
    decode [0x00C1_40E1, 0x0200_0407, 0x0000_0000] = .ok (.iclamp { xf with d := 5, a := 6, b := 7, c := 8, t := 2 }) ∧
    decode [0x00C1_4201, 0x0240_0007, 0x0000_0000] = .ok (.icmp { xf with d := 5, a := 6, b := 7, m := 2, t := 2 }) ∧
    decode [0x00A1_40A1, 0x0200_0407, 0x0000_0000] = .ok (.icsadd { xf with d := 5, a := 5, b := 7, c := 8, t := 2 }) := by decide

/-- The words of: idiv v5, v6, v7, v9; imad v5, v6, v7, v8; imulh.n32 v5, v6, v7; isat.i8 v5, v6; bfi v5, v6, v7, 4, 8;
bfx.i32 v5, v6, 4, 8. -/
theorem test_decode_int1 :
    decode [0x00C1_40B1, 0x0202_4007, 0x0000_0000] = .ok (.idiv { xf with d := 5, a := 6, b := 7, e := 9, t := 2 }) ∧
    decode [0x00C1_4091, 0x0200_0407, 0x0000_0000] = .ok (.imad { xf with d := 5, a := 6, b := 7, c := 8, t := 2 }) ∧
    decode [0x00C1_4081, 0x0600_0007, 0x0000_0000] = .ok (.imulh { xf with d := 5, a := 6, b := 7, t := 6 }) ∧
    decode [0x00C1_40F1, 0x0000_0000, 0x0000_0000] = .ok (.isat { xf with d := 5, a := 6 }) ∧
    decode [0x00C1_41A1, 0x0600_0007, 0x0081_0000] = .ok (.bfi { xf with d := 5, a := 6, b := 7, t := 6, imm := 0x204 }) ∧
    decode [0x00C1_4191, 0x0200_0000, 0x0081_0000] = .ok (.bfx { xf with d := 5, a := 6, t := 2, imm := 0x204 }) := by decide

/-- The words of: lea v4, v2, v6, 2, 16; a listing of the spec, line 13:104; mov v5, 300000; movi v5, 1000; rot.n64 v4, v6,
v7; sel v5, v6, v7, v8. -/
theorem test_decode_int2 :
    decode [0x0041_0221, 0x0740_0006, 0x0004_0000] =
      .ok (.lea { xf with d := 4, a := 2, b := 6, m := 2, t := 7, imm := 0x10 }) ∧
    decode [0x0000_8232, 0x0700_0000, 0x0000_0000, 0x0001_0000, 0x0000_0040] =
      .ok (.mov { xf with lit := some 0x4000010000, d := 2, t := 7 }) ∧
    decode [0x0000_2A23, 0x0004_93E0, 0x0000_0000] = .ok (.movB32 { bf with lit := some 0x493e0, d := 5 }) ∧
    decode [0x0001_4241, 0x0200_0000, 0x00FA_0000] = .ok (.movi { xf with d := 5, t := 2, imm := 0x3e8 }) ∧
    decode [0x00C1_0181, 0x0700_0007, 0x0000_0000] = .ok (.rot { xf with d := 4, a := 6, b := 7, t := 7 }) ∧
    decode [0x00C1_4211, 0x0600_0407, 0x0000_0000] = .ok (.sel { xf with d := 5, a := 6, b := 7, c := 8, t := 6 }) := by decide

/-- The words of: bra far; brc v4, skip, 2; call ldrec; rep 4, 2; get v5, cycle counter into a pair: IMM18 = 22; match v5,
v6. -/
theorem test_decode_control0 :
    decode [0x0000_0C01, 0x0000_0000, 0x61A8_0000] = .ok (.bra { xf with imm := 0x186a0 }) ∧
    decode [0x0080_0C11, 0x0000_0100, 0x0001_4000] = .ok (.brc { xf with a := 4, c := 2, imm := 5 }) ∧
    decode [0x0000_0C31, 0x0000_0000, 0x001E_0000] = .ok (.call { xf with imm := 0x78 }) ∧
    decode [0x0000_0C61, 0x0000_0000, 0x0020_4000] = .ok (.rep { xf with imm := 0x81 }) ∧
    decode [0x0001_8E01, 0x0000_0000, 0x0005_8000] = .ok (.get { xf with d := 6, imm := 0x16 }) ∧
    decode [0x00C1_4D41, 0x0600_0000, 0x0000_0000] = .ok (.matchLanes { xf with d := 5, a := 6, t := 6 }) := by decide

/-- The words of: redx.add v5, v6; scanx.add v5, v6; shfl.xor v5, v6, 1; vote.ballot v5, v6; setmode 0x13: IMM18 = 0x13;
xlock. -/
theorem test_decode_control1 :
    decode [0x00C1_4D21, 0x0200_0000, 0x0000_0000] = .ok (.redx { xf with d := 5, a := 6, t := 2 }) ∧
    decode [0x00C1_4D31, 0x0200_0000, 0x0000_0000] = .ok (.scanx { xf with d := 5, a := 6, t := 2 }) ∧
    decode [0x00C1_4D01, 0x0660_0000, 0x0000_4000] = .ok (.shfl { xf with d := 5, a := 6, m := 3, t := 6, imm := 1 }) ∧
    decode [0x00C1_4D11, 0x0040_0000, 0x0000_0000] = .ok (.vote { xf with d := 5, a := 6, m := 2 }) ∧
    decode [0x0000_0E11, 0x0000_0000, 0x0004_C000] = .ok (.setmode { xf with imm := 0x13 }) ∧
    decode [0x0000_0F01, 0x0000_0000, 0x0000_0000] = .ok (.xlock xf) := by decide

/-- The words of: cvtfi.i32.f32 v5, v6; cvtif.f32.i32 v5, v6; fadd.rtz v5, v6, v7; fadd v5, v6, 0x3fc0_0000; fclass.e4m3 v5,
v6; fcmp.lt v5, v6, v7. -/
theorem test_decode_float0 :
    decode [0x00C1_5221, 0x0000_0100, 0x0000_0000] = .ok (.cvtfi { xf with d := 5, a := 6, c := 2 }) ∧
    decode [0x00C1_5211, 0x0200_0000, 0x0000_0000] = .ok (.cvtif { xf with d := 5, a := 6, t := 2 }) ∧
    decode [0x00C1_5001, 0x0040_0007, 0x0000_0000] = .ok (.fadd { xf with d := 5, a := 6, b := 7, m := 2 }) ∧
    decode [0x0018_2C03, 0x3FC0_0000, 0x0000_0000] = .ok (.faddB32 { bf with lit := some 0x3fc00000, d := 5, a := 6 }) ∧
    decode [0x00C1_5071, 0x0400_0000, 0x0000_0000] = .ok (.fclass { xf with d := 5, a := 6, t := 4 }) ∧
    decode [0x00C1_5061, 0x0040_0007, 0x0000_0000] = .ok (.fcmp { xf with d := 5, a := 6, b := 7, m := 2 }) := by decide

/-- The words of: fcvt.f16.f32 v5, v6; ffma v5, v6, v7, v8; fsqrt.rup v5, v6; idot4 v5, v6, v7, v8; padd2.bf16 v5, v6, v7;
pfma2 v5, v6, v7, v8. -/
theorem test_decode_float1 :
    decode [0x00C1_5201, 0x0100_0000, 0x0000_0000] = .ok (.fcvt { xf with d := 5, a := 6, t := 1 }) ∧
    decode [0x00C1_5031, 0x0000_0407, 0x0000_0000] = .ok (.ffma { xf with d := 5, a := 6, b := 7, c := 8 }) ∧
    decode [0x00C1_50A1, 0x0060_0000, 0x0000_0000] = .ok (.fsqrt { xf with d := 5, a := 6, m := 3 }) ∧
    decode [0x00C1_5801, 0x0000_0407, 0x0000_0000] = .ok (.idot4 { xf with d := 5, a := 6, b := 7, c := 8 }) ∧
    decode [0x00C1_5401, 0x0200_0007, 0x0000_0000] = .ok (.padd2 { xf with d := 5, a := 6, b := 7, t := 2 }) ∧
    decode [0x00C1_5421, 0x0100_0407, 0x0000_0000] = .ok (.pfma2 { xf with d := 5, a := 6, b := 7, c := 8, t := 1 }) := by decide

/-- The words of: act v5, v6, 1; actld 1, [v2]; bfpq.b4 v5, k3, v6; kins v16, v6, v7, v24, 4; packn.b4 v8, v5, v7; ssi v5,
v8, v12. -/
theorem test_decode_narrow0 :
    decode [0x00C1_5A01, 0x0000_0000, 0x0000_4000] = .ok (.act { xf with d := 5, a := 6, imm := 1 }) ∧
    decode [0x0040_1A11, 0x0000_0000, 0x0000_4000] = .ok (.actld { xf with a := 2, imm := 1 }) ∧
    decode [0x00C1_5841, 0x0200_0180, 0x0000_0000] = .ok (.bfpq { xf with d := 5, a := 6, c := 3, t := 2 }) ∧
    decode [0x00C4_1911, 0x0200_0C07, 0x0000_C000] =
      .ok (.kins { xf with d := 0x10, a := 6, b := 7, c := 0x18, t := 2, imm := 3 }) ∧
    decode [0x00A2_1831, 0x0200_0007, 0x0000_0000] = .ok (.packn { xf with d := 8, a := 5, b := 7, t := 2 }) ∧
    decode [0x0101_5901, 0x0600_000C, 0x0000_0000] = .ok (.ssi { xf with d := 5, a := 8, b := 0xc, t := 6 }) := by decide

/-- The words of: unpk3 v10, v6, 1; unpkn.b4 v5, v8, v7. -/
theorem test_decode_narrow1 :
    decode [0x00C2_9811, 0x0020_0000, 0x0000_0000] = .ok (.unpk3 { xf with d := 0xa, a := 6, m := 1 }) ∧
    decode [0x0101_5821, 0x0200_0007, 0x0000_0000] = .ok (.unpkn { xf with d := 5, a := 8, b := 7, t := 2 }) := by decide

/-- The words of: ld.n32.stream; a listing of the spec, line 18:111; ldbf.b4 v8, k3, [v2+0]; flush [v2+128]; inval [v2+128];
pref.retain [v2+16]. -/
theorem test_decode_memory0 :
    decode [0x4042_6001, 0x0600_0000, 0x0004_0000] = .ok (.ld { xf with h := 4, d := 9, a := 2, t := 6, imm := 0x10 }) ∧
    decode [0x074C_6011, 0x0E00_0000, 0x0000_0037] =
      .ok (.st { xf with d := 0x31, a := 0x3a, t := 6, g := { Guard.none with ge0 := true, g0 := 0x37 } }) ∧
    decode [0x0042_2031, 0x0200_0180, 0x0000_0000] = .ok (.ldbf { xf with d := 8, a := 2, c := 3, t := 2 }) ∧
    decode [0x0040_2131, 0x0000_0000, 0x0020_0000] = .ok (.flush { xf with a := 2, imm := 0x80 }) ∧
    decode [0x0040_2141, 0x0000_0000, 0x0020_0000] = .ok (.inval { xf with a := 2, imm := 0x80 }) ∧
    decode [0x8040_2041, 0x0000_0000, 0x0004_0000] = .ok (.pref { xf with h := 8, a := 2, imm := 0x10 }) := by decide

/-- The words of: spmap [v2+0], v4; stash [v2+0], v4; unstash [v2+0]; a listing of the spec, line 18:107; a listing of the
spec, line 18:113. -/
theorem test_decode_memory1 :
    decode [0x0040_2101, 0x0000_0004, 0x0000_0000] = .ok (.spmap { xf with a := 2, b := 4 }) ∧
    decode [0x0040_2111, 0x0000_0004, 0x0000_0000] = .ok (.stash { xf with a := 2, b := 4 }) ∧
    decode [0x0040_2121, 0x0000_0000, 0x0000_0000] = .ok (.unstash { xf with a := 2 }) ∧
    decode [0x068D_A621, 0x0600_0012, 0x0000_0000] = .ok (.aincb { xf with d := 0x36, a := 0x34, b := 0x12, t := 6 }) ∧
    decode [0x018F_A601, 0x1E00_0013, 0x0000_0037] =
      .ok (.atom { xf with d := 0x3e, a := 0xc, b := 0x13, t := 6, g := { Guard.none with ge0 := true, gn0 := true, g0 := 0x37 } }) := by decide

/-- The words of: a listing of the spec, line 13:124; a listing of the spec, line 13:123; smov k3, k4; sadd k3, k4, k5; sst
k3; sst .x: M = 2. -/
theorem test_decode_scale0 :
    decode [0x0107_9C91, 0x0220_0203, 0x0000_0000] =
      .ok (.sacc { xf with d := 0x1e, a := 8, b := 3, c := 4, m := 1, t := 2 }) ∧
    decode [0x0380_DC01, 0x0020_0000, 0x0000_0000] = .ok (.sld { xf with d := 3, a := 0x1c, m := 1 }) ∧
    decode [0x0080_DC21, 0x0000_0000, 0x0000_0000] = .ok (.smov { xf with d := 3, a := 4 }) ∧
    decode [0x0080_DC41, 0x0000_0005, 0x0000_0000] = .ok (.sadd { xf with d := 3, a := 4, b := 5 }) ∧
    decode [0x0080_DC11, 0x0000_0000, 0x0000_0000] = .ok (.sst { xf with d := 3, a := 4 }) ∧
    decode [0x0000_DC11, 0x0040_0000, 0x0000_0000] = .ok (.sstStream { xf with d := 3, m := 2 }) := by decide

/-- The words of: barw v53, [v50+0], v54; push v40, v16, 2; waitb.park v41; tldone v36, v4, v21; tlpop.u v16, v4; fence of
both kinds at .die: M = 3, C = 3. -/
theorem test_decode_queue0 :
    decode [0x064D_6831, 0x0000_0036, 0x0000_0000] = .ok (.barw { xf with d := 0x35, a := 0x32, b := 0x36 }) ∧
    decode [0x020A_2A01, 0x0000_0000, 0x0000_8000] = .ok (.push { xf with d := 0x28, a := 0x10, imm := 2 }) ∧
    decode [0x0520_2A25, 0x0000_0000, 0x0000_0000] = .ok (.waitb { xf with p := true, a := 0x29 }) ∧
    decode [0x0089_2F11, 0x0000_0015, 0x0000_0000] = .ok (.tldone { xf with d := 0x24, a := 4, b := 0x15 }) ∧
    decode [0x0084_2F09, 0x0000_0000, 0x0000_0000] = .ok (.tlpop { xf with u := true, d := 0x10, a := 4 }) ∧
    decode [0x0000_2701, 0x0060_0180, 0x0000_0000] = .ok (.fence { xf with m := 3, c := 3 }) := by decide

/-- The words of: seal v5; launch v5 from v8 to v15; bara [v6 + 8]: IMM18 = 8; waita.ne v5, [v6], v8: M = 1, type .n32. -/
theorem test_decode_queue1 :
    decode [0x0001_6A11, 0x0000_0000, 0x0000_0000] = .ok (.seal { xf with d := 5 }) ∧
    decode [0x0101_6E01, 0x0000_0000, 0x0000_0000] = .ok (.launch { xf with d := 5, a := 8 }) ∧
    decode [0x00C0_2811, 0x0000_0000, 0x0002_0000] = .ok (.bara { xf with a := 6, imm := 8 }) ∧
    decode [0x00C1_6901, 0x0620_0008, 0x0000_0000] = .ok (.waita { xf with d := 5, a := 6, b := 8, m := 1, t := 6 }) := by decide

/-- The words of: a listing of the spec, line 18:96; a listing of the spec, line 18:104; a listing of the spec, line 18:114;
a listing of the spec, line 18:105; a listing of the spec, line 18:99. -/
theorem test_decode_region0 :
    decode [0x0000_2C01, 0x0000_1600, 0x0006_0000] = .ok (.gen { xf with c := 0x2c, imm := 0x18 }) ∧
    decode [0x0000_2C31, 0x0000_0000, 0x0000_0000] = .ok (.gend xf) ∧
    decode [0x0000_2C41, 0x0000_0000, 0x0000_0000] = .ok (.gnext xf) ∧
    decode [0x000C_2C21, 0x0000_0000, 0x0000_C000] = .ok (.take { xf with d := 0x30, imm := 3 }) ∧
    decode [0x0660_2C11, 0x0800_0000, 0x0000_C03A] =
      .ok (.yld { xf with a := 0x33, imm := 3, g := { Guard.none with ge0 := true, g0 := 0x3a } }) := by decide

/-- The words of: icinv; sysr v5, trap.cause; sysw trap.pc, v4; trap 1000; tret. -/
theorem test_decode_system0 :
    decode [0x0000_1E51, 0x0000_0000, 0x0000_0000] = .ok (.icinv xf) ∧
    decode [0x0001_5E31, 0x0000_0000, 0x0000_4000] = .ok (.sysr { xf with d := 5, imm := 1 }) ∧
    decode [0x0080_1E41, 0x0000_0000, 0x0001_0000] = .ok (.sysw { xf with a := 4, imm := 4 }) ∧
    decode [0x0000_1E01, 0x0000_0000, 0x00FA_0000] = .ok (.trap { xf with imm := 0x3e8 }) ∧
    decode [0x0000_1E11, 0x0000_0000, 0x0000_0000] = .ok (.tret xf) := by decide

/-- Words of the Alcove extension (R59, R337): al.ldw x5, 8(x6); al.stw x7, -8(x6); al.fetch 64(x6); al.drop 0(x6); al.arg x5, 1;
al.send x7, 4(x6); al.end 2. -/
theorem test_decode_handler :
    decodeHandler 0 0 0x0083_028B = .ext (.alLdw 0 0 5 6 8) ∧
    decodeHandler 0 0 0xFE73_0C2B = .ext (.alStw 0 0 7 6 0xFF8) ∧
    decodeHandler 0 0 0x0403_100B = .ext (.alFetch 0 0 0 6 64) ∧
    decodeHandler 0 0 0x0003_200B = .ext (.alDrop 0 0 0 6 0) ∧
    decodeHandler 0 0 0x0010_328B = .ext (.alArg 0 0 5 0 1) ∧
    decodeHandler 0 0 0x0073_122B = .ext (.alSend 0 0 7 6 4) ∧
    decodeHandler 0 0 0x0020_400B = .ext (.alEnd 0 0 0 0 2) := by decide

/-- What decodes to no instruction: an unassigned OP10, an unassigned OP7, a broken field, too few words, an AL.END with imm 3. -/
theorem test_decode_refused :
    decode [0x0000_0001, 0, 0] = .illegalOpcode ∧ decode [0x0000_07F0] = .illegalOpcode ∧
    decode [0x0000_0C81, 0x0100_0000, 0] = .illegalEncoding ∧ decode [0x0000_0C81, 0] = .short ∧
    decodeHandler 0 0 0x0030_400B = .illegal := by decide

/-- The table's numbering of bits: the first word is the least significant. -/
theorem test_decode_table_word :
    decodeTableWord 32 0x0018_2810 = some (.iaddB32 { bf with d := 5, a := 6 }) ∧
    decodeTableWord 96 (0x00C1_4031 + 2 ^ 32 * 0x0202_4407) =
      some (.iaddc { xf with d := 5, a := 6, b := 7, c := 8, e := 9, t := 2 }) ∧
    decodeTableWord 32 0x0083_028B = some (.alLdw 0 0 5 6 8) := by decide

/-! ### Ill-formed terms, one for each check (R30 to R40) -/

theorem test_refuses_literal : (Instr.not { xf with t := 6, lit := some 1 }).wellFormed = false := by decide
theorem test_refuses_literal_with_b : (Instr.iadd { xf with t := 2, b := 1, lit := some 1 }).wellFormed = false := by decide
theorem test_refuses_literal_width :
    (Instr.iadd { xf with t := 2, lit := some 0x1_0000_0000 }).wellFormed = false := by decide
theorem test_refuses_uniform : (Instr.vote { xf with u := true }).wellFormed = false := by decide
theorem test_refuses_hint : (Instr.iadd { xf with t := 2, h := 4 }).wellFormed = false := by decide
theorem test_refuses_reserved_hint : (Instr.ld { xf with t := 6, h := 1 }).wellFormed = false := by decide
theorem test_refuses_guard_on_control :
    (Instr.bra { xf with g := { Guard.none with ge0 := true } }).wellFormed = false := by decide
theorem test_refuses_second_guard_alone :
    (Instr.iadd { xf with t := 2, g := { Guard.none with ge1 := true } }).wellFormed = false := by decide
theorem test_refuses_type : (Instr.iadd { xf with t := 0 }).wellFormed = false := by decide
theorem test_refuses_modifier : (Instr.icmp { xf with t := 2, m := 6 }).wellFormed = false := by decide
theorem test_refuses_immediate : (Instr.iadd { xf with t := 2, imm := 1 }).wellFormed = false := by decide
theorem test_refuses_odd_pair : (Instr.iadd { xf with t := 3, d := 5 }).wellFormed = false := by decide
theorem test_refuses_odd_source : (Instr.iadd { xf with t := 3, a := 5 }).wellFormed = false := by decide
theorem test_refuses_odd_b : (Instr.iadd { xf with t := 3, b := 5 }).wellFormed = false := by decide
theorem test_refuses_token : (Instr.brc { xf with c := 16 }).wellFormed = false := by decide
theorem test_refuses_unused_e : (Instr.iadd { xf with t := 2, e := 1 }).wellFormed = false := by decide
theorem test_refuses_group_past_end : (Instr.push { xf with a := 113 }).wellFormed = false := by decide
theorem test_refuses_scale_register : (Instr.sadd { xf with d := 32 }).wellFormed = false := by decide
theorem test_refuses_field_past_width : (Instr.bfx { xf with t := 2, imm := 64 * 32 + 1 }).wellFormed = false := by decide
theorem test_refuses_quotient_over_remainder : (Instr.idiv { xf with t := 2, d := 5, e := 5 }).wellFormed = false := by decide
theorem test_refuses_stream_form : (Instr.sst { xf with m := 2 }).wellFormed = false := by decide
theorem test_refuses_plain_form : (Instr.sstStream { xf with m := 1 }).wellFormed = false := by decide
theorem test_refuses_b32_pair : (Instr.ldB32 { bf with a := 3 }).wellFormed = false := by decide
theorem test_refuses_b32_literal : (Instr.moviB32 { bf with lit := some 1 }).wellFormed = false := by decide
theorem test_refuses_handler_fetch_rd : (Instr.alFetch 0 0 1 0 0).wellFormed = false := by decide
theorem test_refuses_handler_drop_rd : (Instr.alDrop 0 0 1 0 0).wellFormed = false := by decide
theorem test_refuses_handler_arg : (Instr.alArg 0 0 0 0 16).wellFormed = false := by decide
theorem test_refuses_handler_end : (Instr.alEnd 0 0 0 0 3).wellFormed = false := by decide

/-! ### States and operands that meet the hypotheses of the statements -/

/-- A state in which fragment i of wave 0, whose value is w, is the current one: the placing of an instruction, with that wave. -/
def sit (w : Wave) (i : Nat := 0) : State := { State.reset.placeWords [] with waves := [(0, w)], cur := some (0, i) }

/-- The fragment of the placed wave. -/
def placeFrag : Frag := freshFrag 0xFFFFFFFF (BitVec.ofNat 64 placeAt) 0 false

/-- A fragment of lane 0 alone. -/
def frag1 : Frag := { placeFrag with mask := 1 }

/-- A wave of lane 0 alone, with registers. -/
def wave1 (regs : Tab Word) : Wave := { placeWave with frags := [frag1], live := 1, regs := regs }

/-- What the hypotheses on an instruction and its fragment say, as a check. -/
def met (s : State) (k i : Nat) (w : Wave) (fr : Frag) (j : Instr) : Bool :=
  j.wellFormed && decide (s.cur = some (k, i)) && decide (Tab.find k s.waves = some w) && decide (w.frags[i]? = some fr) &&
    (lowestExt (insOf j).op (insOf j).f == none || w.ext) && (fr.rep == none || !repForbidden (insOf j).op) &&
    (!(insOf j).f.p || w.faults == [] || w.handlerFlag) &&
    (decide ((insOf j).op ≠ 0x1E4) || decide ((insOf j).f.imm.toNat ≠ 4) || w.handlerFlag)

theorem met_iff (s : State) (k i : Nat) (w : Wave) (fr : Frag) (j : Instr) (h : met s k i w fr j = true) :
    j.wellFormed = true ∧ Issues s k i w fr ∧ Admits (insOf j) w fr ∧ Undisturbed (insOf j) w := by
  simp only [met, Bool.and_eq_true, decide_eq_true_eq, Bool.or_eq_true, beq_iff_eq, Bool.not_eq_true'] at h
  obtain ⟨⟨⟨⟨⟨⟨⟨h1, h2⟩, h3⟩, h4⟩, h5⟩, h6⟩, h7⟩, h8⟩ := h
  refine ⟨h1, ⟨h2, h3, h4⟩, ⟨h5, h6, or_assoc.1 h8⟩, ?_⟩
  rcases h7 with (h7 | h7) | h7
  · exact .inl h7
  · exact .inr (.inl h7)
  · exact .inr (.inr h7)

/-- Instruction j issues from fragment 0 of a wave and meets the hypotheses. -/
abbrev runs (w : Wave) (fr : Frag) (j : Instr) : Prop := met (sit w) 0 0 w fr j = true

/-- The instruction as it runs in those states. -/
abbrev at0 (w : Wave) (fr : Frag) (j : Instr) : Ctx := ctxOf j 0 0 w fr

/-- The hypotheses on accesses, as a check. -/
def canB (s : State) (c : Ctx) (tm : Team) (as : List Acc) : Bool :=
  decide (s.teamOf c.w = some tm) && decide (c.failing s tm as = none) &&
    (as.all fun a => !s.breaks (s.partOf c.w) tm a) && ((teamAddrs as).all fun t => !tm.away (t / 4096)) &&
    as.all fun a => match placeOf s (s.partOf c.w) tm a.ea with
      | some (.home pa) => decide (pa % 128 + a.n ≤ 128) &&
          (s.teams.all fun e => e.2.pages.all fun q => decide (q.2.dirtyOf (lineOf pa) = none)) &&
          s.clusters.all fun e => decide (e.1 = clusterOf (coreOf c.k)) ||
            decide (Tab.find (lineOf pa) e.2.dirty = none ∧ Tab.find (lineOf pa) e.2.wrote = none)
      | some (.window _) => true
      | _ => false

theorem can_of (s : State) (c : Ctx) (tm : Team) (as : List Acc) (h : canB s c tm as = true) : CanAccess s c tm as := by
  simp only [canB, Bool.and_eq_true, decide_eq_true_eq, List.all_eq_true, Bool.not_eq_true'] at h
  obtain ⟨⟨⟨⟨h1, h2⟩, h3⟩, h5⟩, h4⟩ := h
  refine ⟨h1, h2, h3, .inl h5, fun a ha => ?_⟩
  have := h4 a ha
  split at this
  · next pa hp =>
    simp only [Bool.and_eq_true, decide_eq_true_eq, List.all_eq_true, Bool.or_eq_true] at this
    obtain ⟨⟨g1, g2⟩, g3⟩ := this
    refine ⟨_, hp, g1, g2, fun e he hn => ?_⟩
    exact (g3 e he).resolve_left hn
  · next t hp => exact ⟨_, hp, trivial⟩
  · cases this

/-- Operand B: a literal, a twin, single registers and pairs, the two kinds of B32 rows. -/
theorem test_meets_operand_b :
    { xf with lit := some 1 }.lit = some 1 ∧ xf.lit = none ∧ isTwin 0x058 = true ∧ isTwin 0x018 = false ∧
    typeWords (at0 placeWave placeFrag (.iadd { xf with t := 2 })) = 1 ∧
    typeWords (at0 placeWave placeFrag (.iadd { xf with t := 7 })) = 2 ∧
    bRow 0x01 = some ⟨0x001, false, 2⟩ ∧ bRow 0x02 = some ⟨0x041, true, 2⟩ ∧ bf.lit = none ∧
    { bf with lit := some 1 }.lit = some 1 := by decide

theorem test_meets_integer :
    ∀ j ∈ [Instr.iadd { xf with t := 2, d := 127, lit := some 0xFFFFFFFF }, .iaddImm { xf with t := 7, d := 126, imm := 0x3FFFF },
      .iaddB32 { bf with u := true }, .iaddB32Imm { bf with b := 127 }, .imulh { xf with t := 6 }, .icsadd { xf with t := 3 },
      .isat { xf with t := 0, m := 1 }, .idiv { xf with t := 7, e := 2 }, .iaddc { xf with t := 2 }, .isubbB32 bf],
      runs { placeWave with ext := true } placeFrag j := by decide

theorem test_meets_bits_and_moves :
    ∀ j ∈ [Instr.and { xf with t := 6 }, .rot { xf with t := 7, b := 127 }, .sarB32Imm { bf with b := 127 }, .not { xf with t := 6 },
      .bfx { xf with t := 7, imm := 64 * 64 }, .bfi { xf with t := 2, imm := 63 * 0 }, .popc { xf with t := 7, d := 127 },
      .icmp { xf with t := 2, m := 5 }, .sel { xf with t := 3 }, .lea { xf with t := 7, m := 7 }, .movi { xf with t := 2 },
      .moviB32 { bf with b := 64 }], runs { placeWave with ext := true } placeFrag j := by decide

theorem test_meets_lanes :
    ∀ j ∈ [Instr.shfl { xf with t := 6, m := 3, imm := 31 }, .vote { xf with m := 3 }, .redx { xf with t := 2, m := 4 - 1 },
      .redx { xf with t := 0, m := 6 }, .scanx { xf with t := 0, m := 4 }, .matchLanes { xf with t := 7 }],
      runs placeWave placeFrag j := by decide

theorem test_meets_modes :
    (∀ j ∈ [Instr.get { xf with imm := 25 }, .get { xf with imm := 22, d := 2, u := true }, .setmode { xf with imm := 0x34 },
      .setmode { xf with m := 1 }, .getmode xf, .xlock xf, .xfree xf], runs placeWave placeFrag j) ∧
    ((sit placeWave).teamOf placeWave).isSome = true ∧ ((sit placeWave).launchOf placeWave).isSome = true ∧ coreOf 0 < 256 ∧
    (sit placeWave).layout.getD (coreOf 0 / 4) 255 = (sit placeWave).partOf placeWave := by decide

/-- XLOCK with no partner, by a holder, and with a partner of another launch that holds the row and is spilt. -/
theorem test_meets_xlock :
    (∀ e ∈ (sit placeWave).waves, e.1 % 12288 ≠ (0 % 12288) ^^^ 1 ∨ e.2.ext = false) ∧
    runs { placeWave with ext := true } placeFrag (.xlock xf) ∧
    (let g := { placeWave with ext := true, spilt := true, team := 1 }
     let s := { sit placeWave with waves := [(0, placeWave), (1, g)], teams := [(0, placeTeam), (1, { placeTeam with launch := 1 })] }
     met s 0 0 placeWave placeFrag (.xlock xf) = true ∧ g.ext = true ∧ g.spilt = true ∧
     (s.teamOf g).map Team.launch ≠ (s.teamOf placeWave).map Team.launch) := by decide

/-- BRC outside a region, and in one with 31 fragments. -/
theorem test_meets_branches :
    (∀ j ∈ [Instr.bra { xf with imm := 0x20000 }, .braB32 { bf with b := 64 }, .nop xf, .nopB32 bf, .brc { xf with c := 15 }],
      runs placeWave placeFrag j) ∧
    (let w := { placeWave with landing := { Landing.zero with inReg := true }, frags := placeFrag :: List.replicate 30 placeFrag }
     runs w placeFrag (.brc { xf with m := 1 }) ∧ w.landing.inReg = true ∧ w.frags.length = 31) := by decide

/-- A JOIN 15 that the other fragment has reached, and one that it has not. -/
theorem test_meets_join :
    (let g : Frag := { frag1 with tokens := 0x8000, wait := .join 15 (BitVec.ofNat 64 placeAt + 12) }
     let w := { placeWave with frags := [{ placeFrag with mask := 0xFFFFFFFE, tokens := 0x8000 }, g] }
     runs w { placeFrag with mask := 0xFFFFFFFE, tokens := 0x8000 } (.join { xf with imm := 15 }) ∧ w.active g = true ∧
     w.active { placeFrag with mask := 0xFFFFFFFE, tokens := 0x8000 } = true ∧ g.tokens.getLsbD 15 = true ∧
     w.frags.length = 2 ∧ g.pc = placeFrag.pc) ∧
    (let w := { placeWave with frags := [{ placeFrag with mask := 0xFFFFFFFE }, { frag1 with tokens := 1 }] }
     runs w { placeFrag with mask := 0xFFFFFFFE } (.joinB32 bf) ∧ w.active { frag1 with tokens := 1 } = true ∧
     frag1.mask &&& 0xFFFFFFFE = 0 ∧ frag1.wait = .none) := by decide

/-- EXIT of some of the wave's lanes, and of the last. -/
theorem test_meets_exit :
    (let w := { placeWave with frags := [frag1, { placeFrag with mask := 0xFFFFFFFE }] }
     runs w frag1 (.exit xf) ∧ w.landing.inReg = false ∧ w.arrivals = [] ∧ w.live &&& ~~~frag1.mask ≠ 0) ∧
    runs placeWave placeFrag (.exitB32 bf) ∧ placeWave.live &&& ~~~placeFrag.mask = 0 ∧ placeWave.faults = [] ∧
    ((sit placeWave).core (coreOf 0)).pending = [] := by decide

theorem test_meets_jumps :
    (∀ j ∈ [Instr.call xf, .callB32 { bf with b := 64 }, .jmpx { xf with a := 62 }, .jmpxB32 bf, .ret xf, .retB32 bf],
      runs placeWave placeFrag j) ∧
    (∀ l ∈ lanesOf placeFrag.mask, (placeWave.reg 47 l ++ placeWave.reg 46 l).toNat % 4 = 0) ∧
    (let w := { placeWave with landing := { Landing.zero with inReg := true }, frags := List.replicate 32 placeFrag }
     runs w placeFrag (.ret xf) ∧
     w.frags.length + ((lanesOf placeFrag.mask).map fun l => w.reg 47 l ++ w.reg 46 l).eraseDups.length ≤ 33) := by decide

/-- REP with iterations; NOP before the last, at the last and at the end of a REP body. -/
theorem test_meets_rep :
    runs placeWave placeFrag (.rep { xf with imm := 32 + 15 }) ∧ BitVec.ofNat 32 ((32 + 15) / 32) ≠ (0 : Word) ∧
    (∀ r ∈ [(⟨0, 2, 3, 3, 0⟩ : Rep), ⟨0, 1, 3, 2, 0⟩, ⟨0, 1, 3, 1, 0⟩],
      runs { placeWave with frags := [{ placeFrag with rep := some r }] } { placeFrag with rep := some r } (.nop xf)) := by
  decide

/-- REP of no iteration over two B32 words. -/
theorem test_meets_rep_none :
    let s := { sit placeWave with mem := memWrites [] 12 (bytesOfWords [0x0000_0750, 0x0000_0750]) }
    let c := at0 placeWave placeFrag (.rep { xf with imm := 1 })
    let s1 := s.prepWord (c.who s) c.fr.held (c.fr.pc + 12)
    let s2 := s1.prepWord (c.who s) c.fr.held (c.fr.pc + 16)
    met s 0 0 placeWave placeFrag (.rep { xf with imm := 1 }) = true ∧ instrWords 0x0000_0750 = 1 ∧
    s1.fetchBreaks (c.who s) c.fr.held (c.fr.pc + 12) = false ∧ s2.fetchBreaks (c.who s) c.fr.held (c.fr.pc + 16) = false ∧
    s1.fetchWord (c.who s) c.fr.held (c.fr.pc + 12) = .word 0x0000_0750 ∧
    s2.fetchWord (c.who s) c.fr.held (c.fr.pc + 16) = .word 0x0000_0750 := by decide

theorem test_meets_floats :
    ∀ j ∈ [Instr.fadd { xf with t := 2, m := 5 }, .faddB32 bf, .ffma { xf with lit := some 0x3F800000 }, .fsqrt { xf with m := 1 },
      .padd2 { xf with t := 1 }, .pfma2 { xf with t := 2 }, .fmin { xf with t := 1 }, .fcmp { xf with m := 6 }, .fclass { xf with t := 5 },
      .fcvt { xf with t := 0, c := 5 }, .cvtif { xf with t := 7 }, .cvtfi { xf with c := 7 }, .idot4 { xf with t := 0, m := 1 },
      .frcp xf, .fsin xf, .flog2B32 bf], runs placeWave placeFrag j := by decide

/-- 1.0 lies below the largest finite value of each float format, and is the code that decodes to it. -/
theorem test_meets_rounding :
    (∀ T : Fin 6, 0 < (fmtOf T).maxCode) ∧ f32.dec 0x3F800000 = .fin false 8388608 (-23) ∧
    (fmtOf 1).dec 0x3C00 = .fin false 1024 (-10) ∧ (fmtOf 2).dec 0x3F80 = .fin false 128 (-7) := by decide

theorem test_meets_rounding_range : ((8388608 : ℝ) * 2 ^ (-23 : Int))⁻¹ < 2 ^ (128 : Nat) ∧
    (1 : ℝ) * 2 ^ (0 : Int) < f32.mag f32.maxCode := by
  constructor
  · norm_num
  · have h : f32.dec f32.maxCode = .fin false 16777215 104 := by decide
    simp only [Fmt.mag, h, FVal.rat]
    norm_num

/-- Blocks of one value, of an infinity, of zeros. -/
theorem test_meets_quant :
    (∃ s, FVal.inf s ∈ [FVal.inf true]) ∧ (FVal.fin false 0 0).rat = 0 ∧ (FVal.fin false 1 0).rat ≠ 0 ∧
    quantBlock 8 [FVal.fin false 1 0] = (128, [64]) := by
  refine ⟨⟨true, by decide⟩, by simp [FVal.rat], by simp [FVal.rat], by decide⟩

theorem test_meets_narrow :
    ∀ j ∈ [Instr.unpk3 { xf with m := 3, d := 59 }, .unpkn { xf with t := 6, a := 56 }, .packn { xf with t := 6, d := 56 },
      .ssi { xf with t := 6 }, .kins { xf with t := 2, d := 10, c := 20, imm := 15 }, .bfpq { xf with t := 2, c := 31 }],
      runs placeWave placeFrag j := by decide

/-- ACT with no image of the wave's in flight, and with one. -/
theorem test_meets_act :
    runs placeWave placeFrag (.act { xf with imm := 1 }) ∧ ((sit placeWave).core (coreOf 0)).pending = [] ∧
    (let img : Bank := { Bank.empty with owner := some placeLaunch.id }
     let s := (sit placeWave).setCore 0 fun x => { x with pending := [⟨1, some 0, img⟩] }
     met s 0 0 placeWave placeFrag (.act { xf with imm := 1 }) = true ∧ s.launchOf placeWave = some placeLaunch ∧
     (s.core (coreOf 0)).pending = [⟨1, some 0, img⟩] ∧ ∀ e ∈ s.teams, e.2.parked = false) := by decide

/-- Registers v2, v3 of lane 0 with the first address of the window, and of the page of the tables. -/
def atWindow : Tab Word := [(96, 0xFF000000)]
def atGlobal : Tab Word := [(96, 0x40)]

/-- LD of a byte in the window, of eight bytes in global memory; LDU; SLD; LDBF of the widest block. -/
theorem test_meets_loads :
    (∀ w ∈ [wave1 atWindow, wave1 atGlobal],
      (∀ j ∈ [Instr.ld { xf with t := 4, d := 5, a := 2 }, .ldu { xf with t := 4, a := 2 }, .ldB32 { bf with a := 2 },
        .lduB32 { bf with a := 2 }, .sld { xf with a := 2, m := 1 }, .ldbf { xf with a := 2, d := 8, t := 6 }], runs w frag1 j) ∧
      canB (sit w) (at0 w frag1 (.ld { xf with t := 4, d := 5, a := 2 })) placeTeam
        [⟨0, (at0 w frag1 (.ld { xf with t := 4, d := 5, a := 2 })).ea 0, 1, 1, true, false⟩] = true) ∧
    (∀ t ∈ [(3 : BitVec 3), 7], let j := Instr.ld { xf with t := t, d := 6, a := 2, u := true, imm := 120 }
      runs (wave1 atGlobal) frag1 j ∧
      canB (sit (wave1 atGlobal)) (at0 (wave1 atGlobal) frag1 j) placeTeam
        [⟨0, (at0 (wave1 atGlobal) frag1 j).ea 0, 8, 8, true, false⟩] = true) := by decide

/-- ST in the window and in global memory, up to the last eight bytes of a page of the window. -/
theorem test_meets_stores :
    (∀ w ∈ [wave1 atWindow, wave1 atGlobal],
      let j := Instr.st { xf with t := 7, d := 6, a := 2, imm := 4088 }
      let as := [(⟨0, (at0 w frag1 j).ea 0, 8, 8, false, true⟩ : Acc)]
      runs w frag1 j ∧ canB (sit w) (at0 w frag1 j) placeTeam as = true ∧
      placeOf (sit w) 0 placeTeam ((at0 w frag1 j).ea 0) ≠ some (.stash 4088)) ∧
    runs (wave1 atWindow) frag1 (.sst { xf with a := 2, m := 1 }) ∧ runs (wave1 atWindow) frag1 (.stB32 { bf with a := 2 }) := by
  decide

theorem test_meets_scales :
    (∀ j ∈ [Instr.sadd { xf with d := 31, a := 1, b := 2 }, .ssub xf, .smax xf, .smin xf, .scvt xf, .scvt { xf with m := 1 },
      .smov { xf with m := 2 }, .smov { xf with m := 1 }, .sbind { xf with a := 120, imm := 7 }, .sbind { xf with m := 4 }, .sqry xf,
      .sacc { xf with t := 2, m := 7, b := 1, c := 2 }], runs { placeWave with ext := true } placeFrag j) ∧
    (∀ j, j < 32 → ∀ l, l < 32 → placeWave.scale j l ≠ 0xFF) ∧ bindStale (placeWave.bind 1) = false := by decide

/-- SBIND of a tile that ends where the window ends. -/
theorem test_meets_sbind_tile :
    runs placeWave placeFrag (.sbind { xf with m := 1, imm := 4096 }) ∧ (sit placeWave).teamOf placeWave = some placeTeam ∧
    (placeWave.reg 0 0).toNat + 4096 ≤ placeTeam.window := by decide

/-- SST .w of a scale bound to its stream, the team holding the engine. -/
theorem test_meets_stream :
    let w := { placeWave with binds := [(3, mkBind 4 0xFFFFFF)] }
    let s := (sit w).setCore 0 fun x => { x with mx := Mx.fresh (some 0) }
    met s 0 0 w placeFrag (.sstStream { xf with m := 3, d := 3 }) = true ∧ bindStale (w.bind 3) = false ∧
    bindKind (w.bind 3) = 4 ∧ (s.core (coreOf 0)).mx.holder = some w.team ∧ (s.core (coreOf 0)).mx.wScale.length + 32 ≤ 4096 := by
  decide

/-! ### Pages, prefetch, tables and atomics -/

/-- A team whose first page is bound to the first page of global memory, with one line filled and dirty. -/
def stashTeam : Team :=
  { placeTeam with pages := [(0, ⟨some (placeAt, 0), [(0, ⟨true, some (List.replicate 128 7), false, false, false⟩),
      (31, ⟨false, none, true, false, false⟩)], true⟩)] }

/-- v2, v3 name the window's first page and v4, v5 the first global page, in lane 0. -/
def toBind : Tab Word := [(96, 0xFF000000), (160, 0x40)]

theorem test_meets_pages :
    (∀ j ∈ [Instr.spmap { xf with a := 2, b := 4 }, .stash { xf with a := 2, b := 4, u := true }, .unstash { xf with a := 2 }],
      runs (wave1 toBind) frag1 j) ∧
    (let c := at0 (wave1 toBind) frag1 (.spmap { xf with a := 2, b := 4 })
     classify (c.ea 0) = .scratch 0 ∧ 0 < placeTeam.window ∧
     classify (c.w.reg (c.f.b.toNat + 1) 0 ++ c.w.reg c.f.b.toNat 0) = .global placeAt ∧ placeAt % 4096 = 0 ∧
     (((sit c.w).translate ((sit c.w).partOf c.w) placeAt).map fun x => (x.1.r, x.2)) = some (true, 0)) := by decide

/-- A page bound over a bound one with a dirty line, and made plain. -/
theorem test_meets_bound_page :
    (Tab.getD Page.plain 0 stashTeam.pages).bound = some (placeAt, 0) ∧ (Tab.getD Page.plain 1 stashTeam.pages).bound = none ∧
    Tab.sorted (Tab.getD Page.plain 0 stashTeam.pages).lines = true ∧
    ((Tab.getD Page.plain 0 stashTeam.pages).lines.map fun e => (e.1, e.2.dirty.map List.length)) = [(0, some 128), (31, none)] ∧
    ((stashTeam.page (128 * 31)).line (128 * 31)).requested = true ∧
    ((stashTeam.page (128 * 31)).line (128 * 31)).filled = false := ⟨rfl, rfl, rfl, rfl, rfl, rfl⟩

theorem test_meets_dirty_page :
    (stashTeam.page 0).bound = some (placeAt, 0) ∧ ((stashTeam.page 0).line 0).filled = true ∧
    ((stashTeam.page 0).line 0).dirty = some (List.replicate 128 7) := ⟨rfl, rfl, rfl⟩

/-- PREF, FLUSH and INVAL of a line in global memory, and of the last byte of the window. -/
theorem test_meets_prefetch :
    ∀ w ∈ [wave1 atGlobal, wave1 atWindow],
      (∀ j ∈ [Instr.pref { xf with a := 2, imm := 4095 }, .prefB32 { bf with a := 2 }, .flush { xf with a := 2, imm := 4095 },
        .inval { xf with a := 2, imm := 4095 }], runs w frag1 j) ∧ (sit w).teamOf w = some placeTeam ∧
      (let c := at0 w frag1 (.flush { xf with a := 2, imm := 4095 })
       c.failing (sit w) placeTeam [⟨0, c.ea 0, 1, 1, true, false⟩] = none ∧
       ∀ pa ∈ (sit w).physOf ((sit w).partOf w) placeTeam (c.ea 0), (sit w).ownsStop ((sit w).partOf w) pa = true) := by decide

/-- A dirty line of a cluster in a table of rising lines and bytes. -/
def dirtyCluster : Cluster := { Cluster.fresh with dirty := [(0, ⟨[(0, 1), (127, 2)], 1, 0, false⟩)] }

theorem test_meets_dirty_lines :
    Tab.sorted dirtyCluster.dirty = true ∧ (∀ x ∈ dirtyCluster.dirty, Tab.sorted x.2.bytes = true ∧ ∀ y ∈ x.2.bytes, y.1 < 128) ∧
    (let s := { sit placeWave with clusters := [(0, dirtyCluster)] }
     Tab.find (lineOf 0) (s.cluster 0).dirty = some ⟨[(0, 1), (127, 2)], 1, 0, false⟩ ∧ Tab.sorted s.clusters = true ∧
     Tab.find (lineOf 0) (s.cluster 1).dirty = none ∧ (∀ e ∈ s.teams, e.2.pages = []) ∧
     (s.translate 0 placeAt).isSome = true ∧ classify (BitVec.ofNat 64 placeAt) = .global placeAt) := by decide

/-- ACTLD of an image at the start of global memory, and a commit. -/
theorem test_meets_table_load :
    let w := wave1 atGlobal
    let j := Instr.actld { xf with a := 2, imm := 1 }
    runs w frag1 j ∧ (sit w).launchOf w = some placeLaunch ∧ (at0 w frag1 j).lanes = [0] := by decide

theorem test_meets_table_load_access :
    canB (sit (wave1 atGlobal)) (at0 (wave1 atGlobal) frag1 (.actld { xf with a := 2, imm := 1 })) placeTeam
      (⟨0, BitVec.ofNat 64 placeAt, 16, 4, true, false⟩ ::
        (List.range 515).map fun n => ⟨0, BitVec.ofNat 64 (placeAt + 4 * (n + 1)), 4, 4, true, false⟩) = true := by
  decide +kernel

theorem test_meets_table_commit :
    let s := (sit placeWave).setCore 0 fun x => { x with pending := [⟨1, none, Bank.empty⟩] }
    (s.core 0).pending = [⟨1, none, Bank.empty⟩] ∧ s.bankLoser 0 1 Bank.empty.owner = none := by decide

theorem test_meets_atomics :
    ∀ w ∈ [wave1 atWindow, wave1 atGlobal], ∀ j ∈ [Instr.atom { xf with t := 7, d := 6, a := 2, b := 4, m := 6, imm := 4088 },
        .acas { xf with t := 3, a := 2, b := 4, c := 4, d := 6, imm := 4088 }, .aincb { xf with t := 7, a := 2, b := 4, d := 6, imm := 4088 }],
      let c := at0 w frag1 j
      runs w frag1 j ∧ runs w frag1 (.afadd { xf with a := 2 }) ∧
      canB (sit w) c placeTeam [⟨0, c.ea 0, 8, 8, true, true⟩] = true ∧
      placeOf (sit w) 0 placeTeam (c.ea 0) ≠ some (.stash 4088) ∧ (sit w).clusters = [] := by decide

/-! ### Fences, barriers and queues -/

theorem test_meets_fence : runs placeWave placeFrag (.fence { xf with m := 3, c := 5 }) ∧ 3 ≤ 3 ∧ 2 < 3 := by decide

/-- The window's last barrier object, expecting one arrival, in its first phase. -/
def barTeam : Team := { placeTeam with scratch := [(4084, 1), (4086, 1)] }
def barState (w : Wave) : State := { sit w with teams := [(0, barTeam)] }
/-- v6 of lane 0 names it. -/
def atBar : Tab Word := [(192, 4080)]

theorem test_meets_barriers :
    (∀ j ∈ [Instr.bari { xf with a := 6, b := 4 }, .barx { xf with a := 6, b := 4, u := true }, .bara { xf with a := 6 },
      .barw { xf with a := 6, b := 4, d := 5 }], met (barState (wave1 atBar)) 0 0 (wave1 atBar) frag1 j = true) ∧
    (barState (wave1 atBar)).teamOf (wave1 atBar) = some barTeam ∧ 4080 % 16 = 0 ∧ 4080 + 16 ≤ barTeam.window ∧
    (barTeam.page 4080).bound = none ∧ barTeam.bar 4080 = ⟨0, 1, 1, 0⟩ ∧ (wave1 atBar).live &&& ~~~frag1.mask = 0 ∧
    (wave1 atBar).arrivals = [] ∧ barTeam.holds = [] := by decide

/-- A BARA of some of the wave's lanes, and one on an object that awaits nothing. -/
theorem test_meets_bara_partial :
    (let w := { wave1 atBar with live := 3, frags := [frag1, { frag1 with mask := 2 }] }
     met (barState w) 0 0 w frag1 (.bara { xf with a := 6 }) = true ∧ w.live &&& ~~~frag1.mask ≠ 0) ∧
    (Team.bar placeTeam 4080).pending = 0 ∧ runs (wave1 atBar) frag1 (.bara { xf with a := 6 }) := by decide

/-- Updates within range, and BARI's release of held arrivals. -/
theorem test_meets_updates :
    (let b : Bar := ⟨2 ^ 32 - 1, 65535, 65535, -2 ^ 63⟩
     b.phase < 2 ^ 32 ∧ b.pending < 65536 ∧ b.expect < 65536 ∧ -2 ^ 63 ≤ b.pbytes ∧ b.pbytes < 2 ^ 63) ∧
    (let h : List (Nat × Holder) := [(4080, .wave 0), (0, .matrix)]
     (h.filter fun x => x.1 == 4080).length < 2 ∧ 65535 < 65536) ∧
    Tab.find 0 (barState placeWave).teams = some barTeam := by decide

/-- BARW behind the phase (v4 holds -1), at the phase, and with no enabled lane. -/
theorem test_meets_barw :
    (0 : Int) < (BitVec.ofNat 32 (barTeam.bar 4080).phase - 0xFFFFFFFF).toInt ∧
    ¬ (0 : Int) < (BitVec.ofNat 32 (barTeam.bar 4080).phase - 0).toInt ∧
    (at0 (wave1 atBar) frag1 (.barw { xf with a := 6, g := { Guard.none with ge0 := true } })).lanes = [] ∧
    runs (wave1 atBar) frag1 (.barw { xf with a := 6, g := { Guard.none with ge0 := true } }) := by decide

/-- WAITA met (.eq of zeros) and not met (.ne), and a waiting WAITA. -/
theorem test_meets_waita :
    (∀ m ∈ [(0 : BitVec 3), 1], ∀ w ∈ [wave1 atWindow, wave1 atGlobal],
      let j := Instr.waita { xf with t := 7, d := 6, a := 2, b := 8, m := m }
      runs w frag1 j ∧ frag1.got = [] ∧ canB (sit w) (at0 w frag1 j) placeTeam [⟨0, (at0 w frag1 j).ea 0, 8, 8, true, false⟩] = true) ∧
    (let f : XF := { xf with t := 6, d := 6, a := 2, b := 8, m := 1, imm := 2048 }
     let fr := { frag1 with wait := .retry }
     let w := { wave1 atGlobal with frags := [fr] }
     let ws := encode (.waita f)
     let s := { sit w with mem := memWrites [] 0 (bytesOfWords ws) }
     w.frags[0]? = some fr ∧ fr.wait = .retry ∧ (s.fetchWords (s.whoOf 0 w) fr.held fr.pc 3).toOption = some ws ∧
     decode ws = .ok (.waita f) ∧ canB s (at0 w fr (.waita f)) placeTeam [⟨0, (at0 w fr (.waita f)).ea 0, 4, 4, true, false⟩] = true) := by
  decide

/-- A launch in exact mode, with quotas, in a partition with the placed team. -/
def exactly (qs : List Nat) (w : Wave) : State :=
  { sit w with launches := [(0, { placeLaunch with desc := { Desc.zero with quotas := some qs } })] }

/-- One copy command of the wave's, in batch 1. -/
def oneCopy : CopyCmd := ⟨0, 0, 0, 1, 0, 0, false, none, [], none⟩

/-- PUSH with the quota just large enough, with it used up, below the lanes, and in shared mode. -/
theorem test_meets_push_exact :
    met (exactly [1, 1, 1, 1] (wave1 [])) 0 0 (wave1 []) frag1 (.push { xf with a := 16, d := 5 }) = true ∧
    met (exactly [1, 1, 1, 1] (wave1 [])) 0 0 (wave1 []) frag1 (.push { xf with imm := 3, a := 16, d := 5 }) = true ∧
    (exactly [1, 1, 1, 1] (wave1 [])).quotas 0 = some [1, 1, 1, 1] ∧ [1, 1, 1, 1].getD 3 0 = 1 := by decide

theorem test_meets_push_full :
    let s := (exactly [1, 1, 1, 1] (wave1 [])).setCore 0 fun x => { x with copy0 := [oneCopy] }
    ((s.entriesOf 0 0).filter fun e => e == (0, 0)).length = 1 := by decide

theorem test_meets_push_small :
    met (exactly [31, 0, 0, 0] placeWave) 0 0 placeWave placeFrag (.push { xf with a := 16 }) = true := by decide

theorem test_meets_push_lanes : (at0 placeWave placeFrag (.push { xf with a := 16 })).lanes.length = 32 := by decide

theorem test_meets_push_shared :
    (sit placeWave).quotas 0 = none ∧ runs placeWave placeFrag (.push { xf with a := 16, u := true }) := by decide

/-- SEAL; WAITB of no batch and of a batch in flight; QSTAT. -/
theorem test_meets_batches :
    (∀ j ∈ [Instr.seal { xf with d := 5 }, .waitb { xf with a := 6 }, .qstat { xf with imm := 4 }], runs placeWave placeFrag j) ∧
    (at0 placeWave placeFrag (.seal xf)).lanes ≠ [] ∧
    (at0 placeWave placeFrag (.seal { xf with g := { Guard.none with ge0 := true } })).lanes = [] ∧
    (let w := { wave1 [(192, 1)] with sealed := 1 }
     let s := (sit w).setCore 0 fun x => { x with copy0 := [oneCopy] }
     met s 0 0 w frag1 (.waitb { xf with a := 6 }) = true ∧ oneCopy.wave = 0 ∧ (0 : Int) ≤ ((1 : Word) - oneCopy.batch).toInt) := by
  decide

/-! ### Regions -/

/-- A wave in producer mode whose group is 8 lanes, all in its one fragment, with n entries held. -/
def region (n : Nat) : Wave :=
  let x : Landing :=
    { Landing.zero with regMask := 0xFF, prodMask := 0xFF, inReg := true, entries := List.replicate n (1, 2, 3, 4) }
  { placeWave with live := 0xFF, frags := [{ placeFrag with mask := 0xFF }], landing := x }
def fragR : Frag := { placeFrag with mask := 0xFF }

theorem test_meets_gen :
    runs placeWave placeFrag (.gen { xf with m := 2, c := 1 }) ∧ placeWave.frags.length = 1 ∧ placeWave.landing = Landing.zero ∧
    8 * 2 ^ 2 ≤ (lanesOf placeWave.live).length ∧
    (sit placeWave).landingUse (quadOf (slotOf 0)) + (sit placeWave).landingKept (quadOf (slotOf 0)) placeWave +
      (sit placeWave).gensBefore (slotOf 0) < 4 := by decide

/-- YLD of one lane below and at the batch size, and beyond the slot; a GFLIP and a GEND with and without entries. -/
theorem test_meets_yld :
    (∀ n ∈ [6, 7], let w := { region n with frags := [frag1] }
      runs w frag1 (.yld { xf with a := 8, imm := 1 }) ∧ (at0 w frag1 (.yld { xf with a := 8, imm := 1 })).lanes.length = 1 ∧
      w.landing.entries.length = n) := by decide

theorem test_meets_yld_overflow :
    let w := { region 128 with frags := [frag1] }
    Issues (sit w) 0 0 w frag1 ∧ w.landing.entries.length = 128 :=
  ⟨⟨rfl, rfl, rfl⟩, List.length_replicate⟩

theorem test_meets_gflip_gend :
    ∀ w ∈ [region 0, region 3], runs w fragR (.gflip xf) ∧ runs w fragR (.gend xf) ∧
      (fragR.mask &&& ~~~(maskOf (at0 w fragR (.gend xf)).lanes) : Word) = 0 ∧ w.regs = [] := by decide

/-- GEND that leaves lanes of its fragment, and lanes of another fragment. -/
theorem test_meets_gend_left :
    (let f : XF := { xf with g := { Guard.none with ge0 := true, gn0 := true, g0 := 5 } }
     let w := { region 0 with regs := [(160, 1)] }
     runs w fragR (.gend f) ∧ (fragR.mask &&& ~~~(maskOf (at0 w fragR (.gend f)).lanes) : Word) = 1) ∧
    (let w := { region 0 with frags := [frag1, { fragR with mask := 0xFE }] }
     runs w frag1 (.gend xf) ∧ (frag1.mask &&& ~~~(maskOf (at0 w frag1 (.gend xf)).lanes) : Word) = 0 ∧
     (w.landing.prodMask &&& ~~~(maskOf (at0 w frag1 (.gend xf)).lanes) : Word) ≠ 0) := by decide

/-- A wave in consumer mode: GNEXT before the others, and the last with producers left, with entries left, with neither. -/
def consWave (prod : Word) (n : Nat) : Wave :=
  let x := { (region n).landing with mode := true, batch := 8, prodMask := prod }
  { region n with frags := [{ fragR with cons := true }], landing := x }
def fragC : Frag := { fragR with cons := true }

theorem test_meets_gnext :
    (∀ w ∈ [consWave 0xFF 8, consWave 0 9, consWave 0 8], runs w fragC (.gnext xf)) ∧
    (consWave 0 9).landing.entries.drop 8 ≠ [] ∧ (consWave 0 8).landing.entries.drop 8 = [] ∧
    (let w := { consWave 0xFF 8 with frags := [{ frag1 with cons := true }, { fragC with mask := 0xFE }] }
     runs w { frag1 with cons := true } (.gnext xf) ∧ fragC.wait ≠ .gnext) := by decide

/-! ### Traps, system registers and waves -/

/-- The placing with another launch. -/
def launched (la : Launch) (w : Wave) : State := { sit w with launches := [(0, la)] }

/-- TAKE of the last lane of a batch of 8; GSTAT; each Landing instruction in a handler, outside a region and in the other
mode. -/
theorem test_meets_take :
    runs (consWave 0xFF 8) fragC (.take { xf with d := 48, imm := 4 }) ∧
    (∀ l ∈ (at0 (consWave 0xFF 8) fragC (.take { xf with d := 48, imm := 4 })).lanes,
      (consWave 0xFF 8).landing.regMask.getLsbD l = true ∧
      ((List.range l).filter fun n => (consWave 0xFF 8).landing.regMask.getLsbD n).length < (consWave 0xFF 8).landing.batch) ∧
    runs placeWave placeFrag (.gstat xf) := by decide

theorem test_meets_landing_traps :
    (∀ j ∈ [Instr.yld { xf with a := 8, imm := 1 }, .gend xf, .gflip xf, .take { xf with imm := 1 }, .gnext xf, .gen { xf with c := 1 }],
      runs placeWave placeFrag j) ∧ placeWave.landing.inReg = false ∧
    (consWave 0 8).landing.mode ≠ false ∧ (region 0).landing.mode ≠ true ∧
    (lanesOf (region 0).live).length < 8 * 2 ^ 1 ∧ runs (region 0) fragR (.gen { xf with c := 1, m := 1 }) ∧
    { placeWave with handlerFlag := true }.handlerFlag = true := by decide

/-- A trap of the greatest code, SUB and lane; a launch with a vector, and one whose context Leyth holds with a code caught. -/
def vecLaunch : Launch := { placeLaunch with desc := { Desc.zero with trapVec := 0x4000000100 } }
def heldLaunch : Launch := { vecLaunch with dbg := { Debug.fresh with taken := true, catches := [0x13] } }
def bigTrap : TrapInfo := { code := 255, sub := 255, queue := 7, kreg := 31, lane := 31 }

theorem test_meets_traps :
    (bigTrap.code < 256 ∧ bigTrap.lane < 32 ∧ bigTrap.kreg < 32 ∧ bigTrap.queue < 8 ∧ bigTrap.sub < 256) ∧
    (∀ la ∈ [placeLaunch, vecLaunch, heldLaunch], let s := launched la placeWave
      Tab.find 0 s.waves = some placeWave ∧ placeWave.frags[0]? = some placeFrag ∧ Tab.find placeWave.team s.teams = some placeTeam ∧
      Tab.find placeTeam.launch s.launches = some la) ∧
    vecLaunch.desc.trapVec ≠ 0 ∧ placeLaunch.desc.trapVec = 0 ∧ 0x13 ∈ heldLaunch.dbg.catches ∧
    placeWave.handlerFlag = false := by decide

/-- A halted team, with no trap behind the halt and with one. -/
theorem test_meets_continue :
    (let tm := { placeTeam with halt := some ⟨0x12, 0, 0, 0, none⟩ }
     tm.halt = some ⟨0x12, 0, 0, 0, none⟩ ∧
     ∀ e ∈ ({ sit placeWave with teams := [(0, tm)] } : State).waves, ∀ g ∈ e.2.frags, g.got = []) ∧
    (let h : Halt := ⟨0x13, 0, 0, 0, some { code := 0x13 }⟩
     let s := { launched vecLaunch placeWave with teams := [(0, { placeTeam with halt := some h })] }
     h.pending = some { code := 0x13 } ∧ Tab.find h.wave s.waves = some placeWave ∧ placeWave.team = 0 ∧
     placeWave.frags[h.frag]? = some placeFrag ∧ Tab.find 0 s.launches = some vecLaunch) := by decide

/-- TRAP and BKPT with a vector, without, held by Leyth, and with no enabled lane. -/
theorem test_meets_trap_instructions :
    (∀ la ∈ [placeLaunch, vecLaunch, heldLaunch], ∀ j ∈ [Instr.trap { xf with imm := 4095 }, .trapB32 { bf with b := 63 },
      .bkpt { xf with imm := 4095 }, .bkptB32 bf], met (launched la placeWave) 0 0 placeWave placeFrag j = true) ∧
    (at0 placeWave placeFrag (.trap { xf with g := { Guard.none with ge0 := true } })).lanes = [] ∧
    runs placeWave placeFrag (.trap { xf with g := { Guard.none with ge0 := true } }) ∧
    (at0 placeWave placeFrag (.trap xf)).lanes ≠ [] ∧ ((launched vecLaunch placeWave).launchOf placeWave) = some vecLaunch ∧
    vecLaunch.dbg.taken = false ∧ placeTeam.step = none := by decide

/-- TRET while another handler fragment runs, once all have executed it, and outside a handler; ICINV. -/
def inHandler (gs : List Frag) : Wave :=
  { placeWave with handlerFlag := true, frags := { frag1 with handler := true } :: gs, trap := { TrapRegs.zero with pc := 0x4000000000 } }

theorem test_meets_tret :
    (∀ gs ∈ [[{ placeFrag with mask := 2, handler := true }], [{ placeFrag with mask := 2, handler := true, wait := .tret }], [placeFrag]],
      runs (inHandler gs) { frag1 with handler := true } (.tret xf) ∧ (inHandler gs).arrivals = [] ∧ (inHandler gs).faults = [] ∧
      (inHandler gs).live ≠ 0) ∧
    frag1.mask ≠ 0 ∧ runs placeWave placeFrag (.tret xf) ∧ runs placeWave placeFrag (.icinv xf) := by decide

theorem test_meets_sysr :
    runs placeWave placeFrag (.sysr { xf with imm := 15 }) ∧ runs placeWave placeFrag (.sysr { xf with imm := 4, d := 62 }) := by
  decide

theorem test_meets_sysw_request : runs placeWave placeFrag (.sysw { xf with imm := 8, a := 2 }) := by decide

theorem test_meets_sysw_scratch :
    runs placeWave placeFrag (.sysw { xf with imm := 10 }) ∧ runs placeWave placeFrag (.sysw { xf with imm := 13 }) := by decide

/-- SYSW of trap.pc in a handler, aligned and misaligned; of host.req with bit 0 clear and set, with no queue and with one. -/
theorem test_meets_sysw_pc :
    let w := { inHandler [] with regs := [(64, 1)] }
    runs w { frag1 with handler := true } (.sysw { xf with imm := 4, a := 2 }) ∧ (w.reg 3 0 ++ w.reg 2 0 : Dword).toNat % 4 = 1 ∧
    ((inHandler []).reg 3 0 ++ (inHandler []).reg 2 0 : Dword).toNat % 4 = 0 := by decide

theorem test_meets_sysw_host :
    let w := wave1 [(64, 1)]
    runs w frag1 (.sysw { xf with imm := 8, a := 2 }) ∧ (w.reg 2 0).getLsbD 0 = true ∧ ((sit w).part 0).ring = none ∧
    (let s := (sit w).setPart 0 fun t => { t with ring := some (0x1000, 1) }
     (s.part 0).ring = some (0x1000, 1) ∧ (s.part 0).reqs.length < 1) := by decide

/-- A request that the host answers, and the SYSW that resumes. -/
theorem test_meets_answer :
    let fr := { frag1 with wait := .host 5 }
    let w := { wave1 [(64, 1)] with frags := [fr] }
    let s := (sit w).setPart 0 fun t => { t with reqs := [⟨5, 0⟩], tag := 6 }
    ((s.part 0).reqs.find? fun x => x.tag == 5) = some ⟨5, 0⟩ ∧ Tab.find 0 s.waves = some w ∧ fr.wait = .host 5 ∧ (2 : Word).toNat ≤ 2 ∧
    runs w fr (.sysw { xf with imm := 8, a := 2 }) := by decide

/-- Waves with a result outstanding, parked with and without a fault, ready for 64 cycles, waiting, evicted; and a parked team. -/
theorem test_meets_wave_events :
    (let w := { placeWave with parked := some 0, faults := [⟨0x21, 1, 0, 0⟩] }
     Tab.find 0 (sit w).waves = some w ∧ w.outstanding = 0 ∧ w.handlerFlag = false ∧ w.frags[0]? = some placeFrag) ∧
    (let w := { placeWave with frags := [{ placeFrag with readyFor := 64 }] }
     (0, 0) ∈ (sit w).quadReady 0 0 ∧ 64 ≤ (sit w).readyFor (0, 0)) ∧
    (let w := { placeWave with evictable := true, spilt := true }
     (sit w).canReturn 0 w = true ∧ placeTeam.parked = false) ∧
    (let s := { sit { placeWave with spilt := true } with teams := [(0, { placeTeam with parked := true })] }
     s.canResume 0 { placeTeam with parked := true } = true ∧ placeLaunch.parked = false ∧ placeLaunch.desc.cores = false) := by decide

/-- Fragments all waiting past a threshold of zero, in a team that is not parked, and a parked team. -/
theorem test_meets_threshold :
    let w := { placeWave with frags := [{ placeFrag with wait := .retry }, { placeFrag with wait := .gen }] }
    let s := (sit w).setPart 0 fun t => { t with wait := 0 }
    (∀ f ∈ w.frags, (f.wait = .retry ∨ f.wait = .gen) ∧
      (s.part (s.partOf w)).wait ≤ (s.core (coreOf 0)).clock.toNat - f.waitSince) ∧
    (s.teamOf w).map Team.parked ≠ some true ∧
    (({ s with teams := [(0, { placeTeam with parked := true })] } : State).teamOf w).map Team.parked = some true := by
  decide

/-- A halted team with a wave and a fragment to step, one of a single lane and one of 32; a register of the extended row. -/
theorem test_meets_debugger :
    (let h : Halt := ⟨0x12, 0, 0, 0, none⟩
     let s := { launched heldLaunch placeWave with teams := [(0, { placeTeam with halt := some h })] }
     h.pending = none ∧ s.waveOf 0 0 = some 0 ∧ Tab.find 0 s.waves = some placeWave ∧
     placeWave.fragAt 31 = some 0 ∧ placeFrag.got = [] ∧ placeFrag.mask ≠ 1#32 <<< 31 ∧ placeWave.landing.inReg = false ∧
     heldLaunch.dbg.taken = true ∧ s.launchOf placeWave = some heldLaunch) ∧
    (wave1 []).fragAt 0 = some 0 ∧ frag1.mask = 1#32 <<< 0 := by decide

theorem test_meets_fragment_step : placeWave.byLane[0]? = some 0 := by
  have h : List.range placeWave.frags.length = [0] := by decide
  simp [Wave.byLane, h]

/-! ### Launches and tiles -/

/-- LAUNCH of one lane with an entry free, with none, and CUTQ. -/
theorem test_meets_launch :
    (let s := { sit (wave1 []) with nextLaunch := 1 }
     met s 0 0 (wave1 []) frag1 (.launch { xf with a := 8, d := 5 }) = true ∧ frag1.launchLane = none ∧ s.affected 0 = false ∧
     1 ≤ s.poolFree 6 0 s.childrenOf ∧ s.launches.length = 1 ∧ placeTeam.launch < s.nextLaunch) := by decide

theorem test_meets_launch_waits :
    (let s := { sit (wave1 []) with pools := [(16 * 6, (0, 0))] }
     s.poolFree 6 0 s.childrenOf = 0) ∧ runs placeWave placeFrag (.cutq { xf with imm := 5 }) ∧
    ((sit placeWave).launchOf placeWave).isSome = true := by decide

/-- A job of two tiles: one of a ready expert, one of an expert still to come. -/
def twoTiles (first : Tile) : Job :=
  ⟨0, 0, [first, ⟨0, 1, 8, 0, 8, none, false⟩], [(0, ⟨0, 0, true, false⟩), (1, ⟨0, 0, false, false⟩)]⟩
def freshTile : Tile := ⟨0, 0, 0, 0, 8, none, false⟩

/-- TLPOP by one lane, by more lanes than can be served, of no job, of an excluded die and of slot 16. -/
theorem test_meets_tlpop :
    (let s := { sit (wave1 []) with jobs := [(0, twoTiles freshTile)] }
     met s 0 0 (wave1 []) frag1 (.tlpop { xf with d := 8, a := 4 }) = true ∧ Tab.find 0 s.jobs = some (twoTiles freshTile) ∧
     (twoTiles freshTile).offerable = [0] ∧ (twoTiles freshTile).undelivered = 2) ∧
    (at0 placeWave placeFrag (.tlpop { xf with d := 8, a := 4 })).lanes.length = 32 ∧ Tab.find 0 (sit placeWave).jobs = none ∧
    { twoTiles freshTile with dies := 2 }.dies.testBit 0 = false ∧ (16 : Word).toNat ≥ 16 := by decide

/-- TLDONE of a delivered tile with another left, of the last, and of one not delivered. -/
theorem test_meets_tldone :
    let done : Tile := { freshTile with team := some 0 }
    runs (wave1 []) frag1 (.tldone { xf with a := 4, b := 6 }) ∧ (twoTiles done).tiles[0]? = some done ∧ done.team.isSome = true ∧
    done.retired = false ∧ (twoTiles done).tiles[1]? = some ⟨0, 1, 8, 0, 8, none, false⟩ ∧
    { twoTiles done with tiles := [done] }.tiles[1]? = none ∧ freshTile.team = none := by decide

/-! ### The life of a launch -/

/-- The 128 bytes of a descriptor at the start of global memory (R290): ENTRY 0x4000000000, WINDOW 1, one size of 32, 1 and 1 on
the axes, from 1 to 512 items, PIN. -/
def descBytes : List Byte :=
  leBytes 8 0x4000000000 ++ leBytes 16 0 ++ [0, 1, 0, 0] ++ leBytes 4 0 ++ leBytes 2 1 ++ leBytes 2 512 ++ [1, 1, 1, 1] ++
    leBytes 16 32 ++ leBytes 16 1 ++ leBytes 16 1 ++ leBytes 40 0

theorem test_meets_descriptor :
    descBytes.length = 128 ∧ descOk (leNat descBytes) = true ∧ spaceOk (descOf (leNat descBytes)) (32, 1, 1) = true ∧
    descOk 0 = false := by decide +kernel

/-- A child of that descriptor, waiting to be accepted. -/
theorem test_meets_acceptance :
    let la : Launch := { Launch.fresh 0 0 none 0 (.launch placeAt 32 1 1) with acq := 5, rel := 5 }
    let s := { launched la placeWave with mem := memWrites [] 0 [1, 2, 3], accepted := some 0x100 }
    Tab.find 0 s.launches = some la ∧ la.stage = 2 ∧ la.queue = none ∧ la.sig = 0 ∧ s.feature 8 = true ∧ s.affected 0 = false ∧
    (s.part 0).faulting = false ∧ placeAt % 128 = 0 ∧ s.usable 0 (addr placeAt) true false = true ∧
    s.packetBreaks 0 (addr placeAt) true = false := by decide

/-- A launch in stage 3 whose one group of 32 items waits for a core of the first die; co-resident, it fits and it does not. -/
def oneCut : Cut := ⟨[⟨0, 0, 0, 32, 1, 1⟩], (32, 1, 1), 0, 0, [(0, (0, 1))], 0, [], 0, false⟩
def stage3 (cores : Bool) : Launch :=
  let d : Desc := { Desc.zero with cores := cores, pin := true, window := 1, xs := [32], ys := [1], zs := [1], lo := 1, hi := 512 }
  { placeLaunch with desc := d, cut := some oneCut, dispatched := 0 }

theorem test_meets_dispatch :
    let s := { launched (stage3 false) placeWave with waves := [], teams := [] }
    (stage3 false).stage = 3 ∧ s.takes 0 0 = true ∧ s.dieNum 0 (clusterOf 0 / 16) = 0 ∧ Tab.find 0 oneCut.runs = some (0, 1) ∧
    0 < oneCut.limit (stage3 false).desc ∧ oneCut.ripe (stage3 false).desc = none ∧
    groupAt oneCut.shape oneCut.order oneCut.regions 0 = some ((0, 0, 0), (32, 1, 1)) ∧
    (s.plan (stage3 false) 0 32).map (·.slots) = some [0] := by decide

theorem test_meets_coresident :
    let s := { launched (stage3 true) placeWave with waves := [], teams := [] }
    (stage3 true).desc.cores = true ∧ (stage3 true).error = none ∧ oneCut.groups = 1 ∧
    1 ≤ s.capacity 0 (items oneCut.shape) (stage3 true).desc ∧
    ({ s with layout := List.replicate 216 255 } : State).capacity 0 (items oneCut.shape) (stage3 true).desc < 1 ∧
    (State.placeAll 0 (stage3 true) oneCut [0].zipIdx s).isSome = true := by decide

/-- A team with no wave left; a full window of one clean group, with the remainder used up and with items left. -/
theorem test_meets_retire_and_window :
    (let s := { sit placeWave with waves := [] }
     Tab.find 0 s.teams = some placeTeam ∧ s.waves.length = 0 ∧ ∀ q ∈ [0, 1, 2, 3], s.entriesOf placeTeam.core q = []) ∧
    (let g : GroupRec := ⟨0, (0, 0, 0), (32, 1, 1), [], 1, 1, 1⟩
     let d : Desc := { Desc.zero with window := 1 }
     ({ oneCut with finished := [g], sent := 1 } : Cut).ripe d = some ([g], [])) := by decide

/-- A MARKER whose signal counts down at its completion. -/
theorem test_meets_completion :
    let la : Launch := { Launch.fresh 0 0 (some 0) 0 (.marker 0) with stage := 5, sigOk := true, sig := placeAt }
    let s := launched la placeWave
    classify (addr la.sig) = .global la.sig ∧ (s.translate 0 la.sig).map (fun x => (x.1.r && x.1.w, x.2)) = some (true, 0) ∧
    la.sig % 8 = 0 ∧ s.clusters = [] ∧ placeTeam.pages = [] ∧ la.error = none := by decide

/-! ### Handlers and the Alcove's triggers -/

/-- A layout of one cluster and every stop of partition 0. -/
def oneCluster : List Nat := 0 :: List.replicate 63 255 ++ List.replicate 152 0

/-- A trigger of a class. -/
def trigOf (k : TrigClass) (x : Option Cmd) : Trigger := ⟨k, 0, 0, 0, 0x4000000000, 0, x⟩

/-- The record of a message from the placed wave: NOTIFY, REPLY at 8 with the word 7. -/
def msgRec : BitVec 512 := 0x30 + (1 <<< 16) + (8 <<< 64) + (7 <<< 96)
def msgCmd : Cmd := ⟨msgRec, 0, 0⟩

/-- One cluster in which context 0 runs a handler, with registers and lines of its slice. -/
def hsit (t : Trigger) (regs : Tab Dword) (sl : Tab SliceLine) : State :=
  { sit placeWave with layout := oneCluster }.setCluster 0 fun c =>
    { c with control := [(0, 0x88001000), (3, 0x88001000)], ctxs := [(0, { HCtx.start 0 t with regs := regs })], slice := sl }

/-- A line of a partition of one cluster has that cluster as its home. -/
theorem home_of_one (s : State) (p cl line : Nat) (h : s.partClusters p = [cl]) : s.homeOf p line = cl := by
  simp [State.homeOf, h, homeAmong]

/-- A message that runs, ones that do not, and the notify of an overrun. -/
theorem test_meets_message :
    let s := (hsit (trigOf .msg (some msgCmd)) [] []).setCluster 0 fun c => { c with queue := [.fresh msgCmd], regs := [(48, 0x80000000, [])] }
    Tab.find 0 s.teams = some placeTeam ∧ Tab.find placeTeam.launch s.launches = some placeLaunch ∧ (s.cluster 0).classQ = [] ∧
    (s.part (s.ownerOf 0)).faulting = false ∧ (msgRec.extractLsb' 0 8).toNat = 0x30 ∧ (msgRec.extractLsb' 8 8).toNat < 16 ∧
    (msgRec.extractLsb' 16 8).toNat < 2 ∧ msgRec.extractLsb' 24 40 = 0 ∧ (msgRec.extractLsb' 64 32).toNat = 8 ∧
    (Tab.getD 0 3 (s.cluster 0).control).getLsbD 31 = true ∧ Tab.find 48 (s.cluster 0).regs = some (0x80000000, []) ∧
    msgRec.getLsbD 16 = true ∧ (placeTeam.page 8).bound = none ∧ Tab.find 0 s.waves = some placeWave := by decide +kernel

/-- The first trigger of a class with a context free below its CAP, and with its CAP reached. -/
theorem test_meets_start :
    let s := ({ hsit (trigOf .msg none) [] [] with } : State).setCluster 0 fun c => { c with classQ := [trigOf .fill none, trigOf .miss none] }
    (s.cluster 0).classQ = [trigOf .fill none] ++ trigOf .miss none :: [] ∧ (∀ y ∈ [trigOf .fill none], y.cls.num ≠ 0) ∧
    Tab.find 1 (s.cluster 0).ctxs = none ∧ Tab.find 0 (s.cluster 0).ctxs ≠ none ∧ s.repart = none ∧
    ((Tab.getD 0 0 (s.cluster 0).control).extractLsb' 24 4).toNat = 8 ∧ (s.cluster 0).ctxs.length = 1 ∧
    ((Tab.getD 0 1 (s.cluster 0).control).extractLsb' 24 4).toNat = 0 := by decide

/-- A dirty line of one byte. -/
theorem test_meets_publication :
    let s := (sit placeWave).setCluster 0 fun c => { c with dirty := [(0, ⟨[(127, 1)], 0, 0, false⟩)] }
    Tab.find 0 (s.cluster 0).dirty = some ⟨[(127, 1)], 0, 0, false⟩ ∧ Tab.sorted (s.cluster 0).dirty = true ∧
    ∀ e ∈ (s.cluster 0).dirty, Tab.sorted e.2.bytes = true ∧ ∀ b ∈ e.2.bytes, b.1 < 128 := by decide +kernel

/-! ### Engines -/

/-- A record from fields: byte offset and value. -/
def recOf (fs : List (Nat × Nat)) : BitVec 512 := BitVec.ofNat 512 ((fs.map fun f => f.2 * 2 ^ (8 * f.1)).sum)

/-- A checked copy command of the placed wave, at its next byte. -/
def cmdOf (fs : List (Nat × Nat)) (n : Nat := 0) : CopyCmd := ⟨recOf fs, 0, 0, 0, 0, n, true, none, [], none⟩

/-- The placing with commands in queue 0, a quota in pool 0, and the matrix engine held. -/
def csit (xs : List CopyCmd) (held : Bool := true) : State :=
  { sit placeWave with pools := [(0, (4, 0))], accepted := some 0x1FF }.setCore 0 fun c =>
    { c with copy0 := xs, mx := Mx.fresh (if held then some 0 else none) }

/-- Records of 8 bytes from placeAt to 256 above it, by operation; CP.GATH with its index list at 128 of the window. -/
def gs : List (Nat × Nat) := [(16, placeAt), (24, placeAt + 256)]
def linRec : List (Nat × Nat) := [(0, 0x10), (32, 8)] ++ gs
def tileRec : List (Nat × Nat) := [(0, 0x11), (32, 4), (36, 2), (38, 1)] ++ gs
def gathRec : List (Nat × Nat) := [(0, 0x12), (32, 4), (36, 2), (40, 128), (44, 4)] ++ gs
def peerRec : List (Nat × Nat) := [(0, 0x14), (32, 5), (36, 8)] ++ gs
def fillRec : List (Nat × Nat) := [(0, 0x15), (32, 0xAABBCCDD), (36, 8), (24, placeAt + 256)]
/-- Two blocks of 8-bit codes, with scales in the window of 64 bytes above 512. -/
def strmRec : List (Nat × Nat) := [(0, 0x13), (33, 0), (34, 8), (36, 1), (38, 2), (16, placeAt), (40, 0), (48, placeAt + 512)]

/-- What the hypotheses on a word that a copy command accesses say. -/
def clearB (s : State) (a : Dword) (n : Nat) (rd wr : Bool) : Bool :=
  decide (s.checkAccess 0 placeTeam a 1 n rd wr = none) && decide (placeTeam.unpinnedAt a = none) &&
    !s.breaks 0 placeTeam ⟨0, a, 1, n, rd, wr⟩ &&
    match placeOf s 0 placeTeam a with
    | some (.home pa) => decide (pa % 128 + n ≤ 128) && decide (s.clusters = []) && decide (placeTeam.pages = [])
    | _ => false

theorem test_meets_copy :
    ∀ x ∈ [linRec, tileRec, gathRec, peerRec, fillRec], let s := csit [cmdOf x]
      ((s.core 0).copies 0)[0]? = some (cmdOf x) ∧ (cmdOf x).checked = true ∧ Tab.find 0 s.teams = some placeTeam ∧
      Tab.find placeTeam.launch s.launches = some placeLaunch ∧ (s.part 0).faulting = false ∧ s.quiesced 0 = false ∧
      0 < s.poolFree 0 0 (fun _ => 0) ∧ recFlag (cmdOf x).record 1 = false ∧ (headerOk (recOf x) && bodyOk (recOf x)) = true := by
  decide +kernel

theorem test_meets_copy_words :
    let s := csit [cmdOf linRec]
    clearB s (BitVec.ofNat 64 placeAt) 4 true false = true ∧ clearB s (BitVec.ofNat 64 (placeAt + 256)) 4 false true = true ∧
    recOp (recOf tileRec) = 0x11 ∧ 0 < recN (recOf gathRec) 32 4 * recN (recOf gathRec) 36 4 ∧ 4 + 4 = payload (recOf fillRec) := by
  decide +kernel

/-- A barrier object in a pinned page counts the bytes; a peer that can be reached and one that cannot. -/
theorem test_meets_copy_bar :
    recFlag (recOf ([(1, 2), (12, 16)] ++ linRec)) 1 = true ∧ placeTeam.unpinnedAt (apertureOf 16) = none ∧
    (let s := { csit [cmdOf peerRec] with links := [(3, (1 : BitVec 64) + (1 <<< 40))],
                                          parts := [(0, { Partition.fresh with peers := [(5, 8)] })] }
     s.peerUsable 0 5 = true) ∧ (csit [cmdOf peerRec]).peerUsable 0 5 = false := by decide +kernel

/-- Records that each check of the order of R246 stops. -/
theorem test_meets_copy_checks :
    (recOp (recOf [(0, 0x16)]) < 0x10 ∨ 0x15 < recOp (recOf [(0, 0x16)])) ∧
    ((csit [] false).core 0).mx.holder ≠ some 0 ∧ Tab.find 0 ((csit [] false).core 0).mxSpilt = none ∧
    (headerOk (recOf ([(2, 1)] ++ linRec)) && bodyOk (recOf ([(2, 1)] ++ linRec))) = false ∧
    placeTeam.window < recN (recOf ([(1, 1), (4, 4096)] ++ linRec)) 4 4 + 4 ∧
    ({ placeTeam with pages := [(0, { Page.plain with bound := some (0, 0) })] } : Team).window = 4096 ∧
    Tab.find 0 (csit []).waves = some placeWave := by decide +kernel

/-- A completed command with a completion word, a word whose check fails, and one in an unpinned page. -/
def unpinned : Team := { placeTeam with pages := [(0, { Page.plain with pinned := false })] }
theorem test_meets_copy_ends :
    payload (recOf linRec) ≤ (cmdOf linRec 8).next ∧ recFlag (recOf ([(1, 1), (4, 8)] ++ linRec)) 0 = true ∧
    recN (recOf ([(1, 1), (4, 8)] ++ linRec)) 4 4 + 4 ≤ placeTeam.window ∧ (placeTeam.page 8).bound = none ∧
    (placeTeam.page 8).pinned = true ∧
    ((csit []).checkAccess 0 placeTeam (recDst (recOf [(0, 0x15), (36, 8), (24, 0x100000000000000)])) 1 4 false true).isSome = true ∧
    (csit []).checkAccess 0 unpinned (recSrc (recOf [(0, 0x10), (32, 4), (16, 0xFF00000000000000)])) 1 4 true false = none ∧
    unpinned.unpinnedAt (recSrc (recOf [(0, 0x10), (32, 4), (16, 0xFF00000000000000)])) = some 0 := by decide +kernel

/-- A stream with room, one that is full, and one of a team that does not hold the engine. -/
theorem test_meets_copy_stream :
    let x := cmdOf strmRec
    let s := csit [x]
    bodyOk x.record = true ∧ recOp x.record = 0x13 ∧ x.next < recN x.record 36 2 * recN x.record 38 2 * 33 ∧
    (s.core 0).mx.holder = some 0 ∧ x.next + 33 < recN x.record 36 2 * recN x.record 38 2 * 33 ∧ recFlag x.record 1 = false ∧
    (∀ j, j < 8 → clearB s (recSrc x.record + BitVec.ofNat 64 (4 * j)) 4 true false = true) ∧
    clearB s (BitVec.ofNat 64 (recN x.record 48 8)) 1 true false = true ∧ ((csit [x] false).core 0).mx.holder ≠ some 0 := by
  decide +kernel

/-- A record at the head of the matrix engine's FIFO. -/
def msit (fs : List (Nat × Nat)) (m : Mx) : State :=
  (sit placeWave).setCore 0 fun c => { c with mx := { m with fifo := [⟨recOf fs, 0, 0⟩] } }

def zeroRec : List (Nat × Nat) := [(0, 0x20), (1, 0xC)]
/-- Height 8, N = 1, KB = 1, codes of 8 and 8 bits. -/
def mulRec : List (Nat × Nat) := [(0, 0x21), (3, 8), (4, 8), (6, 1), (8, 1)]
def drainRec (op : Nat) : List (Nat × Nat) := [(0, op), (4, 2), (8, 2), (12, 8), (16, 64)]
def arriveRec : List (Nat × Nat) := [(0, 0x24), (4, 16)]

theorem test_meets_matrix :
    ∀ fs ∈ [zeroRec, mulRec, drainRec 0x22, drainRec 0x23, arriveRec], let s := msit fs (Mx.fresh (some 0))
      (s.core 0).mx.fifo = [⟨recOf fs, 0, 0⟩] ∧ (s.core 0).mx.headHeld = false ∧ Tab.find 0 s.teams = some placeTeam ∧
      placeTeam.parked = false ∧ (s.part 0).faulting = false ∧ Tab.find placeTeam.launch s.launches = some placeLaunch ∧
      (s.core 0).mx.holder = some 0 ∧ matrixFieldsOk (recOf fs) = true ∧ rangeEnd (recOf fs) ≤ placeTeam.window ∧
      matrixPermBad s 0 placeTeam (recOf fs) = false := by decide +kernel

/-- Records that each check of the order of R258 stops. -/
theorem test_meets_matrix_checks :
    ((msit zeroRec (Mx.fresh none)).core 0).mx.holder ≠ some 0 ∧ recOp (recOf [(0, 0x25)]) > 0x24 ∧
    matrixFieldsOk (recOf [(0, 0x20), (2, 1)]) = false ∧
    placeTeam.window < rangeEnd (recOf [(0, 0x24), (4, 4096)]) ∧ matrixFieldsOk (recOf [(0, 0x24), (4, 4096)]) = true ∧
    (let tm := { placeTeam with pages := [(0, { Page.plain with bound := some (0, 0) })] }
     matrixPermBad (sit placeWave) 0 tm (recOf arriveRec) = true) := by decide +kernel

/-- A tile that is there, one absent, and one out of step. -/
theorem test_meets_tile :
    let d := fun (n : Nat) => (List.range n).map fun i => (⟨8, i, 1⟩ : DataEntry)
    let sc := fun (n : Nat) => (List.range n).map fun i => (⟨127, i⟩ : ScaleEntry)
    let r := recOf mulRec
    recN r 6 2 ≠ 0 ∧ 8 * 2 ^ recN r 2 1 * recN r 6 2 = 8 ∧ recN r 8 2 * recN r 6 2 = 1 ∧ recN r 12 3 = 0 ∧ recN r 16 3 = 0 ∧
    (d 8).length = 8 ∧ (d 8).head?.map DataEntry.seq = some 0 ∧ (d 1).head?.map DataEntry.seq = some 0 ∧
    (∀ e ∈ (d 8).take 8, e.m = recN r 3 1) ∧ (d 8).map DataEntry.seq = (sc 8).map ScaleEntry.tag ∧ (d 7).length < 8 ∧
    ((d 8).drop 1).head?.map DataEntry.seq ≠ some 0 ∧ recN (recOf [(0, 0x21)]) 6 2 = 0 := by decide +kernel

theorem test_meets_arrive :
    let s := { sit placeWave with teams := [(0, { placeTeam with scratch := [(20, 2), (22, 2)] })] }
    (s.bar 0 16).pending ≠ 0 ∧ (s.bar 0 16).expect ≠ 0 ∧ ((sit placeWave).bar 0 16).pending = 0 ∧
    (∀ i ∈ [0, 1], ∀ j ∈ [0, 1], (placeTeam.page (64 + i * 8 + 4 * j)).bound = none) ∧ placeTeam.window ≤ 2 ^ 32 := by decide +kernel

/-! ### Links -/

theorem test_meets_links :
    let s := { sit placeWave with links := [(3, (1 : BitVec 64) + (1 <<< 40))], accepted := some 0x1FF }
    s.subLink 3 0 = some 0 ∧ s.subLink 3 1 = none ∧ s.feature 4 = true ∧ s.layout.getD (clusterOf 0) 255 = 0 ∧
    s.layout.getD (clusterOf 256) 255 ≠ 1 ∧ placeAt % 128 + [(1 : Byte), 2].length ≤ 128 ∧
    (∀ i, i < 2 → (s.translate 0 (placeAt + i)).map (fun x => (x.1.w, x.2)) = some (true, i) ∧ s.ownsStop 0 i = true ∧
      classify (BitVec.ofNat 64 placeAt + BitVec.ofNat 64 i) = .global (placeAt + i)) ∧
    (let p := { Partition.fresh with ptes := [⟨placeAt, 65536, 0, true, false, true⟩] }
     ({ s with parts := [(0, p)] } : State).translate 0 placeAt = some (⟨placeAt, 65536, 0, true, false, true⟩, 0)) := by
  decide +kernel

/-! ### The host, the mailbox and REPART -/

/-- Queue 3 of partition 0, whose ring is the placed page, with one packet of the fields at its head. -/
def qsit (fs : List (Nat × Nat)) : State :=
  { sit placeWave with
    queues := [(3, { HostQueue.fresh with owner := some 0, qbase := addr placeAt, doorbell := 1 })], accepted := some 0x1FF,
    mem := memWrites [] 0 (leBytes 64 (recOf fs).toNat) }

/-- The head of that queue meets the hypotheses on a packet. -/
def headB (fs : List (Nat × Nat)) : Bool :=
  let s := qsit fs
  decide ((s.queue 3).owner = some 0) && !(s.queue 3).err && !s.affected 0 && !(s.part 0).faulting && s.feature 2 &&
    decide ((s.queue 3).rdidx.toNat < (s.queue 3).doorbell.toNat) && s.usable 0 (addr placeAt) true false &&
    !s.packetBreaks 0 (addr placeAt) true && decide (BitVec.ofNat 512 (s.packetRead 0 (addr placeAt) 64).1 = recOf fs) &&
    s.launches.all fun e => decide (e.2.queue ≠ some 3)

def launchPkt : List (Nat × Nat) := [(0, 1), (24, placeAt), (32, 32), (36, 1), (40, 1)]
def barrierPkt : List (Nat × Nat) := [(0, 2), (24, placeAt + 128)]
def copyPkt : List (Nat × Nat) := [(0, 3), (24, placeAt), (32, placeAt + 256), (40, 4)]
def tilesPkt : List (Nat × Nat) := [(0, 4), (26, 1), (28, 1), (32, placeAt + 512), (40, placeAt + 1024)]
def signalPkt : List (Nat × Nat) := [(0, 5), (24, placeAt + 128), (32, 1)]
def markerPkt : List (Nat × Nat) := [(0, 6), (24, 7)]

theorem test_meets_packets :
    ∀ fs ∈ [launchPkt, barrierPkt, copyPkt, tilesPkt, signalPkt, markerPkt],
      headB fs = true ∧ (qsit fs).pktOk 0 (recOf fs) = true := by decide +kernel

theorem test_meets_bad_packets :
    headB [(0, 7)] = true ∧ (qsit []).pktOk 0 (recOf [(0, 7)]) = false ∧ (qsit []).pktOk 0 (recOf ((4, 1) :: launchPkt)) = false ∧
    (qsit []).usable 0 (addr 0) true true = false ∧ (qsit []).usable 0 (addr (placeAt + 128)) true true = true := by decide +kernel

/-- Doorbells in and out of range; a MARKER behind a packet; a BARRIER whose signals are 0, positive and negative. -/
theorem test_meets_queue :
    let s := qsit barrierPkt
    ((s.queue 3).rdidx.toNat ≤ (1 : Dword).toNat ∧ (1 : Dword).toNat ≤ (s.queue 3).rdidx.toNat + 2 ^ (s.queue 3).qsize) ∧
    (s.queue 3).rdidx.toNat + 2 ^ (s.queue 3).qsize < (2 : Dword).toNat ∧
    (∃ e ∈ ({ s with launches := [(0, { placeLaunch with queue := some 3 })] } : State).launches, e.2.queue = some 3) ∧
    (readSignals 0 [placeAt + 128] s).1 = [0] ∧
    (readSignals 0 [placeAt + 128] { s with mem := memWrites s.mem 128 [1] }).1 = [1] ∧
    (readSignals 0 [placeAt + 128] { s with mem := memWrites s.mem 135 [0x80] }).1 = [2 ^ 63] := by decide +kernel

/-- A COPY at stage 4 of one word, and the words of TILES: a slot free, one used, and records in and out of range. -/
theorem test_meets_copy_packet :
    let la := { placeLaunch with work := .copy placeAt (placeAt + 256) 4, stage := 4 }
    let s := { qsit copyPkt with launches := [(0, la)] }
    Tab.find 0 s.launches = some la ∧ s.quiesced 0 = false ∧ s.usable 0 (addr placeAt + BitVec.ofNat 64 0) true false = true ∧
    s.usable 0 (addr (placeAt + 256)) false true = true ∧ s.usable 0 (addr 0) true false = false ∧ s.clusters = [] ∧
    placeTeam.pages = [] ∧ Tab.find (16 * 0 + 0) s.jobs = none ∧ 0 < s.poolFree 5 0 s.jobsOf ∧
    (classify (addr placeAt) = .global placeAt ∧ (s.translate 0 placeAt).map (·.2) = some 0) ∧
    ((qsit tilesPkt).readUnits 0 (addr (placeAt + 512)) 1).1 = [0] ∧
    (decompose [(0, 0, 0)] = [] ∧ decompose [(0, 0, 8)] ≠ []) := by decide +kernel

/-- An expert with a fill signal. -/
theorem test_meets_fill_signal :
    let j := { twoTiles freshTile with experts := [(1, ⟨0, placeAt, false, false⟩)] }
    let s := { sit placeWave with jobs := [(0, j)] }
    Tab.find 0 s.jobs = some j ∧ Tab.sorted s.jobs = true ∧ s.usable 0 (addr placeAt) true false = true ∧
    s.packetBreaks 0 (addr placeAt) true = false := by decide

/-- The host's accesses: within, beyond and poisoned; a host-window line; pages that can be mapped. -/
theorem test_meets_host_accesses :
    let s := { sit placeWave with accepted := some 0x1FF }
    s.feature 1 = true ∧ (0 / 2 ^ 33 < 16 ∧ s.layout.getD (64 + 0 / 2 ^ 33) 255 = 0) ∧ ¬ (16 * 2 ^ 33 / 2 ^ 33 < 16) ∧
    s.poison = [] ∧ s.clusters = [] ∧ placeTeam.pages = [] ∧ 24 * 2 ^ 33 / 2 ^ 33 = 24 ∧ heldLaunch.dbg.taken = true ∧
    (∀ e ∈ (s.part 0).ptes, 65536 + 65536 ≤ e.vbase ∨ e.vbase + e.size ≤ 65536) := by decide

theorem test_meets_link_register :
    let r : Repart := ⟨List.replicate 216 0, 6, [], [], []⟩
    linkOk r.new 3 ((1 : BitVec 64) + (1 <<< 40)) = true ∧ linkOk r.new 3 0 = false := by decide

theorem test_meets_snoop :
    let s := (sit placeWave).setCluster 0 fun c => { c with dirty := [(24 * 2 ^ 33, ⟨[(0, 1)], 0, 0, false⟩)] }
    Tab.find (24 * 2 ^ 33) (s.cluster 0).dirty = some ⟨[(0, 1)], 0, 0, false⟩ ∧ Tab.sorted s.clusters = true ∧ s.clusters.length = 1 := by
  decide

/-- A partition fault with a team within and none beyond, and one during a REPART. -/
theorem test_meets_partition_fault :
    let s := sit placeWave
    s.repart = none ∧ Tab.sorted s.waves = true ∧ Tab.sorted s.teams = true ∧ Tab.sorted s.jobs = true ∧
    Tab.find 0 s.teams = some placeTeam ∧ Tab.find placeTeam.launch s.launches = some placeLaunch ∧ placeLaunch.part = 0 ∧
    ({ s with repart := some ⟨s.layout, 1, [], [], []⟩ } : State).repart.isSome = true := by decide

/-- The mailbox taking commands, before ACCEPT and busy; legal and illegal values of each. -/
theorem test_meets_mailbox :
    let s := { sit placeWave with accepted := some 0x1FF }
    (s.repart = none ∧ s.stage = 6 ∧ s.accepted.isSome = true ∧ s.feature 5 = true ∧ s.feature 4 = true) ∧
    State.reset.accepted = none ∧ (8 ≤ 8 ∧ 8 ≠ 7 ∧ 15 < 16 ∧ (s.pool 8 0).1 + 65536 ≤ poolSize 8) ∧ ¬ 16 ≤ poolSize 0 - 1 ∧
    (s.queue 65535).doorbell = (s.queue 65535).rdidx ∧ 0 < s.poolFree 8 0 s.queuesOf ∧
    (qsit markerPkt).queue 3 ≠ HostQueue.fresh ∧ ((qsit markerPkt).queue 3).doorbell ≠ ((qsit markerPkt).queue 3).rdidx ∧
    (0x88001000 : Word).toNat / 2 ^ 24 % 16 ≤ 8 ∧ (0x89001000 : Word).toNat / 2 ^ 24 % 16 = 9 ∧ 1 ≤ (0x88001000 : Word).toNat % 2 ^ 13 ∧
    (0x1FF : BitVec 128) &&& ~~~offered = 0 ∧ (0x200 : BitVec 128) &&& ~~~offered ≠ 0 ∧ imageOk [] = false := by decide +kernel

/-- Registrations: valid with its page mapped, invalid, and one refused; a port mask. -/
theorem test_meets_registration :
    let s := { sit placeWave with accepted := some 0x1FF, layout := oneCluster, links := [(3, (1 : BitVec 64) + (1 <<< 40))] }
    let r : BitVec 256 := BitVec.ofNat 256 (placeAt * 2 ^ 192 + 65536 * 2 ^ 128 + 2 ^ 31)
    regOk Cluster.fresh 0 15 r = true ∧ r.getLsbD 31 = true ∧ (bits r 128 64).toNat / 65536 = 1 ∧
    (s.translate 0 placeAt).map (·.2) = some 0 ∧ regOk Cluster.fresh 3 0 0 = true ∧ regOk Cluster.fresh 3 0 r = false ∧
    ((List.range 8).filter fun l => s.subLink 3 l == some 0).length = 1 := by decide +kernel

/-- Layouts legal and illegal, and a REPART in each of its steps. -/
theorem test_meets_repart :
    let l := oneCluster
    let s := { sit placeWave with accepted := some 0x1FF, layout := oneCluster }
    let st := fun (n : Nat) => ({ s with repart := some ⟨l, n, [], [], []⟩ } : State)
    (l.length = 216 ∧ (∀ b ∈ l, b < 16 ∨ b = 255) ∧ (∀ b ∈ l, b ≠ 255 → b ∈ l.take 64 ∧ b ∈ (l.drop 64).take 16)) ∧
    ¬ (List.replicate 215 255).length = 216 ∧ s.feature 3 = true ∧ (st 1).repartRefused l = false ∧
    (∀ e ∈ s.teams, s.layout.getD (clusterOf e.2.core) 255 = l.getD (clusterOf e.2.core) 255) ∧ Tab.sorted s.launches = true ∧
    (st 2).quietNow = true ∧ Tab.sorted s.mem = true ∧ Tab.sorted s.conns = true ∧
    (∃ t ∈ s.teams, s.layout.getD (clusterOf t.2.core) 255 ≠ (List.replicate 216 255).getD (clusterOf t.2.core) 255) := by decide +kernel

/-! ### The whole machine -/

theorem test_meets_fetch_traps :
    let s := State.reset.withFetchWord 32 0x750
    s.fetchIns (s.whoOf 0 placeWave) [] 0x4000010000 = .bad 0x05 2 0x4000010000 ∧
    ({ s with conns := [] } : State).fetchIns (s.whoOf 0 placeWave) [] placeFrag.pc = .broken ∧
    decode [0x3F1, 0, 0] = .illegalOpcode ∧ s.ready 1 0 = false := by decide

/-- A word held for the fragment is run in place of the one in memory, until the core gives it up (R218). -/
theorem test_held_word :
    let s := State.reset.withFetchWord 32 0x750
    s.fetchIns (s.whoOf 0 placeWave) [(placeAt, 0x0600_0760)] placeFrag.pc = .words [0x0600_0760] ∧
    (Tab.find 0 (giveUpTurn 0 0 placeFrag.pc (s.setFrag 0 0 (·.keep placeFrag.pc [0x0600_0760]))).waves).map
      (fun w => w.frags.map fun f => f.held) = some [[]] := by decide

theorem test_meets_handler_step :
    let s := State.reset.withFetchWord 32 0x0000200B
    s.agenda = [.alcove 0 0] ∧ (Tab.find 0 (s.cluster 0).ctxs).isSome = true ∧ (s.part (s.layout.getD 0 255)).faulting = false := by decide

/-- An instruction in a REP body that its opcode forbids, and one that names R65 without the hold. -/
theorem test_meets_checks :
    (Instr.bra xf).wellFormed = true ∧ (Instr.bra xf).form ≠ .event ∧ { placeFrag with rep := some ⟨0, 2, 3, 3, 0⟩ }.rep.isSome = true ∧
    repForbidden (insOf (.bra xf)).op = true ∧ placeWave.ext = false ∧
    lowestExt (insOf (.iadd { xf with t := 2, d := 127, a := 65 })).op (insOf (.iadd { xf with t := 2, d := 127, a := 65 })).f =
      some 65 ∧ (Instr.iadd { xf with t := 2, d := 127, a := 65 }).wellFormed = true := by decide

/-- Instructions with operands at their greatest values are well formed. -/
theorem test_meets_encode :
    (∀ j ∈ [Instr.iadd { xf with t := 7, d := 126, a := 126, b := 126 }, .braB32 { bf with b := 127 }, .push { xf with d := 40, a := 16, imm := 3 },
      .alLdw 0 0 31 31 0xFFF, .alStw 0 0 31 31 0xFFF, .alEnd 0 0 0 0 2, .alArg 0 0 1 0 15], j.wellFormed = true) ∧
    (Instr.iadd xf).form ≠ .event := by decide

/-- The memory of the placing is canonical, and a step from it answers a state. -/
theorem test_meets_canonical :
    memWf (State.reset.withFetchWord 32 0x750).mem ∧ ∃ t, step (State.reset.withFetchWord 32 0x750) = .next t := by
  refine ⟨memWf_memWrites memWf_nil 0 _, ?_⟩
  exact ⟨_, rfl⟩

/-! ### Further states: stops, waits, traps and the device's own moves -/

/-- JOIN and EXIT beside a fragment that a delivered fault has made due at its own JOIN. -/
theorem test_meets_due :
    let g : Frag := { frag1 with tokens := 0x8000, due := some ⟨0x21, 1, 0, 0⟩, wait := .join 15 (BitVec.ofNat 64 placeAt + 12) }
    let w := { placeWave with frags := [{ placeFrag with mask := 0xFFFFFFFE, tokens := 0x8000 }, g] }
    runs w { placeFrag with mask := 0xFFFFFFFE, tokens := 0x8000 } (.join { xf with imm := 15 }) ∧ w.active g = true ∧
    w.faults = [] ∧ g.due ≠ none ∧ placeFrag.due = none ∧ (0xFFFFFFFE : Word) ≠ 0 := by decide

/-- What an access of lane 0 fails with: v2, v3 name the address. -/
def failsAt (s : State) (tm : Team) (hi lo : Word) (n : Nat) (wr : Bool) : Option (Nat × Nat) :=
  accessFault s (s.partOf (wave1 [])) tm n n (!wr) wr (hi ++ lo : Dword)

/-- A window page bound to a page that may not be written. -/
def readOnly : State :=
  ({ sit (wave1 []) with teams := [(0, { placeTeam with pages := [(0, ⟨some (placeAt, 0), [], true⟩)] })] } : State).setPart 0
    fun t => { t with ptes := [⟨placeAt, 65536, 0, true, false, true⟩] }

/-- The failures of R99 and R103: misaligned, not canonical, not mapped, no permission, outside the window, a stash line. -/
theorem test_meets_access_traps :
    let s := sit (wave1 [])
    (∀ wr ∈ [true, false],
      failsAt s placeTeam 0x40 1 4 wr = some (0x04, 0) ∧ failsAt s placeTeam 0x40 6 8 wr = some (0x04, 0) ∧
      failsAt s placeTeam 0x80000000 0 4 wr = some (0x05, 0) ∧ failsAt s placeTeam 0x41 0 1 wr = some (0x05, 1) ∧
      failsAt s placeTeam 0xFF000000 4096 1 wr = some (0x07, 0)) ∧
    failsAt readOnly placeTeam 0x40 0 4 true = some (0x06, 0) ∧
    failsAt readOnly { placeTeam with pages := [(0, ⟨some (placeAt, 0), [], true⟩)] } 0xFF000000 0 4 true = some (0x06, 0) := by
  decide

/-- The instructions that access the address in v2, v3, by their first enabled lane. -/
theorem test_meets_access_trap_forms :
    let w := wave1 [(64, 1), (96, 0x40)]
    (∀ j ∈ [Instr.ld { xf with t := 6, d := 5, a := 2 }, .ldu { xf with t := 7, d := 6, a := 2 }, .ldB32 { bf with a := 2 },
        .lduB32 { bf with a := 2 }, .st { xf with t := 6, d := 5, a := 2 }, .stB32 { bf with a := 2 }, .sld { xf with a := 2 },
        .sst { xf with a := 2 }, .atom { xf with t := 6, a := 2, b := 4, d := 6 }, .acas { xf with t := 6, a := 2, b := 4, d := 6 },
        .aincb { xf with t := 6, a := 2, b := 4, d := 6 }], runs w frag1 j ∧ (at0 w frag1 j).lanes = [0] ∧
        (at0 w frag1 j).ea 0 = 0x4000000001) ∧ (sit w).teamOf w = some placeTeam := by decide

/-- A team whose window page another team's pages have displaced. -/
def full : State :=
  { sit (wave1 []) with teams := [(0, { placeTeam with pages := [(0, ⟨none, [], false⟩)] }),
      (1, { placeTeam with window := 1048576, waves := [] })] }
theorem test_meets_no_room :
    let c := at0 (wave1 [(96, 0xFF000000)]) frag1 (.ld { xf with t := 6, d := 5, a := 2 })
    let tm := { placeTeam with pages := [(0, ⟨none, [], false⟩)] }
    let a : Acc := ⟨0, c.ea 0, 4, 4, true, false⟩
    full.teamOf c.w = some tm ∧ c.failing full tm [a] = none ∧ full.breaks (full.partOf c.w) tm a = false ∧
    full.canPin 0 (teamAddrs [a]) = false ∧ c.w.faults = [] := by decide

/-- An access to a line of the stash page of stashTeam that is filled and dirty, and to one that nobody holds. -/
theorem test_meets_stash :
    let w := wave1 [(96, 0xFF000000)]
    let s := { sit w with teams := [(0, stashTeam)] }
    ∀ j ∈ [Instr.ld { xf with t := 6, d := 5, a := 2 }, .st { xf with t := 6, d := 5, a := 2, imm := 256 },
        .atom { xf with t := 6, d := 5, a := 2, b := 4, imm := 256 }],
      let c := at0 w frag1 j
      let t := (c.ea 0).toNat % 2 ^ 32
      met s 0 0 w frag1 j = true ∧ s.teamOf w = some stashTeam ∧
      c.failing s stashTeam [⟨0, c.ea 0, 4, 4, true, true⟩] = none ∧
      s.breaks (s.partOf w) stashTeam ⟨0, c.ea 0, 4, 4, true, true⟩ = false ∧ stashTeam.away (t / 4096) = false ∧
      placeOf s (s.partOf w) stashTeam (c.ea 0) = some (.stash t) ∧ (stashTeam.page t).bound = some (placeAt, 0) ∧
      t % 128 + 4 ≤ 128 ∧ (t % 4096) % 128 + 4 ≤ 128 ∧ s.clusters = [] ∧
      (t = 256 → ∀ e ∈ s.teams, ∀ q ∈ e.2.pages, q.2.dirtyOf (lineOf t) = none) ∧
      (∀ e ∈ s.teams, ∀ q ∈ e.2.pages, e.1 = 0 ∧ q.1 = 0) := by decide

/-- SACC with a stale scale of either operand. -/
theorem test_meets_sacc_stale :
    ∀ b ∈ [(1 : Nat), 2], let w := { placeWave with binds := [(b, 0x80000000)] }
      runs w placeFrag (.sacc { xf with t := 2, m := 7, b := 1, c := 2 }) ∧ bindStale (w.bind b) = true ∧
      (at0 w placeFrag (.sacc { xf with t := 2, m := 7, b := 1, c := 2 })).lanes ≠ [] := by decide

/-- SST .x of a stale scale, of one not bound to the stream, of a team without the engine, and with the FIFO full. -/
theorem test_meets_stream_stops :
    runs { placeWave with binds := [(3, 0x80000000)] } placeFrag (.sstStream { xf with m := 2, d := 3 }) ∧
    runs placeWave placeFrag (.sstStream { xf with m := 2, d := 3 }) ∧
    runs { placeWave with binds := [(3, mkBind 3 7)] } placeFrag (.sstStream { xf with m := 2, d := 3 }) ∧
    (at0 placeWave placeFrag (.sstStream { xf with m := 2, d := 3 })).lanes ≠ [] ∧
    ((sit placeWave).core 0).mx.holder ≠ some 0 ∧ 4096 < 4065 + 32 := by decide

theorem test_meets_stream_bindings :
    bindStale 0x80000000 = true ∧ bindStale 0 = false ∧ bindKind 0 ≠ 3 ∧ bindKind (mkBind 4 7) ≠ 3 ∧
    bindKind (mkBind 3 7) = 3 ∧ bindStale (mkBind 3 7) = false ∧
    (at0 placeWave placeFrag (.sstStream { xf with m := 2, g := { Guard.none with ge0 := true } })).lanes = [] := by decide

/-- A page of stashTeam to be made plain: no cluster and no other page holds a line of it. -/
theorem test_meets_plain :
    (stashTeam.page (4096 * 0)).bound = some (placeAt, 0) ∧ (placeAt, 0).2 % 128 = 0 ∧
    Tab.sorted (stashTeam.page (4096 * 0)).lines = true ∧
    (∀ e ∈ (stashTeam.page (4096 * 0)).lines, e.1 < 32) ∧ (Tab.getD Page.plain 0 stashTeam.pages).bound ≠ none ∧
    ∀ q ∈ stashTeam.pages, q.1 = 0 := by decide

/-- PREF of a line that no stop blocks. -/
theorem test_meets_pref :
    ∀ w ∈ [wave1 atGlobal, wave1 atWindow], let c := at0 w frag1 (.pref { xf with a := 2 })
      (sit w).breaks ((sit w).partOf w) placeTeam ⟨0, c.ea 0, 1, 1, false, false⟩ = false ∧
      ((sit w).translate 0 placeAt).map (fun x => x.1.r) = some true ∧ (sit w).lineOwner (lineOf 0) (coreOf 0) < 16 ∧
      (sit w).canPin 0 (teamAddrs [⟨0, c.ea 0, 1, 1, true, false⟩]) = true ∧ placeTeam.away 0 = false := by decide
/-- A commit that displaces the bank of a launch with a parked team on the core. -/
theorem test_meets_bank_spill :
    let b : Bank := { Bank.empty with owner := some 7 }
    let la : Launch := { placeLaunch with id := 7 }
    let s := ({ launched la placeWave with teams := [(0, { placeTeam with parked := true })] } : State).setCore 0
      fun x => { x with bank1 := b, pending := [⟨1, some 0, { b with owner := some 9 }⟩] }
    (s.core 0).pending = [⟨1, some 0, { b with owner := some 9 }⟩] ∧ s.bankLoser 0 1 (some 9) = some 0 := by decide

/-- Reads performed ahead: one older than the last read, and the last. -/
def aheadFrag : Frag :=
  { placeFrag with early := [(0x4000000000, ⟨4, 7, 0, none, true⟩), (0x4000000080, ⟨4, 8, 128, none, false⟩)] }
theorem test_meets_fence_early :
    let w := { placeWave with frags := [aheadFrag] }
    (∀ m ∈ [(2 : BitVec 3), 3], ∀ n ∈ [(2 : BitVec 7), 3], runs w aheadFrag (.fence { xf with m := m, c := n })) ∧
    (∃ e ∈ aheadFrag.early, e.2.aged = true) ∧ (∃ e ∈ aheadFrag.early, e.2.aged = false) ∧
    (at0 w aheadFrag (.fence { xf with m := 2 })).lanes ≠ [] := by decide

/-- A line that another cluster holds narrow-released, and one it wrote after a narrow release. -/
theorem test_meets_narrow_held :
    ∀ d ∈ [(⟨[(0, 1)], 1, 0, false⟩ : DirtyLine), ⟨[(0, 1)], 0, 1, false⟩],
      let s := (sit placeWave).setCluster 0 fun c => { c with dirty := [(0, d)] }
      Tab.find (lineOf 0) (s.cluster 0).dirty = some d ∧ (0 < d.narrow ∨ 0 < d.after) ∧ Tab.sorted s.clusters = true ∧
      Tab.sorted (s.cluster 0).dirty = true ∧ Tab.sorted d.bytes = true ∧ (∀ b ∈ d.bytes, b.1 < 128) ∧
      Tab.find (lineOf 0) (s.cluster 1).dirty = none ∧ ∀ e ∈ s.teams, e.2.pages = [] := by decide

/-- The BARA of the last fragment of a diverged wave, and one executed again where its arrival stands in the record. -/
theorem test_meets_bara_last :
    let w := { wave1 atBar with live := 3, frags := [frag1, { frag1 with mask := 2, wait := .retry }], arrivals := [⟨4080, 2⟩] }
    met (barState w) 0 0 w frag1 (.bara { xf with a := 6 }) = true ∧ (barState w).canPin 0 [4080] = true ∧
    (frag1.mask &&& ~~~(2 : Word)) ≠ 0 ∧ (w.live &&& ~~~((2 : Word) ||| frag1.mask)) = 0 ∧ barTeam.holds = [] ∧
    (barTeam.bar 4080).pending ≠ 0 ∧ (barTeam.bar 4080).expect ≠ 0 ∧ frag1.wait ≠ .held ∧
    (let w := { wave1 atBar with arrivals := [⟨4080, 1⟩] }
     met (barState w) 0 0 w frag1 (.bara { xf with a := 6 }) = true ∧ (frag1.mask &&& ~~~(1 : Word)) = 0) := by decide

/-- An object whose holds are for no initialisation and for a phase's arrivals, and what each update leaves sound. -/
theorem test_meets_holds :
    let h : Hold := ⟨4080, .wave 0, true⟩
    let tm := { barTeam with holds := [h, ⟨4080, .wave 1, false⟩] }
    (tm.holds.filter fun h => h.obj == 4080 && h.uninit) = [h] ∧ 1 < 2 ∧ 2 < 65536 ∧
    (∀ x ∈ barTeam.holds, x.obj ≠ 4080) ∧ (barTeam.bar 4080).phase < 2 ^ 32 ∧ (barTeam.bar 4080).pending < 65536 ∧
    (∃ x ∈ tm.holds, x.who = .wave 0 ∧ x.uninit = true) ∧ Tab.find 0 (barState (wave1 [])).waves = some (wave1 []) := by decide

/-- A BARW whose phase is not past, one that waits although it is, one with a fault pending, and one with no enabled lane. -/
theorem test_meets_barw_faults :
    let w := { wave1 atBar with faults := [⟨0x21, 1, 0, 0⟩] }
    met (barState w) 0 0 w frag1 (.barw { xf with a := 6, b := 4, d := 5 }) = true ∧ w.handlerFlag = false ∧
    (barState w).canPin 0 [4080] = true ∧ (wave1 atBar).faults = [] ∧
    (let fr := { frag1 with wait := .barw 4080 0 }
     let w := { wave1 atBar with frags := [fr] }
     met (barState w) 0 0 w fr (.barw { xf with a := 6, b := 4, d := 5 }) = true ∧ (barState w).teamOf w = some barTeam ∧
     fr.wait = .barw 4080 (w.reg 4 0)) := by decide

/-- A fragment that waits for a phase that an update makes past, in a wave without a fault. -/
theorem test_meets_wakes :
    let fr := { frag1 with wait := .barw 4080 0 }
    let w := { wave1 atBar with frags := [fr] }
    let s := barState w
    w.team = 0 ∧ w.faults = [] ∧ fr.wait = .barw 4080 0 ∧ 0 < (BitVec.ofNat 32 ((barTeam.bar 4080).phase + 1) - 0).toInt ∧
    Tab.find 0 s.waves = some w ∧ w.frags[0]? = some fr := by decide

/-- A waiting WAITA of a ready wave. -/
theorem test_meets_waita_ready :
    let fr := { frag1 with wait := .retry }
    let w := { wave1 atGlobal with frags := [fr] }
    ({ sit w with cur := none } : State).ready 0 0 = true := by decide
/-- WAITB with no enabled lane, and with a fault pending. -/
theorem test_meets_waitb :
    (let j := Instr.waitb { xf with a := 6, g := { Guard.none with ge0 := true } }
     runs placeWave placeFrag j ∧ (at0 placeWave placeFrag j).lanes = []) ∧
    (let w := { placeWave with faults := [⟨0x21, 1, 0, 0⟩] }
     runs w placeFrag (.waitb { xf with a := 6 }) ∧ (at0 w placeFrag (.waitb { xf with a := 6 })).lanes ≠ [] ∧
     w.handlerFlag = false ∧ ((sit w).core 0).copy0 = [] ∧ ((sit w).core 0).copy1 = []) := by decide

/-- A region whose wave holds 32 fragments: YLD at the batch size and GFLIP trap. -/
theorem test_meets_landing_full :
    let w := { region 7 with frags := frag1 :: List.replicate 31 fragR }
    runs w frag1 (.yld { xf with a := 8, imm := 1 }) ∧ runs w frag1 (.gflip xf) ∧ w.frags.length = 32 ∧
    w.landing.entries.length = 7 ∧ (at0 w frag1 (.yld { xf with a := 8, imm := 1 })).lanes = [0] ∧ (region 7).frags.length < 32 ∧
    w.landing.bsz = 0 ∧ ∀ g ∈ (region 7).frags, g.due = none := by decide

/-- SYSW of trap.pc outside a handler, and of host.req again once its request is answered. -/
theorem test_meets_sysw_again :
    Issues (sit placeWave) 0 0 placeWave placeFrag ∧ placeWave.handlerFlag = false ∧
    (let fr := { frag1 with wait := .host 5 }
     let w := { wave1 [(64, 1)] with frags := [fr] }
     runs w fr (.sysw { xf with imm := 8, a := 2 }) ∧ fr.wait = .host 5 ∧ ((sit w).part 0).reqs = []) :=
  ⟨⟨rfl, rfl, rfl⟩, by decide, by decide, rfl, rfl⟩

/-- A wave whose park ends: with nothing outstanding, at a waiting JOIN, beside a result outstanding and one of its table
loads. -/
theorem test_meets_park_ends :
    let w := { placeWave with parked := some 0, frags := [{ frag1 with wait := .join 3 0 }] }
    Tab.find 0 (sit w).waves = some w ∧ w.outstanding = 0 ∧ (sit w).teamOf w = some placeTeam ∧ placeTeam.dead = false ∧
    placeTeam.parked = false ∧ placeTeam.halt = none ∧
    (let s := (sit { placeWave with outstanding := 2 }).setCore 0 fun x => { x with pending := [⟨1, some 0, Bank.empty⟩] }
     ((s.core 0).pending.filter fun p => p.wave = some 0).length = 1) := by decide

/-- An evicted wave whose condition holds, and one whose condition does not. -/
theorem test_meets_evicted :
    (let w := { placeWave with spilt := true, evictable := true, frags := [{ placeFrag with wait := .retry }] }
     let s := { sit w with mem := memWrites [] 0 (bytesOfWords (encode (.waitb { xf with a := 6 }))) }
     s.canReturn 0 w = true ∧ s.wakesSpilt 0 w = true) ∧
    (let w := { placeWave with spilt := true, frags := [{ placeFrag with wait := .host 3 }] }
     let s := (sit w).setPart 0 fun t => { t with reqs := [⟨3, 0⟩] }
     s.canReturn 0 w = true ∧ s.wakesSpilt 0 w = false) := by decide

/-- The mailbox taking commands, a launch in flight, no launch named and nine. -/
theorem test_meets_preempt :
    let s := { sit placeWave with accepted := some 0x40 }
    s.repart = none ∧ s.box = [] ∧ s.stage = 6 ∧ s.accepted.isSome = true ∧ s.inFlight 0 placeLaunch.id = some 0 ∧
    s.feature 6 = true ∧ Tab.find 0 s.launches = some placeLaunch ∧ Tab.sorted s.teams = true :=
  ⟨rfl, rfl, rfl, rfl, by simp [State.inFlight, sit, State.placeWords, Tab.put, State.reset, placeLaunch, Launch.fresh],
    rfl, rfl, rfl⟩

theorem test_meets_preempt_counts (i : Word) : 1 ≤ [i].length ∧ [i].length ≤ 8 ∧ 8 < (List.replicate 9 i).length := by simp

/-- A halted team that a debugger steps: an instruction that ends the step, a trap, and a JOIN that waits. -/
theorem test_meets_step_runs :
    let tm := { placeTeam with halt := some ⟨0x12, 0, 0, 0, none⟩, step := some (0, some 0) }
    let st := fun (w : Wave) => ({ sit w with teams := [(0, tm)] } : State)
    (∀ j ∈ [Instr.nop xf, .bra xf, .iadd { xf with t := 2 }, .imulImm { xf with t := 2 }, .sel { xf with t := 2 }],
      met (st placeWave) 0 0 placeWave placeFrag j = true) ∧
    Tab.find 0 (st placeWave).teams = some tm ∧ tm.halt.isSome = true ∧ tm.step = some (placeWave.num, some 0) ∧
    (let w := { placeWave with frags := [{ placeFrag with mask := 0xFFFFFFFE }, { frag1 with tokens := 1 }] }
     met (st w) 0 0 w { placeFrag with mask := 0xFFFFFFFE } (.join xf) = true ∧ w.active { frag1 with tokens := 1 } = true) ∧
    (({ tm with step := some (0, some 1) } : Team).step = some (0, some 1)) := by decide

/-- A breakpoint on a lane and a REP iteration that fires at the next instruction. -/
def brk : Debug :=
  { Debug.fresh with taken := true, bpAddr := [(2, 0x4000000000)], bpCtl := [(2, 0xE0000001)] }
theorem test_meets_breakpoint :
    let fr := { placeFrag with rep := some ⟨0x4000000000, 1, 3, 2, 0⟩ }
    let w := { placeWave with frags := [fr] }
    let s := { launched { placeLaunch with dbg := brk } w with agenda := [.issue 0 0], cur := none }
    s.ready 0 0 = true ∧ ({ s with agenda := [] } : State).goes (0, 0) = true ∧ fr.wait = .none ∧
    s.launchOf w = some { placeLaunch with dbg := brk } ∧ brk.taken = true ∧
    (Tab.getD 0 2 brk.bpCtl).getLsbD 31 = true ∧ Tab.getD 0 2 brk.bpAddr = fr.pc ∧ 2 ∉ fr.bpSkip ∧
    fr.mask.getLsbD ((Tab.getD 0 2 brk.bpCtl).extractLsb' 24 5).toNat = true ∧ (3 - 2 : Word).toNat % 2 ^ 24 = 0xE0000001 % 2 ^ 24 ∧
    (Tab.getD 0 0 brk.bpCtl).getLsbD 31 = false ∧ (Tab.getD 0 1 brk.bpCtl).getLsbD 31 = false := by decide

/-- Watchpoints on loads of the first word of the placed page, and of the byte after it. -/
theorem test_meets_watchpoint :
    let d : Debug := { Debug.fresh with taken := true, wpAddr := [(0, 0x4000000000)], wpCtl := [(0, 0xA0000002)] }
    (Tab.getD 2 0 d.wpCtl).getLsbD 31 = true ∧ (Tab.getD 2 0 d.wpCtl).getLsbD 29 = true ∧
    (Tab.getD 2 0 d.wpCtl).toNat % 16 = 2 ∧ (Tab.getD 0 0 d.wpAddr).toNat = placeAt ∧
    (let c := at0 (wave1 atGlobal) frag1 (.ld { xf with t := 6, d := 5, a := 2 })
     (c.ea 0).toNat = placeAt ∧ (Tab.getD 2 1 d.wpCtl).getLsbD 31 = false ∧
     canB (launched { placeLaunch with dbg := d } (wave1 atGlobal)) c placeTeam [⟨0, c.ea 0, 4, 4, true, false⟩] = true) := by decide

/-- A LAUNCH that goes on at a lane, and one behind a LAUNCH that waits. -/
theorem test_meets_launch_order :
    (let fr := { frag1 with launchLane := some 0, wait := .retry, ticket := 4 }
     let w := { wave1 [] with frags := [fr] }
     let s := { sit w with nextLaunch := 1 }
     met s 0 0 w fr (.launch { xf with a := 8, d := 5 }) = true ∧ fr.launchLane.isSome = true ∧
     ((at0 w fr (.launch { xf with a := 8, d := 5 })).lanes.filter fun l => decide (0 ≤ l)) = [0]) ∧
    (let g := { frag1 with mask := 2, launchLane := some 1, wait := .retry, ticket := 0 }
     let w := { wave1 [] with frags := [frag1, g], live := 3 }
     let s := (sit w).setPart 0 fun p => { p with tickets := 1 }
     met s 0 0 w frag1 (.launch { xf with a := 8, d := 5 }) = true ∧ w.spilt = false ∧ w.frags[1]? = some g ∧
     s.letsFrag w 1 = true ∧ g.launchLane.isSome = true ∧ g.ticket < (s.part 0).tickets ∧ s.partOf w = 0) := by decide

/-- Two lanes that launch with one entry free. -/
theorem test_meets_launch_part :
    let w := { placeWave with frags := [{ frag1 with mask := 3 }], live := 3 }
    let s := { sit w with nextLaunch := 1, pools := [(16 * 6, (1, 1))] }
    met s 0 0 w { frag1 with mask := 3 } (.launch { xf with a := 8, d := 5 }) = true ∧ s.affected 0 = false ∧
    s.poolFree 6 0 s.childrenOf = 1 ∧ (at0 w { frag1 with mask := 3 } (.launch { xf with a := 8, d := 5 })).lanes.length = 2 := by
  decide
/-- TLPOP of a job whose tiles are all delivered. -/
theorem test_meets_tlpop_end :
    let done : Tile := { freshTile with team := some 0 }
    let j := { twoTiles done with tiles := [done], dies := 0 }
    let s := { sit (wave1 []) with jobs := [(0, j)] }
    met s 0 0 (wave1 []) frag1 (.tlpop { xf with d := 8, a := 4 }) = true ∧ Tab.find 0 s.jobs = some j ∧
    (∀ x ∈ j.tiles, x.team.isSome = true) ∧ (at0 (wave1 []) frag1 (.tlpop { xf with d := 8, a := 4 })).lanes ≠ [] := by decide

/-- The acceptance of a packet's launch, and of a child with no signal and with one, with good and bad fields. -/
theorem test_meets_acceptances :
    let la : Launch := { Launch.fresh 0 0 (some 0) 0 (.launch placeAt 32 1 1) with sig := placeAt + 64, staddr := placeAt + 72 }
    let s := { launched la placeWave with accepted := some 0x100 }
    la.stage = 2 ∧ la.queue.isSome = true ∧ la.sig % 8 = 0 ∧ s.usable 0 (addr la.sig) true true = true ∧ la.staddr % 8 = 0 ∧
    s.usable 0 (addr la.staddr) false true = true ∧ s.affected 0 = false ∧ (s.part 0).faulting = false ∧ la.error = none ∧
    s.usable 0 (addr 0x41) true true = false ∧ (6 : Nat) > 5 := by decide

/-- A signal packet with a status record and a signal, at its completion. -/
theorem test_meets_completion_record :
    let la : Launch := { Launch.fresh 0 0 (some 0) 0 (.signal (placeAt + 8) 3) with
      stage := 5, sigOk := true, sig := placeAt, staOk := true, staddr := placeAt + 16 }
    let s := launched la placeWave
    la.peerOut = 0 ∧ s.clusters = [] ∧ placeTeam.pages = [] ∧
    (∀ a ∈ [placeAt, placeAt + 8, placeAt + 16], classify (addr a) = .global a ∧ s.packetBreaks 0 (addr a) true = false ∧
      s.packetBreaks 0 (addr a) false = false ∧ (s.translate 0 a).map (fun x => (x.1.r && x.1.w, x.2 % 8)) = some (true, 0)) ∧
    (Launch.fresh 0 0 (some 0) 0 (.marker 0)).staOk = false ∧ (Launch.fresh 0 0 (some 0) 0 (.marker 0)).sigOk = false := by decide

/-- A line that stands in a slice. -/
def resident : SliceLine := ⟨0, false, false, false, false, false, .normal, 0, none⟩

theorem test_meets_handler :
    let s := hsit (trigOf .miss none) [(10, 0x4000000000)] []
    ∃ h, Tab.find 0 (s.cluster 0).ctxs = some h ∧ ctlBudget (Tab.getD 0 h.trig.cls.num (s.cluster 0).control) = 4096 ∧
      h.alcyc + 2 ≤ 4096 ∧ h.trig.retry < 3 ∧ h.x 10 = 0x4000000000 ∧ h.x 0 = 0 ∧ Tab.sorted (s.cluster 0).ctxs = true :=
  ⟨_, rfl, by decide⟩

/-- A line present, one that is not, and an address outside global memory. -/
theorem test_meets_handler_lines :
    let s := hsit (trigOf .miss none) [(10, 0x4000000000)] [(0, resident)]
    s.ownerOf 0 = 0 ∧ s.homeOf 0 (lineOf 0) = 0 ∧ Tab.find (lineOf 0) (s.cluster 0).slice = some resident ∧
    classify 0x4000000000 = .global placeAt ∧ (s.translate 0 placeAt).map (fun x => (x.1.r && x.1.w, x.2)) = some (true, 0) ∧
    s.ownsStop 0 0 = true ∧ lineOf 0 ∉ s.poison ∧ Tab.find (lineOf 0) ((hsit (trigOf .miss none) [] []).cluster 0).slice = none ∧
    (∀ va, classify 0xFF00000000000000 ≠ .global va) := by
  refine ⟨by decide, home_of_one _ _ _ _ (by decide), by decide, by decide, by decide, by decide, by decide, by decide, ?_⟩
  intro va h; revert h; simp [classify, bits]

/-- A present poisoned line, and a line behind a stop that the partition does not own. -/
theorem test_meets_handler_breaks :
    let s := { hsit (trigOf .miss none) [(10, 0x4000000000)] [(0, resident)] with poison := [0] }
    lineOf 0 ∈ s.poison ∧ s.repart = none ∧ resident.requested = false ∧ resident.inBuffer = false ∧
    (({ s with conns := [] } : State)).ownsStop 0 0 = false := by decide

/-- Two invocations: one with cycles left beside a turn of 2, and one without. -/
theorem test_meets_passing_cycles :
    let h := HCtx.start 0 (trigOf .fill none)
    let c := { Cluster.fresh with control := [(1, 0x88001000)], ctxs := [(0, h), (1, h), (2, { h with alcyc := 4094 })] }
    Tab.sorted c.ctxs = true ∧ ctlBudget (Tab.getD 0 h.trig.cls.num c.control) = 4096 ∧ h.alcyc + 2 < 4096 ∧ ¬ 4094 + 2 < 4096 := by
  decide

/-- AL.SEND to the pushing team's window, and without a record. -/
theorem test_meets_send :
    let s := hsit (trigOf .msg (some msgCmd)) [] []
    (0 : Nat) % 4 = 0 ∧ 0 + 4 ≤ placeTeam.window ∧ Tab.find msgCmd.team s.teams = some placeTeam ∧
    s.checkStash 0 placeTeam 0 = none ∧ s.breaks 0 placeTeam ⟨0, apertureOf 0, 4, 4, false, true⟩ = false ∧
    (trigOf .miss none).record = none := by decide +kernel

/-- AL.SEND to a stash-mapped line behind a stop of nobody. -/
theorem test_meets_send_breaks :
    let s := { hsit (trigOf .msg (some msgCmd)) [] [] with conns := [] }
    s.checkStash 0 { placeTeam with pages := [(0, ⟨some (placeAt, 0), [], true⟩)] } 0 = none ∧
    s.breaks 0 { placeTeam with pages := [(0, ⟨some (placeAt, 0), [], true⟩)] } ⟨0, apertureOf 0, 4, 4, false, true⟩ = true := by
  decide +kernel

/-- AL.END of each class, with a retry left and with none; a full class queue; a MISS whose read is in flight and one that has
come. -/
theorem test_meets_end :
    (2 : BitVec 12).toNat ≤ 2 ∧ (trigOf .fill none).retry < 3 ∧ ¬ { trigOf .fill none with retry := 3 }.retry < 3 ∧
    16 ≤ ((List.replicate 16 (trigOf .fill none)).filter fun t => t.cls == .fill).length ∧
    (SliceLine.asked .normal 0).requested = true ∧ { resident with inBuffer := true }.requested = false ∧
    ({ Cluster.fresh with slice := [(0, { resident with inBuffer := true })] } : Cluster).setFull 0 = false := by decide

/-- A base instruction that goes on, and a load that cannot be. -/
theorem test_meets_base :
    let s := hsit (trigOf .msg none) [] []
    let h := HCtx.start 0 (trigOf .msg none)
    rvStep (s.cluster 0) 0 h 4096 4 (.load .d 1 0 1) matches .exc ∧
      ((h.x 0 + (1 : BitVec 12).signExtend 64).toNat % sizeBytes .d ≠ 0) := by
  exact ⟨rfl, by decide⟩

/-- MISS of a line that no slice holds, of an enabled class that covers it, one not enabled, and one with a full queue. -/
theorem test_meets_miss :
    let s := hsit (trigOf .msg none) [] []
    let c := { s.cluster 0 with regs := [(0, 0x80000000, [(placeAt, 0, 65536)])] }
    s.lineOwner 0 0 < 16 ∧ Tab.find 0 (s.cluster 0).slice = none ∧ (Tab.getD 0 TrigClass.miss.num c.control).getLsbD 31 = true ∧
    c.regFor 0 0 = some (0, placeAt) ∧ (Tab.getD 0 TrigClass.fill.num c.control).getLsbD 31 = false ∧
    16 ≤ (({ c with classQ := List.replicate 16 (trigOf .miss none) } : Cluster).classQ.filter fun t => t.cls == .miss).length := by
  decide

/-- A request from a core whose L1 holds the line, and one whose L1 does not. -/
theorem test_meets_touch :
    (∀ x ∈ ((sit placeWave).core 0).l1, x.line ≠ 0) ∧ (∃ x ∈ [(⟨5, .normal⟩ : L1Line)], x.line = 5) := by decide

/-- A line requested, with and without its trigger, and one that its MISS has suppressed. -/
theorem test_meets_lines :
    let s := hsit (trigOf .miss none) [] [(0, .asked .normal 0), (1, .asked .stream 0),
      (2, { SliceLine.asked .normal 0 with passing := true })]
    (∀ l ∈ [0, 1, 2], s.slicesWith (·.requested) l = [0]) ∧ ((s.cluster 0).trigOn .miss 0).isSome = true ∧ (s.cluster 0).trigOn .miss 1 = none ∧
    (s.cluster 0).trigOn .miss 2 = none ∧ (s.cluster 0).setFull 1 = false ∧ (SliceLine.asked .normal 0).requested = true := by
  decide

/-- A set of lines that stand in the set of another, as many as it has ways: free ones, and held ones. -/
theorem test_meets_full_set (l : SliceLine) (h : l.placed = true) :
    ∃ (x : Nat) (ys : List Nat), ys.length = 16 ∧ ys.Nodup ∧ x ∉ ys ∧
      (({ Cluster.fresh with slice := ys.map fun y => (y, l) } : Cluster).setLines x) = ys.map fun y => (y, l) := by
  obtain ⟨b, hb⟩ := Finite.exists_infinite_fiber fun n : Nat => (⟨setOf n, Nat.mod_lt _ (by decide)⟩ : Fin Config.sliceSets)
  obtain ⟨t, ht, hc⟩ := (Set.infinite_coe_iff.1 hb).exists_subset_card_eq 17
  obtain ⟨x, hx⟩ := Finset.card_pos.1 (by rw [hc]; decide)
  have e : ∀ y ∈ t, setOf y = setOf x := fun y hy => by
    have := (ht hy).trans (ht hx).symm
    exact congrArg Fin.val this
  refine ⟨x, (t.erase x).toList, by rw [Finset.length_toList, Finset.card_erase_of_mem hx, hc], Finset.nodup_toList _, by simp, ?_⟩
  refine List.filter_eq_self.2 fun e' he => ?_
  obtain ⟨y, hy, rfl⟩ := List.mem_map.1 he
  rw [Finset.mem_toList, Finset.mem_erase] at hy
  simp [h, hy.1, e y hy.2]

theorem test_meets_full_set_lines : resident.placed = true ∧ { resident with holds := 1 }.placed = true ∧ resident.holds = 0 ∧
    { resident with noEvict := true }.noEvict = true ∧ Config.sliceWays ≤ 16 := by decide

/-- The last invocation of a context runs out of budget. -/
theorem test_meets_overrun :
    let s := hsit (trigOf .evict none) [] []
    (∀ e ∈ (s.cluster 0).ctxs, e.1 = 0) ∧ (trigOf .evict none).cls = .evict ∧ (trigOf .evict none).record = none := by decide
/-- A copy whose next word has been moved ahead, and one that moves a word ahead at its turn. -/
theorem test_meets_copy_ahead :
    let x := { cmdOf fillRec with ahead := [0] }
    let s := { csit [cmdOf fillRec] with agenda := [.copyAhead 0 0 0 4] }
    0 ∈ x.ahead ∧ x.next < payload x.record ∧ ((csit [x]).core 0).copies 0 = [x] ∧ s.agenda = [.copyAhead 0 0 0 4] ∧
    4 % 4 = 0 ∧ (cmdOf fillRec).next ≤ 4 ∧ 4 < recN (cmdOf fillRec).record 36 4 ∧ 4 ∉ (cmdOf fillRec).ahead ∧
    clearB s (BitVec.ofNat 64 (placeAt + 256 + 4)) 4 false true = true := by decide +kernel

/-- A tile that is popped, of a team that is parked. -/
theorem test_meets_tile_popped :
    let t : MxTile := ⟨[], [], [], []⟩
    let s := { msit mulRec { Mx.fresh (some 0) with tile := some t } with teams := [(0, { placeTeam with parked := true })] }
    (s.core 0).mx.tile = some t ∧ (s.core 0).mx.headHeld = false ∧ Tab.find 0 s.teams = some { placeTeam with parked := true } ∧
    (s.core 0).mx.holder = some 0 ∧ matrixPermBad s 0 { placeTeam with parked := true } (recOf mulRec) = false := by decide +kernel

/-- Drains and loads whose pages have room, and whose pages have none. -/
theorem test_meets_matrix_room :
    (∀ t ∈ drainWords (recOf (drainRec 0x22)), placeTeam.away (t / 4096) = false) ∧
    full.canPin 0 (drainWords (recOf (drainRec 0x22))) = false ∧ full.canPin 0 [recN (recOf arriveRec) 4 4] = false ∧
    (sit placeWave).canPin 0 [recN (recOf arriveRec) 4 4] = true ∧ ∀ q ∈ placeTeam.pages, q.2.pinned = true := by decide +kernel

/-- A launch that waits for bytes of a peer, and the turn of a peer's refusal. -/
theorem test_meets_peer :
    let la := { placeLaunch with peerOut := 8 }
    let s := { launched la placeWave with agenda := [.peerRefusal 0 4] }
    Tab.find 0 s.launches = some la ∧ 0 < 4 ∧ 4 ≤ la.peerOut ∧ s.agenda = [.peerRefusal 0 4] := by decide

/-- A TILES packet whose slot still holds a job, and packets that break one rule of R366 each. -/
theorem test_meets_busy_slot :
    let s := { qsit tilesPkt with jobs := [(0, twoTiles freshTile)] }
    recOp (recOf tilesPkt) = 4 ∧ recN (recOf tilesPkt) 24 1 < 16 ∧ Tab.find (16 * 0 + recN (recOf tilesPkt) 24 1) s.jobs ≠ none ∧
    s.pktOk 0 (recOf tilesPkt) = true ∧ s.pktOk 0 (recOf ((1, 2) :: markerPkt)) = false ∧
    s.pktOk 0 (recOf ((2, 6) :: markerPkt)) = false ∧ s.pktOk 0 (recOf ((8, 4) :: markerPkt)) = false := by decide +kernel

/-- A queue of a partition with a function, and one of a partition without. -/
theorem test_meets_functions :
    (qsit markerPkt).hasFunction 0 = true ∧
    (let s := { qsit markerPkt with queues := [(3, { HostQueue.fresh with owner := some 5 })], accepted := some 0 }
     s.feature 2 = false ∧ (s.queue 3).owner = some 5) := by decide +kernel

/-- A MARKER whose address fails its check, and a BARRIER one of whose signals cannot be read. -/
theorem test_meets_packet_addresses :
    (qsit markerPkt).usable 0 (addr 8) true true = false ∧ (8 : Nat) % 8 = 0 ∧ (qsit barrierPkt).usable 0 (addr 8) true false = false ∧
    (qsit barrierPkt).packetBreaks 0 (addr (placeAt + 128)) true = false := by decide +kernel
/-- The copy of a COPY packet: a word behind a stop of nobody, and one past what is mapped. -/
theorem test_meets_copy_packet_breaks :
    let s := { qsit copyPkt with conns := [] }
    s.packetBreaks 0 (addr placeAt) true = true ∧ s.packetBreaks 0 (addr (placeAt + 256)) false = true ∧
    s.usable 0 (addr placeAt) true false = true ∧ (qsit copyPkt).packetBreaks 0 (addr placeAt) true = false ∧
    (qsit copyPkt).packetBreaks 0 (addr (placeAt + 256)) false = false := by decide +kernel

/-- Records and experts that a TILES names, and a fill signal behind a stop of nobody. -/
theorem test_meets_tiles :
    let s := qsit tilesPkt
    recN (recOf tilesPkt) 26 2 = 1 ∧ recN (recOf tilesPkt) 28 4 = 1 ∧ s.usable 0 (addr (placeAt + 512)) true false = true ∧
    s.usable 0 (addr (placeAt + 1024)) true false = true ∧ s.packetBreaks 0 (addr (placeAt + 512)) true = false ∧
    s.packetBreaks 0 (addr (placeAt + 1024)) true = false ∧ (1 : Nat) % 8 ≠ 0 ∧ (0 : Nat) < 2 ^ 96 ∧
    ({ s with conns := [] } : State).packetBreaks 0 (addr placeAt) true = true := by decide +kernel

/-- The host's accesses: a line of a stop that the partition owns, one of none; a disabled port; the last bytes behind a stop. -/
theorem test_meets_host_stops :
    let s := { sit placeWave with accepted := some 0x1FF }
    s.feature 1 = true ∧ (Tab.find (64 + 0 / 2 ^ 33) s.conns).map (·.2) = some 0 ∧ Tab.find (64 + 2 ^ 33 / 2 ^ 33) s.conns = none ∧
    (0 : Nat) % 2 ^ 40 + 128 ≤ Config.stackBytes ∧ 0 + [(1 : Byte)].length ≤ 131072 ∧
    ({ s with accepted := some 0 } : State).feature 1 = false := by decide +kernel

/-- A partition fault over a line whose memory still holds what stood below the slice's bytes. -/
theorem test_meets_fault_below :
    let l : SliceLine := { resident with under := some (List.replicate 128 7) }
    let s := (sit placeWave).setCluster 0 fun c => { c with slice := [(0, l)] }
    s.layout.getD 0 255 = 0 ∧ Tab.sorted (s.cluster 0).slice = true ∧
    (Tab.find 0 (s.cluster 0).slice).bind SliceLine.under = some (List.replicate 128 7) ∧ ∀ c ∈ s.clusters, c.1 = 0 := by decide

/-- The mailbox with a command waiting, and with a SETQUEUE that waits for the pool. -/
theorem test_meets_mailbox_waits :
    let s := { sit placeWave with accepted := some 0x1FF }
    (¬ (({ s with box := [.idcert] } : State).repart = none ∧ ({ s with box := [.idcert] } : State).box = [])) ∧
    ({ s with box := [.features, .idcert] } : State).box = .features :: [.idcert] ∧
    (let t := { s with asks := [(5, 0)], pools := [(16 * 8, (0, 0))] }
     (t.queue 5).owner = none ∧ t.poolFree 8 0 t.queuesOf = 0 ∧ (t.queue 5).doorbell = (t.queue 5).rdidx ∧
     0 < s.poolFree 8 0 s.queuesOf ∧ ∀ e ∈ s.launches, e.2.queue ≠ some 5) := by decide +kernel

/-- An Alcove control word legal in one cluster and not beside the reservations of another. -/
theorem test_meets_alcove_clusters :
    let c := { Cluster.fresh with control := [(1, 0x88701000)] }
    (Tab.getD 0 1 c.control).toNat / 2 ^ 20 % 16 = 7 ∧ (0x88801000 : Word).toNat / 2 ^ 20 % 16 = 8 ∧ ¬ 7 + 8 ≤ 8 ∧
    (0x88001000 : Word).toNat / 2 ^ 20 % 16 = 0 ∧ (0x88001000 : Word).getLsbD 31 = true := by decide

/-- SETLINK of no entry and of a mask without the port's bit. -/
theorem test_meets_setlink :
    let s := { sit placeWave with accepted := some 0x1FF, links := [(3, (1 : BitVec 64) + (1 <<< 40))] }
    s.feature 4 = true ∧ 3 < 16 ∧ (List.range 8).filter (fun l => s.subLink 3 l == some 0) = [0] ∧ (8 : BitVec 16).getLsbD 3 = true ∧
    (∀ q, q < 16 → (8 : BitVec 16).getLsbD q = true → q = 3) ∧ (4 : BitVec 16).getLsbD 3 = false := by decide +kernel

/-- UPDATE from host memory with an image that is none. -/
theorem test_meets_update :
    let s := { sit placeWave with stage := 1 }
    s.stage = 1 ∧ leNat (memReads s.mem (24 * 2 ^ 40 + 8) 8) ≤ 2 ^ 26 ∧ s.clusters = [] ∧ (∀ e ∈ s.teams, e.2.pages = []) ∧
    imageOk [] = false := by decide +kernel

/-- Steps of a REPART in a layout that leaves nothing, with a team on a cluster that leaves, and at rest. -/
theorem test_meets_repart_steps :
    let s := { sit placeWave with accepted := some 0x1FF }
    let st := fun (n : Nat) => ({ s with repart := some ⟨placeLayout, n, [], [], []⟩ } : State)
    (∀ n ∈ [1, 2, 3, 4, 5, 6], ((st n).repart.map Repart.step) = some n) ∧ (st 1).repartRefused placeLayout = false ∧
    (st 2).quietNow = true ∧ (∀ e ∈ s.teams, s.layout.getD (clusterOf e.2.core) 255 = placeLayout.getD (clusterOf e.2.core) 255) ∧
    Tab.sorted s.launches = true ∧ Tab.sorted s.teams = true ∧ Tab.sorted s.waves = true ∧ Tab.sorted s.mem = true ∧
    (∃ e ∈ s.teams, s.layout.getD (clusterOf e.2.core) 255 ≠ (List.replicate 216 255).getD (clusterOf e.2.core) 255) ∧
    placeLayout.length = 216 ∧ (∀ b ∈ (placeLayout.drop 80).take 8, b = 255) := by decide +kernel

/-- An engine and a bank that a REPART spills. -/
theorem test_meets_repart_spill :
    let s := (sit placeWave).setCore 0 fun c =>
      { c with mx := Mx.fresh (some 0), bank1 := { Bank.empty with owner := some placeLaunch.id } }
    (s.core 0).mx.holder = some 0 ∧ (s.core 0).pending = [] ∧ Tab.find 0 s.launches = some placeLaunch ∧ s.launches.length = 1 :=
  ⟨rfl, rfl, rfl, rfl⟩

theorem test_meets_repart_bank :
    (((sit placeWave).setCore 0 fun c => { c with bank1 := { Bank.empty with owner := some placeLaunch.id } }).core 0).bank 1 =
      { Bank.empty with owner := some placeLaunch.id } := rfl

/-- The free slot complete and one above the committed SEQ, and not. -/
theorem test_meets_watchdog (l : List Nat) : (JRecord.sealed 1 l l []).digest = sha512 (journalBytes 1 l l []) ∧
    (JRecord.sealed 1 l l []).seq = 0 + 1 := by
  simp [JRecord.sealed]

theorem test_meets_watchdog_commit : State.reset.commit = (0, 0) ∧ JRecord.blank.seq = 0 := ⟨rfl, rfl⟩

theorem test_meets_core_number : 255 < 256 ∧ 1 ≤ 1 ∧ Tab.sorted State.reset.mem = true := by decide

/-- The placed instruction is fetched by a ready fragment that no breakpoint stops. -/
theorem test_meets_step :
    let s := State.reset.withFetchWord 32 0x750
    let a : State := { s with agenda := [] }
    s.agenda = [.issue 0 0] ∧ a.ready 0 0 = true ∧ a.goes (0, 0) = true ∧ Tab.find 0 s.waves = some placeWave ∧
    placeWave.frags[0]? = some placeFrag ∧ s.breakpoint placeWave placeFrag = none ∧
    (let u := { a.passOver 0 0 with cur := some (0, 0) }
     (u.fetchPrep (s.whoOf 0 placeWave) placeFrag.held placeFrag.pc).fetchIns (s.whoOf 0 placeWave) placeFrag.held placeFrag.pc =
       .words [0x750]) ∧
    decode [0x750] = .ok (.nopB32 bf) ∧ (s.whoOf 0 placeWave).part = 0 ∧ a.first [(0, 0)] = some (0, 0) ∧
    a.quadReady 0 0 = [(0, 0)] ∧ a.starved 0 0 = [] := by decide

/-- A fragment of a ready wave whose wait is not over: a WAITB, its batch in flight. -/
theorem test_meets_not_over :
    let w := { wave1 [(192, 1)] with sealed := 1, frags := [{ frag1 with wait := .retry }] }
    let m := memWrites [] 0 (bytesOfWords (encode (.waitb { xf with a := 6 })))
    let s := { (sit w).setCore 0 (fun x => { x with copy0 := [oneCopy] }) with cur := none, mem := m }
    s.ready 0 0 = true ∧ s.goes (0, 0) = false := by decide

/-- The context whose turn the round-robin order of its Alcove gives, and one whose turn it is not. -/
theorem test_meets_next_context :
    let s := State.reset.withFetchWord 32 0x0000200B
    s.agenda = [.alcove 0 0] ∧ (s.cluster 0).nextCtx = some 0 ∧ (s.cluster 0).nextCtx ≠ some 1 ∧
    (s.part (s.layout.getD 0 255)).faulting = false := by decide

/-- An instruction in a REP body that may not stand there, and SYSW of trap.pc outside a handler that names R65 without the
hold. -/
theorem test_meets_check_order :
    Issues (sit placeWave) 0 0 placeWave placeFrag ∧ (insOf (.sysw { xf with imm := 4, a := 64 })).op = 0x1E4 ∧
    (Instr.sysw { xf with imm := 4, a := 64 }).wellFormed = true ∧ (Instr.sysw { xf with imm := 4, a := 64 }).form ≠ .event ∧
    placeWave.handlerFlag = false ∧ Placed (insOf (.nop xf)) placeWave placeFrag ∧
    Placed (insOf (.iadd { xf with t := 2, d := 127, a := 65 })) placeWave placeFrag :=
  ⟨⟨rfl, rfl, rfl⟩, by decide, by decide, by decide, rfl, ⟨.inl rfl, .inl (by decide)⟩, ⟨.inl rfl, .inl (by decide)⟩⟩

/-! ### States that meet the hypotheses of further clauses -/

/-- A wave outside a region and a handler, one in a region with consumers, and one of whose handler a lane waits in TRET. -/
theorem test_meets_formed :
    placeWave.Formed ∧ (region 3).Formed ∧
    ({ inHandler [{ placeFrag with mask := 2, handler := true, wait := .tret }] with live := 3, tretLanes := 2 } : Wave).Formed :=
  ⟨⟨by decide, by decide, by decide, by decide, by decide, by decide, by decide⟩,
   ⟨by decide, by decide, by decide, by decide, by decide, by decide, by decide⟩,
   ⟨by decide, by decide, by decide, by decide, by decide, by decide, by decide⟩⟩

theorem test_meets_formed_step :
    let s := State.reset.withFetchWord 32 0x750
    s.agenda = [.issue 0 0] ∧ Tab.sorted s.waves = true ∧ s.waves = [(0, placeWave)] ∧ ∃ t, step s = .next t :=
  ⟨by decide, by decide, by decide, _, rfl⟩

/-- Words resolved before their page had the binding it has now: under a plain page, and under a binding that it has no more. -/
theorem test_meets_other_binding :
    let c := fun (b : Option (Nat × Nat)) =>
      at0 (wave1 []) { frag1 with early := [((apertureOf 0).toNat, ⟨4, 7, 0, b, false⟩)] } (.st { xf with t := 6 })
    let s := fun (tm : Team) => ({ sit (wave1 []) with teams := [(0, tm)] } : State)
    (∀ b, (Tab.find (apertureOf 0).toNat (c b).fr.early) = some ⟨4, 7, 0, b, false⟩) ∧
    (s stashTeam).teamOf (c none).w = some stashTeam ∧ stashTeam.boundAt (apertureOf 0) = some (placeAt, 0) ∧
    (s placeTeam).teamOf (c none).w = some placeTeam ∧ placeTeam.boundAt (apertureOf 0) = none ∧
    ((s placeTeam).translate 0 (placeAt + (apertureOf 0).toNat % 4096)).map (fun x => x.1.w) = some true ∧
    placeTeam.pages = [] ∧ (s placeTeam).clusters = [] :=
  ⟨fun _ => rfl, by decide, by decide, by decide, by decide, by decide, by decide, by decide⟩

/-- Pages that can be pinned, and a requested line of a pinned page. -/
theorem test_meets_pinned :
    (sit (wave1 toBind)).canPin 0 [0] = true ∧ (stashTeam.page (4096 * 0 + 128 * 31)).pinned = true := by decide

/-- A read performed ahead over which a write is not followed by a release. -/
theorem test_meets_hidden :
    let x : Loose := ⟨0, [7, 0, 0, 0], [(1, 1)]⟩
    ∃ e ∈ aheadFrag.early, e.2.aged = true ∧ x.loc ≤ e.2.loc ∧ e.2.loc + e.2.n ≤ x.loc + x.old.length ∧
      leNat ((x.old.drop (e.2.loc - x.loc)).take e.2.n) = e.2.v := by decide

/-- A BARW that a fault has stopped; waves in which a fault stops a fragment, and ones in which it does not. -/
theorem test_meets_stopped :
    let a : AsyncFault := ⟨0x21, 1, 0, 0⟩
    let fr := { frag1 with wait := .stopped a }
    let w := { wave1 atBar with frags := [fr] }
    met (barState w) 0 0 w fr (.barw { xf with a := 6, b := 4, d := 5 }) = true ∧ fr.wait = .stopped a ∧
    Tab.find 0 (barState w).waves = some w ∧ w.team = 0 ∧ (∀ f ∈ (wave1 atBar).frags, ∀ o p, f.wait ≠ .barw o p) ∧
    (∃ f ∈ ({ wave1 atBar with frags := [{ frag1 with wait := .barw 4080 0 }] } : Wave).frags, f.wait = .barw 4080 0) ∧
    (∀ a, placeFrag.wait ≠ .stopped a) ∧ (inHandler []).handlerFlag = true := by
  intro a fr w
  refine ⟨by decide, rfl, rfl, rfl, ?_, by decide, ?_, rfl⟩
  · intro f hf o p
    simp only [wave1, List.mem_singleton] at hf
    simp [hf, frag1, placeFrag, freshFrag]
  · simp [placeFrag, freshFrag]

/-- A trap held by Leyth in a handler, and where there is no vector. -/
theorem test_meets_pending_halts :
    let h : Halt := ⟨0x13, 0, 0, 0, some { code := 0x13 }⟩
    ∀ w ∈ [placeWave, inHandler []], ∀ la ∈ [placeLaunch, vecLaunch],
      let s := { launched la w with teams := [(0, { placeTeam with halt := some h })] }
      h.pending = some { code := 0x13 } ∧ Tab.find h.wave s.waves = some w ∧ w.team = 0 ∧ (w.frags[h.frag]?).isSome = true ∧
      Tab.find placeTeam.launch s.launches = some la := by decide

/-- A request that an answer above 2 leaves, and one of a partition without a function. -/
theorem test_meets_no_answer :
    let w := { wave1 [] with frags := [{ frag1 with wait := .host 5 }] }
    let s := { sit w with accepted := some 0 }.setPart 3 fun t => { t with reqs := [⟨5, 0⟩] }
    (s.part 3).reqs.find? (fun x => x.tag == 5) = some ⟨5, 0⟩ ∧ Tab.find 0 s.waves = some w ∧ 2 < (3 : Word).toNat ∧
    s.feature 2 = false ∧ 3 ≠ 0 := by decide

/-- A lane-step on a fragment that waits in TRET. -/
theorem test_meets_tret_step :
    let fr := { placeFrag with handler := true, wait := .tret }
    let w := { inHandler [] with frags := [fr] }
    w.fragAt 3 = some 0 ∧ w.frags[0]? = some fr ∧ fr.mask ≠ 1#32 <<< 3 ∧ w.landing.inReg = false := by decide

/-- A LAUNCH that a halt has stopped, alone and behind a LAUNCH that waits. -/
theorem test_meets_launch_stopped :
    let fr := { frag1 with launchLane := some 0, ticket := 4 }
    let g := { frag1 with mask := 2, launchLane := some 1, wait := .retry, ticket := 0 }
    ∀ gs ∈ [[], [g]], let w := { wave1 [] with frags := fr :: gs, live := 3 }
      let s := { sit w with nextLaunch := 1 }.setPart 0 fun p => { p with tickets := 1 }
      met s 0 0 w fr (.launch { xf with a := 8, d := 5 }) = true ∧ fr.launchLane.isSome = true ∧ fr.wait ≠ .retry ∧
      w.spilt = false ∧ (gs = [g] → s.letsFrag w 1 = true) ∧ s.partOf w = 0 ∧ g.ticket < (s.part 0).tickets ∧ s.affected 0 = false ∧
      1 ≤ s.poolFree 6 0 s.childrenOf := by decide

/-- Windows of R300 by their cases, with footprints under and over the bound and cycles even and not. -/
theorem test_meets_choices :
    let g := fun (ns : List Nat) (f c : Nat) => (⟨0, (0, 0, 0), (4, 2, 1), ns, f, 0, c⟩ : GroupRec)
    let d : Desc := { Desc.zero with xs := [4, 2], ys := [2], zs := [1], lo := 1, hi := 512 }
    (g [] 1 1).cls = .clean ∧ (g [0, 4] 1 1).cls = .column ∧ (g [0, 1, 2, 3] 1 1).cls = .row ∧ (g [0] 1 1).cls = .scattered ∧
    d.shapes = [(4, 2, 1), (2, 2, 1)] ∧ (g [0, 4] 1 1).bounds false = [1] ∧ (g [0, 1, 2, 3] 1 1).bounds true = [1] ∧
    10000 * items (4, 2, 1) > 65536 ∧ 10000 * items (2, 2, 1) ≤ 65536 ∧ 20000 * items (2, 2, 1) > 65536 ∧
    2 * (1 * items (4, 2, 1)) < 3 * items (4, 2, 1) ∧ 2 * items (2, 2, 1) ≤ items (4, 2, 1) := by decide

/-- An acceptance whose DESC is misaligned. -/
theorem test_meets_misaligned_desc :
    let la : Launch := { Launch.fresh 0 0 none 0 (.launch (placeAt + 4) 32 1 1) with acq := 5, rel := 5 }
    la.stage = 2 ∧ la.queue = none ∧ la.error = none ∧ (placeAt + 4) % 128 ≠ 0 := by decide

/-- A word held back by one that lands on the same destination, and by one whose page is not pinned. -/
theorem test_meets_copy_held :
    let who : Who := ⟨0, 0, 0, true, .normal, none⟩
    let r := recOf [(0, 0x15), (36, 8192), (24, 0xFF00000000000000)]
    unpinned.unpinnedAt (recDst r + BitVec.ofInt 64 0) = some 0 ∧
    (csit []).checkAccess 0 unpinned (recDst r + BitVec.ofInt 64 0) 1 4 false true = none ∧ 4096 < recN r 36 4 ∧
    (let s := (csit []).setPart 0 fun p => { p with ptes := [⟨placeAt, 65536, 0, true, true, true⟩, ⟨placeAt + 65536, 65536, 0, true, true, true⟩] }
     s.locOf who (BitVec.ofNat 64 placeAt) = s.locOf who (BitVec.ofNat 64 (placeAt + 65536))) := by decide +kernel

/-- A fault of a wave that has exited, its team there. -/
theorem test_meets_exited_wave :
    let s := { csit [] with waves := [] }
    (∀ w, Tab.find 0 s.waves = some w → w.team ≠ 0) ∧ Tab.find 0 s.teams = some placeTeam ∧
    Tab.find placeTeam.launch s.launches = some placeLaunch := by
  intro s
  exact ⟨fun _ h => (nomatch (show none = some _ from h)), rfl, rfl⟩

/-- A TILES with no dispatcher slot free. -/
theorem test_meets_no_tiles_slot :
    let s := { qsit tilesPkt with pools := [(16 * 5, (0, 0))] }
    s.poolFree 5 0 s.jobsOf = 0 ∧ s.pktOk 0 (recOf tilesPkt) = true := by decide +kernel

/-- The host's accesses with the virtual functions, of bytes behind a stop and of bytes behind none. -/
theorem test_meets_host_functions :
    let s := { sit placeWave with accepted := some 0x1FF }
    s.feature 1 = true ∧ s.feature 2 = true ∧ 0 + 128 ≤ Config.stackBytes ∧ (25 : Nat) * 2 ^ 40 / 2 ^ 40 > 24 ∧
    ({ s with accepted := some 1 } : State).feature 2 = false := by decide
/-- A GEN, XLOCK and EXIT beside a spilt wave of the same launch that holds a slot and a row; the last EXIT of a wave that no
lane-step has touched. -/
theorem test_meets_kept :
    (let g := { region 3 with spilt := true, ext := true, num := 1 }
     let s := { sit placeWave with waves := [(0, placeWave), (4, g)] }
     s.landingKept (quadOf (slotOf 0)) placeWave = 1 ∧ s.landingUse (quadOf (slotOf 0)) = 0) ∧
    placeWave.kin = [] ∧ placeWave.late = 0 ∧ placeWave.landing.inReg = false := by decide

/-- Words read ahead of an LD, of the blocks and scales of an LDBF, and of a WAITA. -/
theorem test_meets_reads_ahead :
    let fr := { frag1 with early := [(0x4000000000, ⟨4, 7, 0, none, false⟩)] }
    let w := { wave1 atGlobal with frags := [fr] }
    ∀ j ∈ [Instr.ld { xf with t := 6, d := 5, a := 2 }, .ldbf { xf with a := 2, d := 8, t := 6 },
        .waita { xf with t := 6, d := 6, a := 2, b := 8 }],
      runs w fr j ∧ (at0 w fr j).ea 0 = 0x4000000000 ∧ fr.wait = .none ∧
      Tab.find 0x4000000000 ((sit w).sameWrite ((at0 w fr j).who (sit w)) 4 [0x4000000000] fr.early) = some ⟨4, 7, 0, none, false⟩ := by
  decide

/-- One location by two addresses: a stash page of the window and the global page that it is bound to. -/
theorem test_meets_same_write :
    let s := { sit (wave1 []) with teams := [(0, stashTeam)] }
    s.sameWrite (s.whoOf 0 (wave1 [])) 4 [0xFF00000000000004, 0x4000000004] [(0x4000000004, ⟨4, 7, 4, none, false⟩)] =
      if s.locOf (s.whoOf 0 (wave1 [])) 0xFF00000000000004 = 4 then [] else [(0x4000000004, ⟨4, 7, 4, none, false⟩)] := by
  decide

/-- Pages bound and made plain behind stops of nobody: a dirty line, a line to fill, and a line whose bytes are to be kept. -/
theorem test_meets_page_stops :
    let c := at0 (wave1 toBind) frag1 (.stash { xf with a := 2, b := 4 })
    let lost : Team :=
      { placeTeam with pages := [(0, ⟨some (placeAt, 0), [(1, ⟨false, none, false, false, true⟩)], true⟩)] }
    (∀ tm ∈ [placeTeam, stashTeam, lost], let s := { sit c.w with teams := [(0, tm)], conns := [] }
      s.ownsStop (s.partOf c.w) 0 = false ∧ s.ownsStop (s.partOf c.w) 128 = false ∧ s.teamOf c.w = some tm ∧
      ((s.translate (s.partOf c.w) placeAt).map fun x => (x.1.r, x.2)) = some (true, 0) ∧
      classify (c.ea 0) = .scratch 0 ∧ (bits (c.ea 0) 0 32).toNat = 0) ∧
    (stashTeam.page 0).bound = some (placeAt, 0) ∧ ((stashTeam.page 0).line 0).dirty ≠ none ∧
    ((lost.page 0).line 128).filled = false ∧ ((lost.page 0).line 128).away = true ∧
    (let s := { sit c.w with teams := [(0, lost)], poison := [1] }
     lineOf 128 ∈ s.poison ∧ s.ownsStop 0 128 = true) := by decide

/-- The fill of a requested line of stashTeam's page: quiet, behind a stop of nobody, and poisoned. -/
theorem test_meets_stash_fill :
    let s := { sit placeWave with teams := [(0, { stashTeam with pages := [(0, ⟨some (placeAt, 0), [(31, ⟨false, none, true, false, false⟩)], true⟩)] })] }
    let tm : Team := { stashTeam with pages := [(0, ⟨some (placeAt, 0), [(31, ⟨false, none, true, false, false⟩)], true⟩)] }
    let a : Acc := ⟨0, apertureOf (4096 * 0 + 128 * 31), 128, 128, true, false⟩
    Tab.find 0 s.teams = some tm ∧ ((tm.page (128 * 31)).line (128 * 31)).requested = true ∧
    s.breaks 0 tm a = false ∧ (∀ e ∈ s.teams, ∀ q ∈ e.2.pages, q.2.dirtyOf (lineOf (128 * 31)) = none) ∧ s.clusters = [] ∧
    ({ s with conns := [] } : State).breaks 0 tm a = true ∧ ({ s with poison := [31] } : State).breaks 0 tm a = true := by
  decide

/-- A line that two clusters have requested; one that stands in the slices of one, and of two. -/
theorem test_meets_two_slices :
    let x := SliceLine.asked .normal 0
    let s := (hsit (trigOf .miss none) [] [(5, x), (7, resident)]).setCluster 1 fun c => { c with slice := [(5, x)] }
    s.slicesWith (·.requested) 5 = [0, 1] ∧ s.slicesWith SliceLine.placed 7 = [0] ∧ resident.requested = false ∧
    resident.inBuffer = false ∧ Tab.find 7 (s.cluster 0).slice = some resident ∧ Tab.sorted s.clusters = true := by decide

/-- A message that its handler has ended with a retry, at the head of queue 3, with and without one in the class queue. -/
theorem test_meets_again :
    let y := { trigOf .msg (some msgCmd) with retry := 1 }
    let s := (hsit (trigOf .msg none) [] []).setCluster 0 fun c => { c with queue := [.again y, .fresh msgCmd] }
    (s.cluster 0).queue = .again y :: [.fresh msgCmd] ∧ (∀ t ∈ (s.cluster 0).classQ, t.cls ≠ .msg) ∧
    (s.part (s.ownerOf 0)).faulting = false ∧
    (∃ t ∈ ((s.setCluster 0 fun c => { c with classQ := [y] }).cluster 0).classQ, t.cls = .msg) := by decide +kernel

/-- A snoop of a line that a slice holds over memory not yet written back, and of one that a handler still holds. -/
theorem test_meets_snoop_slices :
    let l : SliceLine := { resident with under := some (List.replicate 128 7) }
    let s := (sit placeWave).setCluster 0 fun c => { c with slice := [(3, l), (4, { l with holds := 1 })] }
    3 / 2 ^ 33 ≤ 24 ∧ Tab.sorted s.clusters = true ∧ Tab.find 3 (s.cluster 0).slice = some l ∧ l.holds = 0 ∧
    Tab.find 4 (s.cluster 0).slice = some { l with holds := 1 } := by decide

/-- A link value that changes a sub-link of a partition that the REPART leaves alone, and one that does not. -/
theorem test_meets_link_kept :
    let l := placeLayout.take 88 ++ 3 :: List.replicate 127 0
    let s := { sit placeWave with layout := l, links := [(0, 0x317)], repart := some ⟨l, 6, [], [], []⟩ }
    laneOwner s.layout 0 0 = 3 ∧ s.affected (laneOwner s.layout 0 0) = false ∧
    linkOk l 0 0x317 = true ∧ linkOk l 0 ((0x317 : BitVec 64) + (1 <<< 40)) = true ∧
    ((0x317 : BitVec 64) + (1 <<< 40)).getLsbD 40 ≠ (0x317 : BitVec 64).getLsbD 40 := by decide +kernel

/-- A copy behind one that has not been checked, and behind one that has. -/
theorem test_meets_check_in_order :
    let u := { cmdOf fillRec with checked := false }
    let waits := fun (s : State) => ∃ y ∈ ((s.core 0).copies 0).take 1, y.checked = false ∧ (Tab.find y.team s.teams).isSome = true
    waits (csit [u, u]) ∧ ¬ waits (csit [cmdOf fillRec, u]) := by decide +kernel

/-- Turns: cycles of a core in which nothing issues, and a word that a LOADC reads ahead. -/
theorem test_meets_turns :
    ({ sit placeWave with agenda := [.cycles 0 64] } : State).agenda = .cycles 0 64 :: [] ∧
    (let s := { msit (drainRec 0x23) (Mx.fresh (some 0)) with agenda := [.loadAhead 0 3] }
     s.agenda = .loadAhead 0 3 :: [] ∧ recN (recOf (drainRec 0x23)) 4 2 = 2 ∧ 3 < 2 * recN (recOf (drainRec 0x23)) 8 2 ∧
     Tab.find 3 (s.core 0).mx.ahead = none ∧ (s.core 0).mx.headHeld = false) := by decide +kernel

/-- A drain and a load of a stash-mapped page behind a stop of nobody, a load of a poisoned line, and pages without room. -/
theorem test_meets_matrix_stops :
    let tm := { placeTeam with pages := [(0, ⟨some (placeAt, 0), [], true⟩)] }
    let at' := fun (op : Nat) => ({ msit (drainRec op) (Mx.fresh (some 0)) with teams := [(0, tm)] } : State)
    (∀ op ∈ [(0x22 : Nat), 0x23], ∃ n ∈ drainWords (recOf (drainRec op)),
      ({ at' op with conns := [] } : State).breaks 0 tm ⟨0, apertureOf n, 4, 4, op == 0x23, op != 0x23⟩ = true) ∧
    (∃ n ∈ drainWords (recOf (drainRec 0x23)),
      ({ at' 0x23 with poison := [0] } : State).breaks 0 tm ⟨0, apertureOf n, 4, 4, true, false⟩ = true) ∧
    (at' 0x22).repart = none ∧ matrixPermBad (at' 0x22) 0 tm (recOf (drainRec 0x22)) = false ∧
    (∀ n ∈ drainWords (recOf (drainRec 0x22)), full.breaks 0 placeTeam ⟨0, apertureOf n, 4, 4, false, true⟩ = false) := by
  decide +kernel

/-- A bank that a REPART has spilt, its place on the core free. -/
theorem test_meets_bank_back :
    let b : Bank := { Bank.empty with owner := some 7 }
    let s := (sit placeWave).setCore 0 fun c => { c with banksSpilt := [(1, b)] }
    let r : Repart := ⟨placeLayout, 6, [], [], [(0, 1)]⟩
    (0, 2 * 0 + 1) ∈ r.banks ∧ (∀ y ∈ r.banks, y.1 = 0 → y.2 % 2 = 1 → y.2 = 2 * 0 + 1) ∧
    Tab.find (2 * 0 + 1) (s.core 0).banksSpilt = some b ∧ ((s.core 0).bank 1).owner = none := by
  intro b s r
  exact ⟨by decide, by decide, rfl, rfl⟩

/-! ### One step, against the spec's own examples and tables -/

/-- The instruction of the words, run by one lane with registers in a state: what it answers. -/
def ran (ws : List Word) (regs : Tab Word) (g : State → State := id) : Option State :=
  match decode ws with
  | .ok j =>
    match exec j (g (sit (wave1 regs))) with
    | .next t => some t
    | _ => none
  | _ => none

/-- Lane 0 of register r after it. -/
def got (r : Nat) (ws : List Word) (regs : Tab Word) : Option Word :=
  (ran ws regs).bind fun t => (Tab.find 0 t.waves).map fun w => w.reg r 0

/-- Lane 0 of v6 and of v7. -/
def v67 (a b : Word) : Tab Word := [(192, a), (224, b)]

/-- R147's example. -/
theorem test_imulh : got 5 [0x0E182A40] (v67 0x80000000 2) = some 0xFFFFFFFF := by decide

/-- R148: the carry out of all ones plus one, by the table's words. -/
theorem test_iaddc :
    got 5 [0x00C14031, 0x02024407, 0] (v67 0xFFFFFFFF 1) = some 0 ∧ got 9 [0x00C14031, 0x02024407, 0] (v67 0xFFFFFFFF 1) = some 1 := by
  decide

/-- R150's table. -/
theorem test_idiv :
    ∀ x ∈ [(7, -2, -3, 1), (-7, 2, -3, -1), (5, 0, -1, 5), (-2147483648, -1, -2147483648, 0)],
      let regs := v67 (BitVec.ofInt 32 x.1) (BitVec.ofInt 32 x.2.1)
      got 5 [0x00C140B1, 0x02024007, 0] regs = some (BitVec.ofInt 32 x.2.2.1) ∧
      got 9 [0x00C140B1, 0x02024007, 0] regs = some (BitVec.ofInt 32 x.2.2.2) := by decide

/-- R151's example. -/
theorem test_isat :
    got 5 [0x00C140F1, 0, 0] (v67 0xFFFFFF00 0) = some 0xFFFFFF80 ∧ got 5 [0x00C140F1, 0x04200000, 0] (v67 0xFFFFFF00 0) = some 0xFF := by
  decide

/-- R153's example. -/
theorem test_bfx :
    got 5 [0x00C14191, 0x02000000, 0x00810000] (v67 0xF80 0) = some 0xFFFFFFF8 ∧
    got 5 [0x00C14191, 0x06000000, 0x00810000] (v67 0xF80 0) = some 0xF8 := by decide

/-- R152: SAR by its low five bits, with the sign entering. -/
theorem test_sar : got 5 [0x0E182970] (v67 0x80000000 33) = some 0xC0000000 := by decide

/-- R149: a negative trit subtracts. -/
theorem test_icsadd :
    got 5 [0x00A140A1, 0x02000407, 0] [(160, 10), (224, 3), (256, 0xFFFFFFFF)] = some 7 := by decide

/-- R164's example of MATCH over lanes 0 to 3. -/
theorem test_match_lanes :
    (match exec (.matchLanes { xf with d := 5, a := 6, t := 2 })
      (sit { placeWave with frags := [{ placeFrag with mask := 15 }], regs := [(192, 7), (193, 9), (194, 7), (195, 7)] }) with
    | .next t => (Tab.find 0 t.waves).map fun w => (List.range 4).map fun l => w.reg 5 l
    | _ => none) = some [13, 2, 13, 13] := by decide

/-- R204's example of SACC: kB = k3 and kC = k4 hold 0x81 and 0x7F in lane 0. -/
theorem test_sacc :
    (match exec (.sacc { xf with t := 2, d := 5, a := 6, b := 3, c := 4, m := 3 })
      (sit { wave1 [(160, 0x3F000000), (192, 96)] with scales := [(96, 0x81)] }) with
    | .next t => (Tab.find 0 t.waves).map fun w => w.reg 5 0
    | _ => none) = some 0x42420000 := by decide

/-- R205's example: SQRY of k3, bound to v8 to v11, after v9 has been written. -/
theorem test_sqry :
    (match exec (.iaddImm { xf with t := 2, d := 9, a := 9 }) (sit { wave1 [] with binds := [(3, 0x10000188)] }) with
    | .next t =>
      match exec (.sqry { xf with d := 5, a := 3 }) t with
      | .next t => (Tab.find 0 t.waves).map fun w => w.reg 5 0
      | _ => none
    | _ => none) = some 0x90000188 := by decide

/-- R186's example of BFPQ, lanes 0 to 3 of the register. -/
theorem test_bfpq :
    (match decode [0x00C15841, 0x02000180, 0] with
    | .ok j =>
      match exec j (sit { placeWave with regs := [(192, 0x40400000), (193, 0xBF400000), (194, 0x3DCCCCCD)] }) with
      | .next t => (Tab.find 0 t.waves).map fun w => ((List.range 4).map fun l => w.reg 5 l, w.scale 3 0)
      | _ => none
    | _ => none) = some ([6, 0xFFFFFFFE, 0, 0], 0x81) := by decide

/-- R62 and R75: 1.0 + 2^-24 is a tie that rounds to even; 1.0 / 0.0 by FRCP. -/
theorem test_fadd_tie :
    (match exec (.fadd { xf with d := 5, a := 6, b := 7 }) (sit (wave1 (v67 0x3F800000 0x33800000))) with
    | .next t => (Tab.find 0 t.waves).map fun w => w.reg 5 0
    | _ => none) = some 0x3F800000 := by decide

/-- The placing with a word in its page. -/
def withWord (a : Nat) (v : Word) (s : State) : State := { s with mem := memWrites s.mem a (bytesOfWord v) }

/-- R99: LD of a word at the address in v2, v3, little-endian; an unmapped address traps with no vector, which ends the team. -/
theorem test_load :
    (match exec (.ld { xf with t := 2, d := 5, a := 2 }) (withWord 64 0x11223344 (sit (wave1 [(64, 64), (96, 0x40)]))) with
    | .next t => (Tab.find 0 t.waves).map fun w => w.reg 5 0
    | _ => none) = some 0x11223344 := by decide

/-- R110: ATOM.add answers the old value and leaves the sum at the home. -/
theorem test_atom :
    (match exec (.atom { xf with t := 2, d := 5, a := 2, b := 6 }) (withWord 64 7 (sit (wave1 [(64, 64), (96, 0x40), (192, 5)]))) with
    | .next t => (Tab.find 0 t.waves).map fun w => (w.reg 5 0, memRead t.mem 64)
    | _ => none) = some (7, 12) := by decide

/-- R135's example: GET item.x and item.y of a 3 by 2 group with origin (3, 2). -/
theorem test_get_item :
    let s := { sit placeWave with teams := [(0, { placeTeam with origin := (3, 2, 0), shape := (3, 2, 1) })] }
    let at5 := fun (v : BitVec 18) => match exec (.get { xf with d := 5, imm := v }) s with
      | .next t => (Tab.find 0 t.waves).map fun w => (List.range 6).map fun l => w.reg 5 l
      | _ => none
    at5 5 = some [3, 4, 5, 3, 4, 5] ∧ at5 6 = some [2, 2, 2, 3, 3, 3] := by decide

/-- R209, R214: TRAP 9 enters the vector, with TRAP_INSN, its code and the next PC saved; TRET returns there. -/
theorem test_trap_and_return :
    (match exec (.trap { xf with imm := 9 }) (launched vecLaunch placeWave) with
    | .next t =>
      (Tab.find 0 t.waves).map fun w => (w.handlerFlag, w.trap.cause &&& 0xFF, w.trap.info, w.trap.pc, w.frags.map fun g => g.pc)
    | _ => none) = some (true, 0x13, 9, 0x400000000C, [0x4000000100]) := by decide

/-- R120, R122: BARA by the only wave of a phase that expects one arrival completes it. -/
theorem test_bara :
    (match exec (.bara { xf with a := 6 }) (barState (wave1 atBar)) with
    | .next t => some (t.bar 0 4080)
    | _ => none) = some ⟨1, 1, 1, 0⟩ := by decide

/-- R224: bytes of the context image at the offsets of its table: the fragment's PC and mask, v6, the hold bit, trap.cause. -/
theorem test_context_image :
    let w := { inHandler [] with regs := [(192, 0x11223344)], ext := true, trap := { TrapRegs.zero with cause := 0x13 } }
    w.contextByte 768 = 0x44 ∧ w.contextByte 19588 = 0x40 ∧ w.contextByte 19592 = 1 ∧ w.contextByte (19584 + 14) = 0x10 ∧
    w.contextByte 20612 = 1 ∧ w.contextByte 20616 = 1 ∧ w.contextByte 20620 = 0x13 ∧ w.contextByte 22719 = 0 := by decide

/-- R247's example: suspended at 256 on page 3, in engine A. -/
theorem test_progress_record :
    let x := { cmdOf linRec 256 with susp := some 3 }
    ((x.progress 0).extractLsb' 96 32).toNat = 256 ∧ ((x.progress 0).extractLsb' 8 8).toNat = 3 ∧ (x.progress 0).getLsbD 2 = true ∧
    ((x.progress 0).extractLsb' 24 8).toNat = 0x10 ∧ (x.progress 0).getLsbD 0 = false := by decide +kernel

/-- R271: INREG and MODE of the record of a region in consumer mode. -/
theorem test_state_record :
    (consWave 0xFF 8).landing.record.getLsbD 18 = true ∧ (consWave 0xFF 8).landing.record.getLsbD 16 = true ∧
    ((consWave 0xFF 8).landing.record.extractLsb' 8 8).toNat = 8 := by decide

/-- R178's table: FRCP of 3.0 by its word, and FLOG2 of 8.0, FEXP2 of 200.0, FSIN and FCOS of 0.5. -/
theorem test_frcp : got 5 [0x00182C50] (v67 0x40400000 0) = some 0x3EAAAAAA := by decide +kernel
def fun1 (j : Instr) (v : Word) : Option Word :=
  match exec j (sit (wave1 (v67 v 0))) with
  | .next t => (Tab.find 0 t.waves).map fun w => w.reg 5 0
  | _ => none
theorem test_transcendentals :
    fun1 (.flog2 { xf with d := 5, a := 6 }) 0x41000000 = some 0x40400000 ∧
    fun1 (.fexp2 { xf with d := 5, a := 6 }) 0x43480000 = some 0x7F800000 ∧
    fun1 (.fsin { xf with d := 5, a := 6 }) 0x3F000000 = some 0x3F800000 ∧
    fun1 (.fcos { xf with d := 5, a := 6 }) 0x3F000000 = some 0 := by decide +kernel

end Sys2Proof.Tests
end

section
/-! O39, the life of a launch: the clause on R300's choice fails for a group that has no item. -/

namespace Sys2Proof.Machine

open Sys2Proof

/-- A descriptor whose one allowed shape is (2, 1, 1). -/
def pairDesc : Desc := { Desc.zero with xs := [2], ys := [1], zs := [1], hi := 2 }

/-- A remainder of one box: four items along x, from x = 4 on. -/
def fourRight : List Region := [⟨4, 0, 0, 4, 1, 1⟩]

/-- A column group outside the remainder, the second of its two items in the minority: its boundary is x = 1. -/
def columnGroup : GroupRec := ⟨0, (0, 0, 0), (2, 1, 1), [1], 0, 0, 0⟩

/-- A group inside the remainder with no item, its extent along z being 0, and still a bit in its minority list. -/
def flatGroup : GroupRec := ⟨1, (4, 0, 0), (2, 1, 0), [1], 0, 0, 0⟩

/-- R297: a group with no item is clean, since none of its items is in the minority. -/
theorem flatGroup_cls : flatGroup.cls = .clean := by decide

/-- `GroupRec.bounds` reads bits at z = 0, where `flatGroup` has no item: x = 5 is a boundary of this clean group. -/
theorem flatGroup_bounds : flatGroup.bounds false = [5] := by decide

theorem columnGroup_cls : columnGroup.cls = .column := by decide

theorem pairDesc_shapes : pairDesc.shapes = [(2, 1, 1)] := by decide

/-- The model takes its boundaries from the column groups alone, and `columnGroup` has none in the remainder: every size is
aligned, and the window's choice is the allowed shape in column order. -/
theorem chooseNext_flatGroup :
    chooseNext pairDesc fourRight [columnGroup, flatGroup] (1, 1, 1) 0 = ((2, 1, 1), 1) := by decide

/-- Refutes O39: its clause on R300's choice speaks of the boundaries of every group of a column window, the clean ones too, and
puts no condition on the groups. `columnGroup` and the clean `flatGroup`, which has no item, make a column window; the boundary
x = 5 of `flatGroup` leaves no allowed shape aligned in the box of `fourRight`, so the clause has the shape (1, 1, 1) and the row
order kept, and the model chooses (2, 1, 1) in column order. (A clean group with items has no boundary.) -/
theorem not_launchLifecycle : ¬ Obligations.LaunchLifecycle := by
  unfold Obligations.LaunchLifecycle
  intro h
  obtain ⟨-, -, -, -, choice, -⟩ := h
  obtain ⟨columnOrRow, -⟩ := choice pairDesc fourRight [columnGroup, flatGroup] (1, 1, 1) 0
  have mixed : (∃ g ∈ [columnGroup, flatGroup], g.cls ≠ .clean) ∧
      ∀ g ∈ [columnGroup, flatGroup], g.cls = .clean ∨ g.cls = if false then .row else .column := by
    simp [columnGroup_cls, flatGroup_cls]
  obtain ⟨kept, -⟩ := columnOrRow false mixed
  have noneAligned : chooseNext pairDesc fourRight [columnGroup, flatGroup] (1, 1, 1) 0 = ((1, 1, 1), 0) := by
    refine kept fun t ht aligned => ?_
    obtain rfl : t = (2, 1, 1) := by simpa [pairDesc_shapes] using ht
    have atFive := aligned ⟨4, 0, 0, 4, 1, 1⟩ (by simp [fourRight]) flatGroup (by simp) 5 (by simp [flatGroup_bounds])
      (by decide) (by decide)
    exact absurd atFive (by decide)
  rw [chooseNext_flatGroup] at noneAligned
  exact absurd noneAligned (by decide)

end Sys2Proof.Machine
end

section
/-! O58, decoding and encoding: packing and unpacking of the fields undo each other, and the opcode map reads both ways. -/

namespace Sys2Proof

/-! ### Fields of words put together -/

theorem bits_append_left {v w : Nat} {x : BitVec v} {y : BitVec w} {lo n : Nat} (h : w ≤ lo) :
    bits (x ++ y) lo n = bits x (lo - w) n := BitVec.extractLsb'_append_eq_of_le h

theorem bits_append_right {v w : Nat} {x : BitVec v} {y : BitVec w} {lo n : Nat} (h : lo + n ≤ w) :
    bits (x ++ y) lo n = bits y lo n := BitVec.extractLsb'_append_eq_of_add_le h

theorem bits_whole {w : Nat} (x : BitVec w) : bits x 0 w = x := BitVec.extractLsb'_eq_self

/-- Adjacent fields of a word make one field. -/
theorem bits_append_bits {w lo hi m n : Nat} (x : BitVec w) (h : hi = lo + n) :
    bits x hi m ++ bits x lo n = bits x lo (m + n) := BitVec.extractLsb'_append_extractLsb'_eq_extractLsb' h

theorem bitAt_eq_bits {w : Nat} (x : BitVec w) (i : Nat) : bitAt x i = (bits x i 1).getLsbD 0 := by
  simp [bitAt, bits]

theorem ofBool_bitAt {w : Nat} (x : BitVec w) (i : Nat) : BitVec.ofBool (bitAt x i) = bits x i 1 := by
  ext j hj
  obtain rfl : j = 0 := by omega
  simp [bitAt, bits, ← BitVec.getLsbD_eq_getElem]

theorem getLsbD_ofBool_zero (b : Bool) : (BitVec.ofBool b).getLsbD 0 = b := by cases b <;> rfl

/-! ### X96 and X160 words (R28, R30) -/

/-- The L field of word 0, as the literal decides it (R25). -/
theorem L_packX0 (op : Nat) (f : XF) : bits (packX0 op f) 0 2 = if f.lit.isSome then 2#2 else 1#2 := by
  unfold packX0
  rw [bits_append_right (by omega), bits_whole]

theorem op10Of_packX0 {op : Nat} (h : op < 1024) (f : XF) : op10Of (packX0 op f) = op := by
  unfold op10Of packX0
  simp (disch := omega) only [bits_append_left, bits_append_right, Nat.reduceSub, bits_whole, BitVec.toNat_ofNat,
    Nat.mod_eq_of_lt h, Nat.reducePow]

theorem unpackX_packX (op : Nat) (f : XF) : unpackX (packX0 op f) (packX1 f) (packX2 f) f.lit = f := by
  unfold unpackX unpackGuard packX0 packX1 packX2
  simp (disch := omega) only [bitAt_eq_bits, bits_append_left, bits_append_right, bits_whole, Nat.reduceSub,
    getLsbD_ofBool_zero]

theorem packX0_unpackX {w0 w1 w2 : Word} {lit : Option Dword} (h : bits w0 0 2 = if lit.isSome then 2#2 else 1#2) :
    packX0 (op10Of w0) (unpackX w0 w1 w2 lit) = w0 := by
  unfold packX0 unpackX op10Of
  simp (disch := rfl) only [BitVec.ofNat_toNat, BitVec.setWidth_eq, ofBool_bitAt, ← h, bits_append_bits, bits_whole]

theorem packX1_unpackX (w0 w1 w2 : Word) (lit : Option Dword) : packX1 (unpackX w0 w1 w2 lit) = w1 := by
  unfold packX1 unpackX unpackGuard
  simp (disch := rfl) only [ofBool_bitAt, bits_append_bits, bits_whole]

theorem packX2_unpackX (w0 w1 w2 : Word) (lit : Option Dword) : packX2 (unpackX w0 w1 w2 lit) = w2 := by
  unfold packX2 unpackX unpackGuard
  simp (disch := rfl) only [bits_append_bits, bits_whole]

theorem litOf_bits (v : Dword) : litOf (bits v 0 32) (bits v 32 32) = v := by
  unfold litOf
  simp (disch := rfl) only [bits_append_bits, bits_whole]

theorem litWords_litOf (lo hi : Word) : litWords (some (litOf lo hi)) = [lo, hi] := by
  unfold litWords litOf
  simp (disch := omega) only [bits_append_left, bits_append_right, bits_whole, Nat.sub_self]

/-! ### B32 and B96 words (R27, R30) -/

/-- The first word of a B32 or B96 instruction is the head of its words. -/
theorem encodeB_eq (op : Nat) (f : BF) : encodeB op f = (encodeB op f).headD 0 :: litWords f.lit := rfl

theorem L_encodeB (op : Nat) (f : BF) : bits ((encodeB op f).headD 0) 0 2 = if f.lit.isSome then 3#2 else 0#2 := by
  unfold encodeB
  rw [List.headD_cons, bits_append_right (by omega), bits_whole]

theorem op7Of_encodeB {op : Nat} (h : op < 128) (f : BF) : op7Of ((encodeB op f).headD 0) = op := by
  unfold op7Of encodeB
  simp (disch := omega) only [List.headD_cons, bits_append_left, bits_append_right, Nat.reduceSub, bits_whole,
    BitVec.toNat_ofNat, Nat.mod_eq_of_lt h, Nat.reducePow]

theorem unpackB_encodeB (op : Nat) (f : BF) : unpackB ((encodeB op f).headD 0) f.lit = f := by
  unfold unpackB encodeB
  simp (disch := omega) only [List.headD_cons, bitAt_eq_bits, bits_append_left, bits_append_right, bits_whole, Nat.reduceSub,
    getLsbD_ofBool_zero]

theorem encodeB_unpackB {w : Word} {lit : Option Dword} (h : bits w 0 2 = if lit.isSome then 3#2 else 0#2) :
    encodeB (op7Of w) (unpackB w lit) = w :: litWords lit := by
  unfold encodeB unpackB op7Of
  simp (disch := rfl) only [BitVec.ofNat_toNat, BitVec.setWidth_eq, ofBool_bitAt, ← h, bits_append_bits, bits_whole]

/-! ### The opcode map both ways (R53, R54, R56) -/

theorem ofX_of_form {i : Instr} {op : Nat} {f : XF} (hw : i.wellFormed = true) (h : i.form = .x op f) :
    Instr.ofX op f = some i := by
  cases i with
  | sst g => cases h; exact Laws.FormTable.sst _ hw
  | sstStream g => cases h; exact Laws.FormTable.sstStream _ hw
  | _ => cases h <;> rfl

theorem ofB_of_form {i : Instr} {op : Nat} {f : BF} (h : i.form = .b op f) : Instr.ofB op f = some i := by
  cases i <;> cases h <;> rfl

theorem op_lt_of_form_x {i : Instr} {op : Nat} {f : XF} (h : i.form = .x op f) : op < 1024 := by
  cases i <;> cases h <;> decide

theorem op_lt_of_form_b {i : Instr} {op : Nat} {f : BF} (h : i.form = .b op f) : op < 128 := by
  cases i <;> cases h <;> decide

theorem xOk_of_form {i : Instr} {op : Nat} {f : XF} (hw : i.wellFormed = true) (h : i.form = .x op f) : xOk op f = true := by
  cases i with
  | sst g => cases h; exact (Bool.and_eq_true_iff.1 hw).1
  | sstStream g => cases h; exact (Bool.and_eq_true_iff.1 hw).1
  | _ => cases h <;> exact hw

theorem bOk_of_form {i : Instr} {op : Nat} {f : BF} (hw : i.wellFormed = true) (h : i.form = .b op f) : bOk op f = true := by
  cases i <;> cases h <;> exact hw

theorem encode_of_form_x {i : Instr} {op : Nat} {f : XF} (h : i.form = .x op f) : encode i = encodeX op f := by
  cases i <;> cases h <;> rfl

theorem encode_of_form_b {i : Instr} {op : Nat} {f : BF} (h : i.form = .b op f) : encode i = encodeB op f := by
  cases i <;> cases h <;> rfl

/-- SST and its stream form share an opcode, and M tells them apart (R199). -/
theorem form_of_ofX {i : Instr} {op : Nat} {f : XF} (h : Instr.ofX op f = some i) : i.form = .x op f := by
  unfold Instr.ofX at h
  split at h <;> (try split at h) <;> cases h <;> rfl

theorem form_of_ofB {i : Instr} {op : Nat} {f : BF} (h : Instr.ofB op f = some i) : i.form = .b op f := by
  unfold Instr.ofB at h
  split at h <;> cases h <;> rfl

theorem ofX_sst (f : XF) : Instr.ofX 0x1C1 f = if f.m.toNat ≤ 1 then some (.sst f) else some (.sstStream f) := rfl

theorem wellFormed_of_ofX {i : Instr} {op : Nat} {f : XF} (h : Instr.ofX op f = some i) (ho : xOk op f = true) :
    i.wellFormed = true := by
  have hf := form_of_ofX h
  cases i with
  | sst g =>
    cases hf
    rw [ofX_sst] at h
    split at h
    · simp_all [Instr.wellFormed]
    · cases h
  | sstStream g =>
    cases hf
    rw [ofX_sst] at h
    split at h
    · cases h
    · simp_all [Instr.wellFormed]; omega
  | _ => cases hf <;> exact ho

theorem wellFormed_of_ofB {i : Instr} {op : Nat} {f : BF} (h : Instr.ofB op f = some i) (ho : bOk op f = true) :
    i.wellFormed = true := by
  have hf := form_of_ofB h
  cases i <;> cases hf <;> exact ho

/-! ### The decoder by the L field (R25) -/

theorem decode_L0 {w : Word} (h : bits w 0 2 = 0#2) (rest : List Word) : decode (w :: rest) = decodeB w none := by
  simp [decode, h]

theorem decode_L1 {w0 : Word} (h : bits w0 0 2 = 1#2) (w1 w2 : Word) (rest : List Word) :
    decode (w0 :: w1 :: w2 :: rest) = decodeX w0 w1 w2 none := by
  simp [decode, h]

theorem decode_L2 {w0 : Word} (h : bits w0 0 2 = 2#2) (w1 w2 lo hi : Word) (rest : List Word) :
    decode (w0 :: w1 :: w2 :: lo :: hi :: rest) = decodeX w0 w1 w2 (some (litOf lo hi)) := by
  simp [decode, h]

theorem decode_L3 {w : Word} (h : bits w 0 2 = 3#2) (lo hi : Word) (rest : List Word) :
    decode (w :: lo :: hi :: rest) = decodeB w (some (litOf lo hi)) := by
  simp [decode, h]

/-- The words that decode to an instruction, in the four forms of R25: their first words, and what is read of them. -/
theorem decode_ok_cases {ws : List Word} {i : Instr} (h : decode ws = .ok i) :
    (∃ w rest, ws = w :: rest ∧ bits w 0 2 = 0#2 ∧ decodeB w none = .ok i) ∨
    (∃ w0 w1 w2 rest, ws = w0 :: w1 :: w2 :: rest ∧ bits w0 0 2 = 1#2 ∧ decodeX w0 w1 w2 none = .ok i) ∨
    (∃ w0 w1 w2 lo hi rest, ws = w0 :: w1 :: w2 :: lo :: hi :: rest ∧ bits w0 0 2 = 2#2 ∧
      decodeX w0 w1 w2 (some (litOf lo hi)) = .ok i) ∨
    ∃ w lo hi rest, ws = w :: lo :: hi :: rest ∧ bits w 0 2 = 3#2 ∧ decodeB w (some (litOf lo hi)) = .ok i := by
  unfold decode at h
  split at h
  · cases h
  split at h
  · exact .inl ⟨_, _, rfl, ‹_›, h⟩
  split at h
  · split at h
    · exact .inr (.inl ⟨_, _, _, _, rfl, ‹_›, h⟩)
    · cases h
  split at h
  · split at h
    · exact .inr (.inr (.inl ⟨_, _, _, _, _, _, rfl, ‹_›, h⟩))
    · cases h
  · split at h
    · refine .inr (.inr (.inr ⟨_, _, _, _, rfl, ?_, h⟩))
      bv_omega
    · cases h

theorem decodeX_ok {w0 w1 w2 : Word} {lit : Option Dword} {i : Instr} (h : decodeX w0 w1 w2 lit = .ok i) :
    Instr.ofX (op10Of w0) (unpackX w0 w1 w2 lit) = some i ∧ xOk (op10Of w0) (unpackX w0 w1 w2 lit) = true := by
  unfold decodeX at h
  dsimp only at h
  split at h
  · cases h
  · rename_i hj
    split at h
    · cases h; exact ⟨hj, ‹_›⟩
    · cases h

theorem decodeB_ok {w : Word} {lit : Option Dword} {i : Instr} (h : decodeB w lit = .ok i) :
    Instr.ofB (op7Of w) (unpackB w lit) = some i ∧ bOk (op7Of w) (unpackB w lit) = true := by
  unfold decodeB at h
  dsimp only at h
  split at h
  · cases h
  · rename_i hj
    split at h
    · cases h; exact ⟨hj, ‹_›⟩
    · cases h

/-! ### Decoding of encoded words -/

theorem decodeX_packX {i : Instr} {op : Nat} {f : XF} (hw : i.wellFormed = true) (h : i.form = .x op f) :
    decodeX (packX0 op f) (packX1 f) (packX2 f) f.lit = .ok i := by
  simp [decodeX, op10Of_packX0 (op_lt_of_form_x h), unpackX_packX, ofX_of_form hw h, xOk_of_form hw h]

theorem decodeB_encodeB {i : Instr} {op : Nat} {f : BF} (hw : i.wellFormed = true) (h : i.form = .b op f) :
    decodeB ((encodeB op f).headD 0) f.lit = .ok i := by
  simp only [decodeB, op7Of_encodeB (op_lt_of_form_b h), unpackB_encodeB, ofB_of_form h, bOk_of_form hw h, if_true]

theorem decode_encodeX {i : Instr} {op : Nat} {f : XF} (hw : i.wellFormed = true) (h : i.form = .x op f) (rest : List Word) :
    decode (encodeX op f ++ rest) = .ok i := by
  have hL := L_packX0 op f
  have hd := decodeX_packX hw h
  unfold encodeX
  cases hl : f.lit with
  | none =>
    simp only [hl] at hL hd
    exact (decode_L1 hL _ _ rest).trans hd
  | some v =>
    simp only [hl] at hL hd
    refine (decode_L2 hL _ _ _ _ rest).trans ?_
    rw [litOf_bits]
    exact hd

theorem decode_encodeB {i : Instr} {op : Nat} {f : BF} (hw : i.wellFormed = true) (h : i.form = .b op f) (rest : List Word) :
    decode (encodeB op f ++ rest) = .ok i := by
  have hL := L_encodeB op f
  have hd := decodeB_encodeB hw h
  rw [encodeB_eq]
  cases hl : f.lit with
  | none =>
    simp only [hl] at hL hd
    exact (decode_L0 hL rest).trans hd
  | some v =>
    simp only [hl] at hL hd
    refine (decode_L3 hL _ _ rest).trans ?_
    rw [litOf_bits]
    exact hd

/-- The words of a well-formed wave instruction decode to it, whatever follows them (R25 to R30, R41). -/
theorem decode_encode {i : Instr} (hw : i.wellFormed = true) (he : i.form ≠ .event) (rest : List Word) :
    decode (encode i ++ rest) = .ok i := by
  cases h : i.form with
  | x op f => rw [encode_of_form_x h]; exact decode_encodeX hw h rest
  | b op f => rw [encode_of_form_b h]; exact decode_encodeB hw h rest
  | event => exact absurd h he

/-! ### Encoding of decoded words -/

theorem encode_of_decodeX {w0 w1 w2 : Word} {lit : Option Dword} {i : Instr}
    (hL : bits w0 0 2 = if lit.isSome then 2#2 else 1#2) (h : decodeX w0 w1 w2 lit = .ok i) :
    i.wellFormed = true ∧ i.form ≠ .event ∧ encode i = w0 :: w1 :: w2 :: litWords lit := by
  obtain ⟨ho, hx⟩ := decodeX_ok h
  have hf := form_of_ofX ho
  refine ⟨wellFormed_of_ofX ho hx, by simp [hf], ?_⟩
  rw [encode_of_form_x hf, encodeX, packX0_unpackX hL, packX1_unpackX, packX2_unpackX]
  rfl

theorem encode_of_decodeB {w : Word} {lit : Option Dword} {i : Instr}
    (hL : bits w 0 2 = if lit.isSome then 3#2 else 0#2) (h : decodeB w lit = .ok i) :
    i.wellFormed = true ∧ i.form ≠ .event ∧ encode i = w :: litWords lit := by
  obtain ⟨ho, hx⟩ := decodeB_ok h
  have hf := form_of_ofB ho
  refine ⟨wellFormed_of_ofB ho hx, by simp [hf], ?_⟩
  rw [encode_of_form_b hf, encodeB_unpackB hL]

/-- Words that decode to an instruction are its words, and it is well formed (R25 to R30, R41). -/
theorem encode_decode {ws : List Word} {i : Instr} (h : decode ws = .ok i) :
    i.wellFormed = true ∧ i.form ≠ .event ∧ encode i = ws.take (instrWords (ws.headD 0)) := by
  obtain ⟨w, rest, rfl, hL, hd⟩ | ⟨w0, w1, w2, rest, rfl, hL, hd⟩ | ⟨w0, w1, w2, lo, hi, rest, rfl, hL, hd⟩ |
    ⟨w, lo, hi, rest, rfl, hL, hd⟩ := decode_ok_cases h
  · simpa [instrWords, hL, litWords] using encode_of_decodeB (lit := none) hL hd
  · simpa [instrWords, hL, litWords] using encode_of_decodeX (lit := none) hL hd
  · simpa [instrWords, hL, litWords_litOf] using encode_of_decodeX (lit := some _) hL hd
  · simpa [instrWords, hL, litWords_litOf] using encode_of_decodeB (lit := some _) hL hd

/-! ### The Alcove extension (R59, R337) -/

@[simp] theorem packI_opc (m : BitVec 12) (a : BitVec 5) (f3 : BitVec 3) (d : BitVec 5) (o : BitVec 7) :
    bits (packI m a f3 d o) 0 7 = o := by
  unfold packI
  simp (disch := omega) only [bits_append_right, bits_whole]

@[simp] theorem packI_rd (m : BitVec 12) (a : BitVec 5) (f3 : BitVec 3) (d : BitVec 5) (o : BitVec 7) :
    bits (packI m a f3 d o) 7 5 = d := by
  unfold packI
  simp (disch := omega) only [bits_append_left, bits_append_right, Nat.reduceSub, bits_whole]

@[simp] theorem packI_f3 (m : BitVec 12) (a : BitVec 5) (f3 : BitVec 3) (d : BitVec 5) (o : BitVec 7) :
    bits (packI m a f3 d o) 12 3 = f3 := by
  unfold packI
  simp (disch := omega) only [bits_append_left, bits_append_right, Nat.reduceSub, bits_whole]

@[simp] theorem packI_rs1 (m : BitVec 12) (a : BitVec 5) (f3 : BitVec 3) (d : BitVec 5) (o : BitVec 7) :
    bits (packI m a f3 d o) 15 5 = a := by
  unfold packI
  simp (disch := omega) only [bits_append_left, bits_append_right, Nat.reduceSub, bits_whole]

@[simp] theorem packI_imm (m : BitVec 12) (a : BitVec 5) (f3 : BitVec 3) (d : BitVec 5) (o : BitVec 7) :
    bits (packI m a f3 d o) 20 12 = m := by
  unfold packI
  simp (disch := omega) only [bits_append_left, Nat.reduceSub, bits_whole]

/-- The S-type layout is the I-type one with the two parts of the immediate around its second register. -/
theorem packS_eq_packI (m : BitVec 12) (b a : BitVec 5) (f3 : BitVec 3) (o : BitVec 7) :
    packS m b a f3 o = packI (bits m 5 7 ++ b) a f3 (bits m 0 5) o := rfl

@[simp] theorem packS_opc (m : BitVec 12) (b a : BitVec 5) (f3 : BitVec 3) (o : BitVec 7) :
    bits (packS m b a f3 o) 0 7 = o := by rw [packS_eq_packI, packI_opc]

@[simp] theorem packS_f3 (m : BitVec 12) (b a : BitVec 5) (f3 : BitVec 3) (o : BitVec 7) :
    bits (packS m b a f3 o) 12 3 = f3 := by rw [packS_eq_packI, packI_f3]

@[simp] theorem packS_rs1 (m : BitVec 12) (b a : BitVec 5) (f3 : BitVec 3) (o : BitVec 7) :
    bits (packS m b a f3 o) 15 5 = a := by rw [packS_eq_packI, packI_rs1]

@[simp] theorem packS_rs2 (m : BitVec 12) (b a : BitVec 5) (f3 : BitVec 3) (o : BitVec 7) :
    bits (packS m b a f3 o) 20 5 = b := by
  unfold packS
  simp (disch := omega) only [bits_append_left, bits_append_right, Nat.reduceSub, bits_whole]

@[simp] theorem packS_imm (m : BitVec 12) (b a : BitVec 5) (f3 : BitVec 3) (o : BitVec 7) :
    bits (packS m b a f3 o) 25 7 ++ bits (packS m b a f3 o) 7 5 = m := by
  have high : bits (packS m b a f3 o) 25 7 = bits m 5 7 := by
    unfold packS
    simp (disch := omega) only [bits_append_left, Nat.reduceSub, bits_whole]
  have low : bits (packS m b a f3 o) 7 5 = bits m 0 5 := by rw [packS_eq_packI, packI_rd]
  rw [high, low, bits_append_bits m (show 5 = 0 + 5 from rfl), bits_whole]

/-- A word is that of its fields in the I-type layout. -/
theorem packI_bits {w : Word} {f3 : BitVec 3} {o : BitVec 7} (hf : (bits w 12 3).toNat = f3.toNat) (ho : bits w 0 7 = o) :
    packI (bits w 20 12) (bits w 15 5) f3 (bits w 7 5) o = w := by
  rw [← BitVec.eq_of_toNat_eq hf, ← ho]
  unfold packI
  simp (disch := rfl) only [bits_append_bits, bits_whole]

/-- A word is that of its fields in the S-type layout. -/
theorem packS_bits {w : Word} {f3 : BitVec 3} {o : BitVec 7} (hf : (bits w 12 3).toNat = f3.toNat) (ho : bits w 0 7 = o) :
    packS (bits w 25 7 ++ bits w 7 5) (bits w 20 5) (bits w 15 5) f3 o = w := by
  rw [packS_eq_packI, bits_append_left (by omega), bits_append_right (by omega), bits_whole, bits_whole,
    bits_append_bits w (show 25 = 20 + 5 from rfl)]
  exact packI_bits hf ho

/-- The word of an instruction of the Alcove extension decodes to it (R59, R337). -/
theorem decodeExt_encode {i : Instr} {cl ctx : Nat} {a b : BitVec 5} {m : BitVec 12} (hw : i.wellFormed = true)
    (h : i = .alLdw cl ctx a b m ∨ i = .alStw cl ctx a b m ∨ i = .alFetch cl ctx a b m ∨ i = .alDrop cl ctx a b m ∨
      i = .alArg cl ctx a b m ∨ i = .alSend cl ctx a b m ∨ i = .alEnd cl ctx a b m) :
    ∃ w, encode i = [w] ∧ decodeExt cl ctx w = some i := by
  rcases h with rfl | rfl | rfl | rfl | rfl | rfl | rfl <;> exact ⟨_, rfl, by simp [decodeExt, hw]⟩

/-- A word that decodes to an instruction of the Alcove extension is its word, and it is well formed (R59, R337). -/
theorem encode_decodeExt {cl ctx : Nat} {w : Word} {i : Instr} (h : decodeExt cl ctx w = some i) :
    encode i = [w] ∧ i.wellFormed = true := by
  unfold decodeExt at h
  obtain ⟨h, hw⟩ := Option.filter_eq_some_iff.1 h
  refine ⟨?_, hw⟩
  split at h
  case isTrue ho => split at h <;> cases h <;> exact congrArg (fun v => [v]) (packI_bits ‹_› ho)
  case isFalse =>
    split at h
    case isTrue ho => split at h <;> cases h <;> exact congrArg (fun v => [v]) (packS_bits ‹_› ho)
    case isFalse => cases h

/-- Settles O58: each field stands in its own bits of the words of its form, so that packing and unpacking undo each other, and
the opcode map read both ways gives back the instruction. -/
theorem decodeInvertsEncode : Obligations.DecodeInvertsEncode :=
  ⟨fun _ hw he rest => decode_encode hw he rest, fun _ _ h => encode_decode h,
    fun _ _ _ _ _ _ hw h => decodeExt_encode hw h, fun _ _ _ _ h => encode_decodeExt h⟩

end Sys2Proof
end

section
/-! O56, the checks before an instruction's effect: a misplaced instruction is refused first, then one that names the extended
row without the hold. -/

namespace Sys2Proof.Machine

open Sys2Proof

/-- A forbidden instruction of a REP body, or a SYSW to trap.pc outside a handler, is misplaced (R163, R216). -/
theorem Ctx.misplaced_iff (c : Ctx) :
    c.misplaced = true ↔ (c.fr.rep.isSome = true ∧ repForbidden c.ins.op = true) ∨
      (c.ins.op = 0x1E4 ∧ c.ins.f.imm.toNat = 4 ∧ c.w.handlerFlag = false) := by
  simp [Ctx.misplaced, Ctx.uimm, and_assoc]

theorem Placed.not_misplaced {x : Ins} {k i : Nat} {w : Wave} {fr : Frag} (h : Placed x w fr) :
    Ctx.misplaced ⟨k, w, i, fr, x⟩ = false := by
  obtain ⟨hr, hs⟩ := h
  rw [Bool.eq_false_iff, Ne, Ctx.misplaced_iff]
  rintro (⟨rep, forbidden⟩ | ⟨op, reg, outside⟩)
  · rcases hr with hr | hr
    · simp [hr] at rep
    · simp [hr] at forbidden
  · rcases hs with hs | hs | hs
    · exact hs op
    · exact hs reg
    · simp [hs] at outside

theorem Ctx.precheck_misplaced {c : Ctx} (h : c.misplaced = true) :
    c.precheck = some { c.trap 0x02 with info := c.ins.word } := if_pos h

theorem Ctx.precheck_extended {c : Ctx} (h : c.misplaced = false) (he : c.w.ext = false) {r : Nat}
    (hr : lowestExt c.ins.op c.ins.f = some r) : c.precheck = some { c.trap 0x03 with info := BitVec.ofNat 32 r } := by
  simp [Ctx.precheck, h, he, hr]

/-- Settles O56: exec of every wave instruction makes these two checks first, the place before the extended row (R41; log entry
73), and a trap of theirs is all that it does. -/
theorem checksBeforeEffects : Obligations.ChecksBeforeEffects := by
  intro j s k i w fr _ he hi
  obtain ⟨body, run⟩ := exec_runs j he
  refine ⟨fun misplaced => ?_, fun placed ext r lowest => ?_⟩ <;> rw [run]
  · exact runWave_refused hi (Ctx.precheck_misplaced ((Ctx.misplaced_iff _).2 misplaced)) body
  · exact runWave_refused hi (Ctx.precheck_extended placed.not_misplaced ext lowest) body

end Sys2Proof.Machine
end

section
/-! O57, words of the spec and the forms of operand B: each form read once. -/

namespace Sys2Proof.Machine

open Sys2Proof

/-! ### Operand B in its four forms (R30, R54, R56, R145) -/

/-- A literal stands for operand B by its low bits. -/
theorem Ctx.bitsB_literal {c : Ctx} {v : Dword} (h : c.f.lit = some v) (l : Nat) : c.bitsB l = v.setWidth _ := by
  apply BitVec.eq_of_toNat_eq
  simp [Ctx.bitsB, Ctx.opB, h]

/-- A number wrapped to a width is the bit pattern of that integer. -/
theorem ofNat_wrap (n : Nat) (z : Int) : BitVec.ofNat n (wrap n z) = BitVec.ofInt n z := by
  apply BitVec.eq_of_toNat_eq
  have : 0 ≤ z % 2 ^ n := Int.emod_nonneg _ (by positivity)
  have : z % 2 ^ n < 2 ^ n := Int.emod_lt_of_pos _ (by positivity)
  have lt : (z % 2 ^ n).toNat < 2 ^ n := by zify; rwa [Int.toNat_of_nonneg ‹_›]
  simp [wrap, Nat.mod_eq_of_lt lt]

/-- In an immediate twin operand B is the sign-extended immediate. -/
theorem Ctx.bitsB_twin {c : Ctx} (hl : c.f.lit = none) (ht : isTwin c.ins.op = true) (l : Nat) :
    c.bitsB l = c.f.imm.signExtend _ := by
  simp only [Ctx.bitsB, Ctx.opB, hl, ht, if_true, ofNat_wrap]
  rfl

theorem Ctx.opB_register {c : Ctx} (hl : c.f.lit = none) (ht : isTwin c.ins.op = false) (l : Nat) :
    c.opB 1 l = (c.w.reg c.f.b.toNat l).toNat := by
  simp [Ctx.opB, hl, ht, Wave.val]

theorem Ctx.opB_pair {c : Ctx} (hl : c.f.lit = none) (ht : isTwin c.ins.op = false) (l : Nat) :
    c.opB 2 l = (c.w.reg (c.f.b.toNat + 1) l ++ c.w.reg c.f.b.toNat l).toNat := by
  simp [Ctx.opB, hl, ht, Wave.val, Wave.pair]

/-! ### B32 instructions as the X96 instructions they mean (R29, R56) -/

theorem Ins.ofB_of_row {op : Nat} {r : BRow} (h : bRow op = some r) (f : BF) :
    Ins.ofB op f = ⟨r.op10, f.expand r, if f.lit.isSome then 12 else 4, (encodeB op f).headD 0⟩ := by
  simp [Ins.ofB, h]

/-- A row that means an immediate twin has an immediate. -/
theorem bRow_imm_of_twin {op : Nat} {r : BRow} (h : bRow op = some r) (ht : isTwin r.op10 = true) : r.imm = true := by
  unfold bRow at h
  split at h <;> cases h <;> revert ht <;> decide

theorem signExtend_signExtend_imm7 (b : BitVec 7) (n : Nat) : (b.signExtend 18).signExtend n = b.signExtend n := by
  show BitVec.ofInt n (b.signExtend 18).toInt = BitVec.ofInt n b.toInt
  rw [BitVec.toInt_signExtend_of_le (by decide)]

/-- Settles O57: the words by evaluation; operand B by its form, a B32 instruction through the X96 one that it means. -/
theorem wordsAndOperandForms : Obligations.WordsAndOperandForms := by
  refine ⟨rfl, rfl, rfl, rfl, rfl, rfl, rfl, rfl, rfl, ?_, ?_, ?_, ?_⟩
  · intro f op k i l w fr v hl
    exact Ctx.bitsB_literal hl l
  · intro f op k i l w fr hl
    exact ⟨fun ht => Ctx.bitsB_twin hl ht l, fun ht _ => Ctx.opB_register hl ht l, fun ht _ => Ctx.opB_pair hl ht l⟩
  · intro f op r k i l w fr hr hl
    dsimp only
    rw [Ins.ofB_of_row hr]
    refine ⟨fun ht => ?_, fun ht him _ => ?_⟩
    · refine (Ctx.bitsB_twin hl ht l).trans ?_
      simp [BF.expand, bRow_imm_of_twin hr ht, signExtend_signExtend_imm7]
    · refine (Ctx.opB_register hl ht l).trans ?_
      simp [BF.expand, him]
  · intro f op r k i l w fr v hr hl
    rw [Ins.ofB_of_row hr]
    exact Ctx.bitsB_literal hl l

end Sys2Proof.Machine
end

section
/-! O55, a step runs the decoded instruction: what bringing the fetched lines near leaves, what the core then holds, and the
turns one by one. -/

namespace Sys2Proof.Machine

open Sys2Proof

/-! ### Lines brought near: only teams' pages, cores' and clusters' lines and memory change (R88, R103, R218, R333) -/

/-- Nothing has changed but teams, clusters, cores and memory. -/
def KeptButLines (s t : State) : Prop :=
  t = { s with teams := t.teams, clusters := t.clusters, cores := t.cores, mem := t.mem }

theorem KeptButLines.refl (s : State) : KeptButLines s s := rfl

theorem KeptButLines.trans {s t u : State} (h : KeptButLines s t) (h' : KeptButLines t u) : KeptButLines s u :=
  Eq.trans h' (by rw [h])

theorem KeptButLines.waves {s t : State} (h : KeptButLines s t) : t.waves = s.waves := by rw [h]

theorem KeptButLines.cur {s t : State} (h : KeptButLines s t) : t.cur = s.cur := by rw [h]

/-- What the change of lines leaves of a state before, where that differs in its waves and in the fragment that issues alone. -/
theorem KeptButLines.after_issue {s u v : State} (h : KeptButLines u v) (hu : u = { s with cur := u.cur, waves := u.waves }) :
    v = { s with cur := u.cur, waves := v.waves, teams := v.teams, clusters := v.clusters, cores := v.cores, mem := v.mem } :=
  Eq.trans h (by rw [h.waves, hu])

theorem keptButLines_foldl {β : Type} {g : State → β → State} (hg : ∀ s b, KeptButLines s (g s b)) (l : List β)
    (s : State) : KeptButLines s (l.foldl g s) := by
  induction l generalizing s with
  | nil => exact .refl s
  | cons b l ih => exact (hg s b).trans (ih _)

theorem keptButLines_setCluster (c : Nat) (g : Cluster → Cluster) (s : State) : KeptButLines s (s.setCluster c g) := rfl

theorem keptButLines_request (kind core : Nat) (hint : Hint) (line : Nat) (s : State) :
    KeptButLines s (s.request kind core hint line) := by
  unfold State.request State.ask
  split
  · exact .refl s
  · exact keptButLines_setCluster ..

theorem keptButLines_publishOne (cl : Nat) (e : Nat × DirtyLine) (s : State) : KeptButLines s (s.publishOne cl e) := rfl

theorem keptButLines_publishLines (cl : Nat) (ls : Tab DirtyLine) (s : State) : KeptButLines s (s.publishLines cl ls) :=
  keptButLines_foldl (fun s e => keptButLines_publishOne cl e s) ls s

theorem keptButLines_publishUpTo (cl r : Nat) (s : State) : KeptButLines s (s.publishUpTo cl r) := by
  unfold State.publishUpTo
  exact (keptButLines_publishLines ..).trans (keptButLines_setCluster ..)

theorem keptButLines_publishLine (cl line : Nat) (s : State) : KeptButLines s (s.publishLine cl line) := by
  unfold State.publishLine
  split
  · exact .refl s
  · dsimp only
    split
    · exact keptButLines_publishUpTo ..
    · exact (keptButLines_publishUpTo ..).trans (keptButLines_publishLines ..)

theorem keptButLines_widenOne (cl line : Nat) (s : State) : KeptButLines s (s.widenOne cl line) := by
  have published : KeptButLines s (match Tab.find line (s.cluster cl).dirty with
      | none => s
      | some d => if 0 < d.narrow ∨ 0 < d.after then s.publishLine cl line else s) := by
    split
    · exact .refl s
    · split
      · exact keptButLines_publishLine ..
      · exact .refl s
  unfold State.widenOne
  dsimp only
  split
  · exact published
  · exact published.trans (keptButLines_publishUpTo ..)

theorem keptButLines_widen (cl : Option Nat) (line : Nat) (s : State) : KeptButLines s (s.widen cl line) := by
  refine keptButLines_foldl (fun t e => ?_) s.clusters s
  split
  · exact .refl t
  · exact keptButLines_widenOne ..

theorem keptButLines_recallStash (self : Option (Nat × Nat)) (line : Nat) (wr : Bool) (s : State) :
    KeptButLines s (s.recallStash self line wr) := by
  unfold State.recallStash
  refine KeptButLines.trans ?_ (keptButLines_foldl (fun _ _ => ?_) _ _) <;> rfl

theorem keptButLines_prepWord (who : Who) (held : Tab Word) (a : Dword) (s : State) :
    KeptButLines s (s.prepWord who held a) := by
  unfold State.prepWord
  split
  · split
    · exact .refl s
    · exact ((keptButLines_request ..).trans (keptButLines_recallStash ..)).trans (keptButLines_widen ..)
  · exact .refl s

theorem keptButLines_fetchPrep (who : Who) (held : Tab Word) (pc : Dword) (s : State) :
    KeptButLines s (s.fetchPrep who held pc) := by
  unfold State.fetchPrep
  dsimp only
  split
  · exact keptButLines_prepWord ..
  · exact (keptButLines_prepWord ..).trans (keptButLines_foldl (fun t _ => keptButLines_prepWord _ _ _ t) _ _)

/-! ### Words fetched (R25, R26) -/

theorem instrWords_pos (w : Word) : 0 < instrWords w := by
  unfold instrWords; split
  · decide
  · split <;> decide

theorem instrWords_le (w : Word) : instrWords w ≤ 5 := by
  unfold instrWords; split
  · decide
  · split <;> decide

theorem fetchWords_length {s : State} {who : Who} {held : Tab Word} {a : Dword} {n : Nat} {ws : List Word}
    (h : s.fetchWords who held a n = .ok ws) : ws.length = n := by
  induction n generalizing a ws with
  | zero => cases h; rfl
  | succ n ih =>
    unfold State.fetchWords at h
    split at h
    · cases h
    · split at h
      · cases h
      · cases h
        simp [ih ‹_›]

theorem fetchIns_length {s : State} {who : Who} {held : Tab Word} {pc : Dword} {ws : List Word}
    (h : s.fetchIns who held pc = .words ws) : ws.length ≤ 5 := by
  unfold State.fetchIns at h
  split at h
  · cases h
  · split at h
    · cases h
    · split at h
      · cases h
      · split at h <;> cases h
        rw [fetchWords_length ‹_›]
        exact instrWords_le _

/-! ### The words that the core holds from then on (R218) -/

/-- The address of word j of the instruction at an address, as a key of the words held. -/
def wordKey (pc : Dword) (j : Nat) : Nat := (pc + BitVec.ofNat 64 (4 * j)).toNat

theorem wordKey_eq (pc : Dword) (j : Nat) : (pc + 4 * BitVec.ofNat 64 j).toNat = wordKey pc j := by
  rw [wordKey, BitVec.ofNat_mul]
  rfl

/-- An instruction has no two words at one address. -/
theorem wordKey_inj {pc : Dword} {i j : Nat} (hi : i < 5) (hj : j < 5) (h : wordKey pc i = wordKey pc j) : i = j := by
  unfold wordKey at h
  bv_omega

theorem Frag.keep_append (pc : Dword) (ws : List Word) (x : Word) (f : Frag) :
    (f.keep pc (ws ++ [x])).held = Tab.put (wordKey pc ws.length) x (f.keep pc ws).held := by
  simp [Frag.keep, List.zipIdx_append, wordKey]

/-- The core holds every word fetched. -/
theorem Frag.keep_held (pc : Dword) (f : Frag) {ws : List Word} (hl : ws.length ≤ 5) {j : Nat} {y : Word}
    (h : ws[j]? = some y) : Tab.find (wordKey pc j) (f.keep pc ws).held = some y := by
  induction ws using List.reverseRecOn with
  | nil => simp at h
  | append_singleton ws x ih =>
    rw [List.length_append, List.length_singleton] at hl
    rw [Frag.keep_append]
    by_cases hj : j = ws.length
    · subst hj
      obtain rfl : x = y := by simpa using h
      exact Tab.find_put_same ..
    · have hlt : j < ws.length := by
        have := (List.getElem?_eq_some_iff.1 h).1
        rw [List.length_append, List.length_singleton] at this
        omega
      rw [Tab.find_put_other fun he => hj (wordKey_inj (by omega) (by omega) he)]
      exact ih (by omega) (by rwa [List.getElem?_append_left hlt] at h)

/-- Of the words held before, those at other addresses stay. -/
theorem Frag.keep_others (pc : Dword) (f : Frag) {ws : List Word} {a : Nat} (h : ∀ j, j < ws.length → a ≠ wordKey pc j) :
    Tab.find a (f.keep pc ws).held = Tab.find a f.held := by
  induction ws using List.reverseRecOn with
  | nil => rfl
  | append_singleton ws x ih =>
    rw [List.length_append, List.length_singleton] at h
    rw [Frag.keep_append, Tab.find_put_other (h _ (by omega))]
    exact ih fun j hj => h j (by omega)

/-! ### The wave that issues (R140, R141) -/

/-- An issue of a fragment changes of its wave only the counts of the cycles waited, of which its own is 0. -/
theorem passOver_wave {s : State} {k i : Nat} {w : Wave} {fr : Frag} (hw : Tab.find k s.waves = some w)
    (hf : w.frags[i]? = some fr) :
    ∃ w', Tab.find k (s.passOver k i).waves = some w' ∧ w' = { w with frags := w'.frags } ∧
      w'.frags.length = w.frags.length ∧ w'.frags[i]? = some { fr with readyFor := 0 } := by
  let ready := s.issuable (coreOf k) (slotOf k % Config.slotsPerCore / Config.slotsPerQuad)
  let count := fun (j n : Nat) (f : Frag) =>
    { f with readyFor := if j = k ∧ n = i then 0 else if ready.contains (j, n) then f.readyFor + 1 else 0 }
  let counted := fun (j : Nat) (v : Wave) =>
    if quadOf (slotOf j) = quadOf (slotOf k) then { v with frags := v.frags.mapIdx (count j) } else v
  have waves : (s.passOver k i).waves = s.waves.map fun e => (e.1, counted e.1 e.2) :=
    List.map_congr_left fun e _ => by dsimp only [counted]; split <;> rfl
  refine ⟨{ w with frags := w.frags.mapIdx (count k) }, ?_, rfl, by simp, by simp [hf, count]⟩
  rw [waves, Tab.find_map k counted, hw]
  simp [counted]

/-! ### A word in memory (R25, R218) -/

/-- A word is the little-endian number of its four bytes. -/
theorem ofNat_leNat_bytes {v : Nat → Byte} {x : Word} (h : ∀ b, b < 4 → v b = x.extractLsb' (8 * b) 8) :
    BitVec.ofNat 32 (leNat ((List.range 4).map v)) = x := by
  have bytes : (List.range 4).map v = (List.range 4).map fun b => x.extractLsb' (8 * b) 8 :=
    List.map_congr_left fun b hb => h b (List.mem_range.1 hb)
  rw [bytes]
  apply BitVec.eq_of_toNat_eq
  simp only [List.range, List.range.loop, List.map_cons, List.map_nil, leNat, BitVec.toNat_ofNat, BitVec.extractLsb'_toNat,
    Nat.shiftRight_eq_div_pow]
  have := x.isLt
  omega

/-- A word fetches where its page is mapped and executable and it is held, or its bytes are what the cluster sees. -/
theorem fetchWord_eq {s : State} {who : Who} {held : Tab Word} {a : Dword} {x : Word} {va pa : Nat} {e : Pte}
    (hc : classify a = .global va) (ht : s.translate who.part va = some (e, pa)) (hx : e.x = true)
    (h : Tab.find a.toNat held = some x ∨
        Tab.find a.toNat held = none ∧ ∀ b, b < 4 → s.seen who.cl (pa + b) = x.extractLsb' (8 * b) 8) :
    s.fetchWord who held a = .word x := by
  simp only [State.fetchWord, hc, ht, hx, if_true]
  rcases h with h | ⟨h, hb⟩
  · simp [h]
  · rw [h, Option.getD_none, ofNat_leNat_bytes hb]

theorem fetchWords_eq {s : State} {who : Who} {held : Tab Word} {a : Dword} {ws : List Word}
    (h : ∀ j x, ws[j]? = some x → s.fetchWord who held (a + BitVec.ofNat 64 (4 * j)) = .word x) :
    s.fetchWords who held a ws.length = .ok ws := by
  induction ws generalizing a with
  | nil => rfl
  | cons x ws ih =>
    have first : s.fetchWord who held a = .word x := by simpa using h 0 x rfl
    have rest : s.fetchWords who held (a + 4) ws.length = .ok ws := by
      refine ih fun j y hy => ?_
      have := h (j + 1) y (by simpa using hy)
      rwa [show a + BitVec.ofNat 64 (4 * (j + 1)) = a + 4 + BitVec.ofNat 64 (4 * j) by bv_omega] at this
    simp only [List.length_cons, State.fetchWords, first, rest]

/-- The words of an instruction fetch where each does, and none of them breaks. -/
theorem fetchIns_eq {s : State} {who : Who} {held : Tab Word} {pc : Dword} {ws : List Word}
    (hl : ws.length = instrWords (ws.headD 0))
    (h : ∀ j x, ws[j]? = some x → s.fetchWord who held (pc + BitVec.ofNat 64 (4 * j)) = .word x ∧
      s.fetchBreaks who held (pc + BitVec.ofNat 64 (4 * j)) = false) :
    s.fetchIns who held pc = .words ws := by
  cases ws with
  | nil => exact absurd hl (Nat.ne_of_lt (instrWords_pos _))
  | cons x ws =>
    obtain ⟨first, whole⟩ := h 0 x rfl
    have words := fetchWords_eq fun j y hy => (h j y hy).1
    rw [hl] at words
    have unbroken : (List.range (x :: ws).length).any
        (fun j => s.fetchBreaks who held (pc + BitVec.ofNat 64 (4 * j))) = false := by
      rw [List.any_eq_false]
      intro j hj
      simp [(h j _ (List.getElem?_eq_getElem (List.mem_range.1 hj))).2]
    simp only [Nat.mul_zero, BitVec.add_zero] at first whole
    rw [List.headD_cons] at words
    simp only [State.fetchIns, first, whole, words, unbroken, Bool.false_eq_true, if_false]

/-! ### The turns -/

theorem step_of_agenda {s : State} {t : Turn} {rest : List Turn} (h : s.agenda = t :: rest) :
    step s = takeTurn t { s with agenda := rest } := by
  simp only [step, nextTurn, h]

/-- A fragment that is ready and goes, and that no breakpoint stops, fetches and runs (R140, R226). -/
theorem issueTurn_runs {s : State} {k i : Nat} {w : Wave} {fr : Frag} (hr : s.ready k i = true) (hg : s.goes (k, i) = true)
    (hw : Tab.find k s.waves = some w) (hf : w.frags[i]? = some fr) (hb : s.breakpoint w fr = none) :
    issueTurn k i s = fetchAndRun k i w fr { s.passOver k i with cur := some (k, i) } := by
  simp [issueTurn, hr, hg, hw, hf, hb]

theorem issueTurn_passes {s : State} {k i : Nat} (h : s.ready k i = false ∨ s.goes (k, i) = false) :
    issueTurn k i s = .next s := by
  rcases h with h | h <;> simp [issueTurn, h]

/-- Once the core holds the words fetched, the fragment issues with them held, and of its wave only fragments have changed. -/
theorem issues_keep {s : State} {k i : Nat} {w : Wave} {fr : Frag} (h : Issues s k i w fr) (pc : Dword) (ws : List Word) :
    ∃ w', Issues (s.setFrag k i (·.keep pc ws)) k i w' (fr.keep pc ws) ∧ w' = { w with frags := w'.frags } ∧
      w'.frags.length = w.frags.length := by
  refine ⟨w.setFrag i (·.keep pc ws), ⟨h.cur, by simp [h.wave], ?_⟩, rfl, by simp [Wave.setFrag]⟩
  rw [Wave.setFrag_get, if_pos rfl, h.frag]
  rfl

/-- The fragment that issues, once its lines have been brought near: it has not waited, and of its wave only fragments have
changed. -/
theorem issues_fetchPrep {s : State} {k i : Nat} {w : Wave} {fr : Frag} (hw : Tab.find k s.waves = some w)
    (hf : w.frags[i]? = some fr) (who : Who) (held : Tab Word) (pc : Dword) :
    ∃ w', Issues (State.fetchPrep who held pc { s.passOver k i with cur := some (k, i) }) k i w' { fr with readyFor := 0 } ∧
      w' = { w with frags := w'.frags } ∧ w'.frags.length = w.frags.length := by
  have kept := keptButLines_fetchPrep who held pc { s.passOver k i with cur := some (k, i) }
  obtain ⟨w', found, rest, len, frag⟩ := passOver_wave hw hf
  exact ⟨w', ⟨kept.cur, by rw [kept.waves]; exact found, frag⟩, rest, len⟩

/-- The turn of an issue that goes on to its fetch (R26, R41, R140, R218). -/
theorem step_issue {s : State} {k i : Nat} {rest : List Turn} {w : Wave} {fr : Frag} (h : s.agenda = .issue k i :: rest)
    (hr : State.ready { s with agenda := rest } k i = true) (hg : State.goes { s with agenda := rest } (k, i) = true)
    (hw : Tab.find k s.waves = some w) (hf : w.frags[i]? = some fr) (hb : s.breakpoint w fr = none) :
    step s = fetchAndRun k i w fr { State.passOver k i { s with agenda := rest } with cur := some (k, i) } :=
  (step_of_agenda h).trans (issueTurn_runs hr hg hw hf hb)

/-! ### The three answers of a fetch (R26, R41, R353) -/

section
variable {s : State} {k i : Nat} {w : Wave} {fr : Frag}

theorem fetchAndRun_words {ws : List Word}
    (h : (s.fetchPrep (s.whoOf k w) fr.held fr.pc).fetchIns (s.whoOf k w) fr.held fr.pc = .words ws) :
    fetchAndRun k i w fr s =
      runWords k i w fr ws ((s.fetchPrep (s.whoOf k w) fr.held fr.pc).setFrag k i (·.keep fr.pc ws)) := by
  simp only [fetchAndRun, h]

theorem fetchAndRun_bad {c sub : Nat} {a : Dword}
    (h : (s.fetchPrep (s.whoOf k w) fr.held fr.pc).fetchIns (s.whoOf k w) fr.held fr.pc = .bad c sub a) :
    fetchAndRun k i w fr s =
      .next (((s.fetchPrep (s.whoOf k w) fr.held fr.pc).tick (coreOf k)).trapIssue k i w (fetchTrap c sub a fr)) := by
  simp only [fetchAndRun, h]

theorem fetchAndRun_broken
    (h : (s.fetchPrep (s.whoOf k w) fr.held fr.pc).fetchIns (s.whoOf k w) fr.held fr.pc = .broken) :
    fetchAndRun k i w fr s = .next ((s.fetchPrep (s.whoOf k w) fr.held fr.pc).foundFault (s.partOf w)) := by
  simp only [fetchAndRun, h]
  rfl

theorem runWords_ok {ws : List Word} {j : Instr} (h : decode ws = .ok j) : runWords k i w fr ws s = exec j s := by
  simp only [runWords, h]

theorem runWords_illegalOpcode {ws : List Word} (h : decode ws = .illegalOpcode) :
    runWords k i w fr ws s = .next ((s.tick (coreOf k)).trapIssue k i w (wordTrap 0x01 fr ws)) := by
  simp only [runWords, h]

theorem runWords_illegalEncoding {ws : List Word} (h : decode ws = .illegalEncoding) :
    runWords k i w fr ws s = .next ((s.tick (coreOf k)).trapIssue k i w (wordTrap 0x02 fr ws)) := by
  simp only [runWords, h]

end

/-- A word given up is held no more, and nothing else has changed (R218). -/
theorem giveUpTurn_gives {s : State} {k i : Nat} {w : Wave} {fr : Frag} (a : Dword) (hw : Tab.find k s.waves = some w)
    (hf : w.frags[i]? = some fr) :
    ∃ w' held, Tab.find k (giveUpTurn k i a s).waves = some w' ∧
      (∀ n, n ≠ k → Tab.find n (giveUpTurn k i a s).waves = Tab.find n s.waves) ∧ w' = { w with frags := w'.frags } ∧
      OtherFrags w w' i ∧ w'.frags[i]? = some { fr with held := held } ∧ Tab.find a.toNat held = none ∧
      ∀ n, n ≠ a.toNat → Tab.find n held = Tab.find n fr.held := by
  let drop := fun f : Frag => { f with held := Tab.del a.toNat f.held }
  refine ⟨w.setFrag i drop, Tab.del a.toNat fr.held, ?_, fun n hn => ?_, rfl, ⟨?_, fun n hn => ?_⟩, ?_, ?_, fun n hn => ?_⟩
  · simp [giveUpTurn, hw, drop]
  · simp [giveUpTurn, hn]
  · simp [Wave.setFrag]
  · rw [Wave.setFrag_get, if_neg hn]
  · rw [Wave.setFrag_get, if_pos rfl, hf]
    rfl
  · exact Tab.find_del_same ..
  · exact Tab.find_del_other hn _

/-- A quadrant's turn is the turn of the fragment that R140 and R141 put first. -/
theorem quadTurn_first {s : State} {core q k i : Nat}
    (h : s.first (if (s.starved core q).filter s.goes = [] then (s.quadReady core q).filter s.goes
      else (s.starved core q).filter s.goes) = some (k, i)) : quadTurn core q s = issueTurn k i s := by
  have chosen : s.first (if ((s.starved core q).filter s.goes).isEmpty then s.issuable core q
      else (s.starved core q).filter s.goes) = some (k, i) := by
    simpa only [List.isEmpty_iff, State.issuable] using h
  simp only [quadTurn, chosen]

/-! ### The turn of a context of an Alcove, while its partition is in no partition fault (R328, R330) -/

section
variable {s : State} {cl ctx : Nat} {h : HCtx} (hctx : Tab.find ctx (s.cluster cl).ctxs = some h)
  (hpart : (s.part (s.ownerOf cl)).faulting = false)
include hctx

theorem alcoveTurn_passes (hn : (s.cluster cl).nextCtx ≠ some ctx) : alcoveTurn cl ctx s = .next s := by
  simp [alcoveTurn, hctx, hn]

include hpart

theorem alcoveTurn_ext (hn : (s.cluster cl).nextCtx = some ctx) {j : Instr} (hj : (s.cluster cl).fetch cl ctx h = .ext j) :
    alcoveTurn cl ctx s = exec j s := by
  simp [alcoveTurn, hctx, hpart, hn, hj]

theorem alcoveTurn_base (hn : (s.cluster cl).nextCtx = some ctx) {len : Nat} {j : Rv}
    (hj : (s.cluster cl).fetch cl ctx h = .base len j) :
    alcoveTurn cl ctx s = exec (.handlerInstruction cl ctx len j) s := by
  simp only [alcoveTurn, hctx, hpart, hn, hj, Bool.false_or, bne_self_eq_false, Bool.false_eq_true, if_false]
  rfl

end

/-- Settles O55, turn by turn: an issue through its fetch, its lines and the words then held; the words that fetch; the turns
that pass; a word given up; an event; a quadrant; a context of an Alcove. -/
theorem stepRunsDecodedInstruction : Obligations.StepRunsDecodedInstruction := by
  refine ⟨?_, ?_, ?_, ?_, ?_, ?_, ?_⟩
  · intro s k i rest w fr ha a hr hg hw hf hb who u v
    have run : step s = fetchAndRun k i w fr u := step_issue ha hr hg hw hf hb
    refine ⟨(keptButLines_fetchPrep who fr.held fr.pc u).after_issue rfl, fun ws hfetch => ?_, fun c sub ad hfetch => ?_,
      fun hfetch => ?_⟩
    · obtain ⟨w1, issued, rest1, len1⟩ := issues_fetchPrep (s := a) hw hf who fr.held fr.pc
      obtain ⟨w2, keeps, rest2, len2⟩ := issues_keep issued fr.pc ws
      have run : step s = runWords k i w fr ws (v.setFrag k i (·.keep fr.pc ws)) := run.trans (fetchAndRun_words hfetch)
      refine ⟨_, (fr.keep fr.pc ws).held, w2, rfl, keeps, by rw [rest2, rest1], len2.trans len1,
        fun j y hy => ?_, fun b hb => ?_, fun j hj => run.trans (runWords_ok hj), fun hj => run.trans (runWords_illegalOpcode hj),
        fun hj => run.trans (runWords_illegalEncoding hj)⟩
      · rw [wordKey_eq]
        exact fr.keep_held fr.pc (fetchIns_length hfetch) hy
      · exact fr.keep_others fr.pc fun j hj => wordKey_eq fr.pc j ▸ hb j hj
    · exact run.trans (fetchAndRun_bad hfetch)
    · exact run.trans (fetchAndRun_broken hfetch)
  · intro s who held pc ws hl h
    refine fetchIns_eq hl fun j x hj => ?_
    obtain ⟨va, e, pa, hc, ht, he, hx⟩ := h j x hj
    refine ⟨fetchWord_eq hc ht he (hx.imp_right fun ⟨hn, _, hb⟩ => ⟨hn, hb⟩), ?_⟩
    rcases hx with hx | ⟨hn, hb, -⟩
    · simp only [State.fetchBreaks, hx, Option.isNone_some, Bool.false_and]
    · simp only [State.fetchBreaks, hb, Bool.and_false]
  · intro s k i rest ha a h
    exact (step_of_agenda ha).trans (issueTurn_passes h)
  · intro s k i a rest w fr ha hw hf
    obtain ⟨w', held, given⟩ := giveUpTurn_gives (s := { s with agenda := rest }) a hw hf
    exact ⟨_, w', held, step_of_agenda ha, rfl, given⟩
  · intro s j rest ha
    exact step_of_agenda ha
  · intro s core q k i rest ha a starved ready h
    exact (step_of_agenda ha).trans (quadTurn_first h)
  · intro s cl ctx h rest ha hctx hpart a
    have run : step s = alcoveTurn cl ctx a := step_of_agenda ha
    exact ⟨fun hn => run.trans (alcoveTurn_passes (s := a) hctx hn), fun hn =>
      ⟨fun j hj => run.trans (alcoveTurn_ext (s := a) hctx hpart hn hj),
        fun len j hj => run.trans (alcoveTurn_base (s := a) hctx hpart hn hj)⟩⟩

end Sys2Proof.Machine
end

section
/-! O59, operations that leave memory as it is: barrier objects, the fragments of a wave, the engines' commands, what an access
notes of itself, pre-emption, and the tables of launches, jobs and queues. -/

namespace Sys2Proof.Machine

open Sys2Proof

/-! ### Registers, and what an access notes of itself -/

@[simp] theorem State.writeRegs_mem (c : Ctx) (ws : List RegW) (s : State) : (s.writeRegs c ws).mem = s.mem := rfl

@[simp] theorem State.addFoot_mem (team : Nat) (as : List Acc) (s : State) : (s.addFoot team as).mem = s.mem := rfl

@[simp] theorem State.owe_mem (k : Nat) (s : State) : (s.owe k).mem = s.mem := rfl

@[simp] theorem State.watch_mem (c : Ctx) (as : List Acc) (s : State) : (s.watch c as).mem = s.mem := by
  unfold State.watch
  split
  · rfl
  · split
    · rfl
    · split <;> rfl

@[simp] theorem State.perform_mem (k i : Nat) (as : List Acc) (s : State) : (s.perform k i as).mem = s.mem := by
  unfold State.perform; split <;> rfl

@[simp] theorem State.clearPoison_mem (p : Nat) (as : List Acc) (s : State) : (s.clearPoison p as).mem = s.mem := by
  unfold State.clearPoison; split <;> rfl

@[simp] theorem State.hostAsk_mem (p pa n : Nat) (s : State) : (s.hostAsk p pa n).mem = s.mem :=
  mem_foldState (g := fun s i => s.ask p 3 0 .normal (lineOf pa + i)) (fun _ _ => State.ask_mem ..) _ s

@[simp] theorem State.requestFill_mem (team t : Nat) (hint : Hint) (s : State) : (s.requestFill team t hint).mem = s.mem := by
  unfold State.requestFill
  split
  · rfl
  · split
    · rfl
    · split <;> simp

@[simp] theorem State.prefetch_mem (who : Who) (ea : Dword) (s : State) : (s.prefetch who ea).mem = s.mem := by
  unfold State.prefetch
  split
  · simp
  · split <;> simp
  · rfl

@[simp] theorem State.fillPage_mem (team p : Nat) (hint : Hint) (s : State) : (s.fillPage team p hint).mem = s.mem :=
  mem_foldState (g := fun s j => s.requestFill team (4096 * p + 128 * j) hint) (fun _ _ => State.requestFill_mem ..) _ s

/-! ### Barrier objects -/

@[simp] theorem State.putBar_mem (team t : Nat) (b : Bar) (s : State) : (s.putBar team t b).mem = s.mem := rfl

@[simp] theorem State.counted_mem (core team t : Nat) (h : Holder) (s : State) : (s.counted core team t h).mem = s.mem := by
  cases h <;> rfl

@[simp] theorem State.wakeBarw_mem (team t : Nat) (s : State) : (s.wakeBarw team t).mem = s.mem := rfl

@[simp] theorem State.turnBar_mem (team t : Nat) (s : State) : (s.turnBar team t).mem = s.mem := rfl

@[simp] theorem State.checkBar_mem (team t : Nat) (s : State) : (s.checkBar team t).mem = s.mem := by
  unfold State.checkBar; split <;> rfl

@[simp] theorem State.countHold_mem (core team t : Nat) (h : Hold) (rest : List Hold) (s : State) :
    (s.countHold core team t h rest).mem = s.mem := by
  simp [State.countHold]

@[simp] theorem State.letIn_mem (core team t n : Nat) (s : State) : (s.letIn core team t n).mem = s.mem := by
  induction n generalizing s with
  | zero => rfl
  | succ n ih =>
    unfold State.letIn
    split
    · rfl
    · split
      · rfl
      · simp [ih]

@[simp] theorem State.settleBar_mem (core team t : Nat) (s : State) : (s.settleBar core team t).mem = s.mem := by
  unfold State.settleBar; split <;> simp

@[simp] theorem State.updateBar_mem (core team t : Nat) (g : Bar → Bar) (s : State) :
    (s.updateBar core team t g).mem = s.mem := by
  simp [State.updateBar]

@[simp] theorem State.letInit_mem (core team t n : Nat) (s : State) : (s.letInit core team t n).mem = s.mem := by
  induction n generalizing s with
  | zero => rfl
  | succ n ih => unfold State.letInit; split <;> simp [ih]

@[simp] theorem State.countBytes_mem (core team t n : Nat) (s : State) : (s.countBytes core team t n).mem = s.mem := by
  induction n generalizing s with
  | zero => rfl
  | succ n ih => simp [State.countBytes, ih]

@[simp] theorem State.arrive_mem (core team t : Nat) (h : Holder) (s : State) : (s.arrive core team t h).mem = s.mem := by
  unfold State.arrive; dsimp only; split <;> simp

@[simp] theorem State.countArrivals_mem (k : Nat) (s : State) : (s.countArrivals k).mem = s.mem := by
  unfold State.countArrivals
  split
  · rfl
  · exact mem_foldState (fun _ _ => State.arrive_mem ..) _ s

/-! ### The fragments of a wave, and its region -/

@[simp] theorem State.exitWave_mem (k : Nat) (s : State) : (s.exitWave k).mem = s.mem := by
  unfold State.exitWave
  split
  · rfl
  · dsimp only
    split <;> split <;> rfl

@[simp] theorem State.deliverDue_mem (k : Nat) (s : State) : (s.deliverDue k).mem = s.mem := by
  unfold State.deliverDue
  split
  · rfl
  · split
    · dsimp only; split <;> simp
    · rfl

@[simp] theorem State.settleWave_mem (k : Nat) (s : State) : (s.settleWave k).mem = s.mem := by
  unfold State.settleWave
  dsimp only
  split
  · simp
  · split <;> simp

@[simp] theorem State.markFork_mem (k : Nat) (w : Wave) (ls : List Nat) (out : Word) (f : Nat → Fork) (s : State) :
    (s.markFork k w ls out f).mem = s.mem := by
  unfold State.markFork
  split
  · rfl
  · split
    · split <;> rfl
    · rfl

@[simp] theorem State.restartWaits_mem (team : Nat) (s : State) : (s.restartWaits team).mem = s.mem := rfl

@[simp] theorem State.parkTeams_mem (l : Nat) (s : State) : (s.parkTeams l).mem = s.mem :=
  mem_foldState (g := fun s t => (s.setTeam t fun tm => { tm with parked := true }).restartWaits t) (fun _ _ => rfl) _ s

@[simp] theorem State.parkLaunch_mem (l : Nat) (s : State) : (s.parkLaunch l).mem = s.mem := State.parkTeams_mem ..

@[simp] theorem State.spillWave_mem (k : Nat) (s : State) : (s.spillWave k).mem = s.mem := by
  unfold State.spillWave; split <;> simp

@[simp] theorem State.spillSlot_mem (slot : Nat) (s : State) : (s.spillSlot slot).mem = s.mem := by
  unfold State.spillSlot; split <;> simp

@[simp] theorem State.claimLanding_mem (q : Nat) (w : Wave) (s : State) : (s.claimLanding q w).mem = s.mem := by
  unfold State.claimLanding
  dsimp only
  split
  · split <;> simp
  · rfl

@[simp] theorem State.resumeTeam_mem (t : Nat) (s : State) : (s.resumeTeam t).mem = s.mem := by
  unfold State.resumeTeam; split <;> rfl

theorem State.resumeAll_mem {ts : List Nat} {s t : State} (h : s.resumeAll ts = some t) : t.mem = s.mem := by
  induction ts generalizing s with
  | nil => cases h; rfl
  | cons x ts ih =>
    unfold State.resumeAll at h
    split at h
    · exact ih h
    · split at h
      · rw [ih h, State.resumeTeam_mem]
      · cases h

theorem State.popFault_mem {c : Ctx} {s t : State} {x : TrapInfo} (h : s.popFault c = some (x, t)) : t.mem = s.mem := by
  unfold State.popFault at h
  split at h
  · cases h
  · split at h <;> cases h
    rfl

/-! ### Halts and the debugger's steps -/

@[simp] theorem State.proceedHalt_mem (h : Halt) (s : State) : (s.proceedHalt h).mem = s.mem := by
  unfold State.proceedHalt
  split
  · rfl
  · split
    · rfl
    · split
      · exact State.fatal_mem ..
      · exact State.proceedTrap_mem ..

@[simp] theorem State.orderStep_mem (team w : Nat) (i : Option Nat) (s : State) : (s.orderStep team w i).mem = s.mem := by
  unfold State.orderStep; split <;> simp

/-! ### Banks, engines and their commands -/

@[simp] theorem State.commitImage_mem (core : Nat) (p : PendingBank) (s : State) : (s.commitImage core p).mem = s.mem := by
  unfold State.commitImage
  dsimp only
  split <;> split <;> rfl

@[simp] theorem State.commitOldest_mem (core : Nat) (s : State) : (s.commitOldest core).mem = s.mem := by
  unfold State.commitOldest; split <;> simp

@[simp] theorem State.commitFor_mem (core k b n : Nat) (s : State) : (s.commitFor core k b n).mem = s.mem := by
  induction n generalizing s with
  | zero => rfl
  | succ n ih => unfold State.commitFor; split <;> simp [ih]

@[simp] theorem State.engineFault_mem (wave team : Nat) (f : AsyncFault) (s : State) :
    (s.engineFault wave team f).mem = s.mem := by
  unfold State.engineFault
  extract_lets here
  split
  · rfl
  · split <;> rfl

@[simp] theorem State.setCopy_mem (core q idx : Nat) (g : CopyCmd → CopyCmd) (s : State) :
    (s.setCopy core q idx g).mem = s.mem := rfl

@[simp] theorem State.endCopy_mem (core q idx : Nat) (s : State) : (s.endCopy core q idx).mem = s.mem := rfl

@[simp] theorem State.copyFault_mem (core q idx : Nat) (x : CopyCmd) (sub : Nat) (s : State) :
    (s.copyFault core q idx x sub).mem = s.mem := by
  simp [State.copyFault]

@[simp] theorem CopyCtx.count_mem (c : CopyCtx) (n : Nat) (s : State) : (c.count n s).mem = s.mem := by
  unfold CopyCtx.count; split <;> simp

@[simp] theorem CopyCtx.cleanse_mem (c : CopyCtx) (s : State) : (c.cleanse s).mem = s.mem := by
  unfold CopyCtx.cleanse; split <;> simp

@[simp] theorem State.setMx_mem (core : Nat) (g : Mx → Mx) (s : State) : (s.setMx core g).mem = s.mem := rfl

@[simp] theorem State.matrixFault_mem (core : Nat) (x : Cmd) (code sub : Nat) (s : State) :
    (s.matrixFault core x code sub).mem = s.mem := by
  simp [State.matrixFault]

@[simp] theorem State.takeEngine_mem (core t : Nat) (s : State) : (s.takeEngine core t).mem = s.mem := by
  unfold State.takeEngine
  dsimp only
  split
  · rfl
  · exact mem_foldState (g := fun s x => s.matrixFault core x 0x21 7) (fun _ _ => State.matrixFault_mem ..) _ s

@[simp] theorem State.peerCleanse_mem (p : Nat) (addr : Dword) (n : Nat) (s : State) : (s.peerCleanse p addr n).mem = s.mem :=
  State.clearPoison_mem ..

@[simp] theorem State.eachCluster_mem (p : Nat) (g : Cluster → Cluster) (s : State) : (s.eachCluster p g).mem = s.mem :=
  mem_foldState (g := fun s c => s.setCluster c g) (fun _ _ => rfl) _ s

/-! ### Launches, jobs, queues and teams -/

@[simp] theorem State.failLaunch_mem (l status : Nat) (s : State) : (s.failLaunch l status).mem = s.mem := rfl

@[simp] theorem State.leave_mem (k : Pkt) (w : Work) (s : State) : (s.leave k w).mem = s.mem := rfl

@[simp] theorem State.stage2_mem (l stage : Nat) (s : State) : (s.stage2 l stage).mem = s.mem := by
  unfold State.stage2
  split
  · rfl
  · extract_lets sig sta tgt t
    split <;> rfl

@[simp] theorem State.leaveFailed_mem (k : Pkt) (status : Nat) (s : State) : (s.leaveFailed k status).mem = s.mem := by
  simp [State.leaveFailed]

@[simp] theorem State.leaveBad_mem (k : Pkt) (s : State) : (s.leaveBad k).mem = s.mem := State.leaveFailed_mem ..

@[simp] theorem State.settleLaunch_mem (l : Nat) (s : State) : (s.settleLaunch l).mem = s.mem := by
  unfold State.settleLaunch
  split
  · rfl
  · split
    · split
      · rfl
      · split <;> rfl
    · rfl

@[simp] theorem State.settleJob_mem (key : Nat) (s : State) : (s.settleJob key).mem = s.mem := by
  unfold State.settleJob
  split
  · rfl
  · split <;> rfl

@[simp] theorem State.putJob_mem (p j : Nat) (x : Job) (s : State) : (s.putJob p j x).mem = s.mem := rfl

@[simp] theorem State.brokenJob_mem (l p j dies : Nat) (s : State) : (s.brokenJob l p j dies).mem = s.mem := by
  simp [State.brokenJob]

@[simp] theorem State.retireTile_mem (key n : Nat) (s : State) : (s.retireTile key n).mem = s.mem := by
  simp [State.retireTile]

@[simp] theorem State.abandonTiles_mem (team : Nat) (s : State) : (s.abandonTiles team).mem = s.mem := by
  refine mem_foldState (fun s x => ?_) _ s
  split <;> simp

@[simp] theorem State.addWaves_mem (t : Nat) (pc : Dword) (n : Nat) (slots : List Nat) (s : State) :
    (s.addWaves t pc n slots).mem = s.mem := by
  refine mem_foldState (fun s x => ?_) _ s
  rfl

@[simp] theorem State.dropWaves_mem (t : Nat) (s : State) : (s.dropWaves t).mem = s.mem :=
  mem_foldState (g := fun s k => s.setCore (coreOf k) (·.forget k)) (fun _ _ => rfl) _ s

@[simp] theorem State.cleanLine_mem (p dst n : Nat) (s : State) : (s.cleanLine p dst n).mem = s.mem := by
  unfold State.cleanLine
  split
  · split
    · split <;> rfl
    · rfl
  · rfl

@[simp] theorem State.setDebug_mem (l : Nat) (g : Debug → Debug) (s : State) : (s.setDebug l g).mem = s.mem := rfl

/-! ### The mailbox and REPART -/

@[simp] theorem State.giveQueue_mem (q part : Nat) (s : State) : (s.giveQueue q part).mem = s.mem := by
  unfold State.giveQueue; split <;> rfl

@[simp] theorem State.serveAsk_mem (s : State) : s.serveAsk.mem = s.mem := by
  unfold State.serveAsk
  split
  · rfl
  · split <;> simp

@[simp] theorem State.setPeer_mem (e : Nat × Nat × BitVec 16) (s : State) : (s.setPeer e).mem = s.mem := rfl

@[simp] theorem State.applyFaults_mem (ps : List Nat) (s : State) : (s.applyFaults ps).mem = s.mem :=
  mem_foldState (g := fun s p => s.setPart p fun t => { t with faulting := true }) (fun _ _ => rfl) _ s

@[simp] theorem State.endRepart_mem (a : Answer) (s : State) : (s.endRepart a).mem = s.mem := by
  simp [State.endRepart]

@[simp] theorem State.spillBank_mem (core b : Nat) (s : State) : (s.spillBank core b).mem = s.mem := by
  unfold State.spillBank; split <;> rfl

@[simp] theorem State.spillCore_mem (core : Nat) (s : State) : (s.spillCore core).mem = s.mem := by
  simp [State.spillCore, mem_foldState (g := fun s (_ : PendingBank) => s.commitOldest core) fun _ _ => State.commitOldest_mem ..]

@[simp] theorem State.setFreeSlot_mem (r : JRecord) (s : State) : (s.setFreeSlot r).mem = s.mem := by
  unfold State.setFreeSlot; split <;> rfl

@[simp] theorem State.unpark_mem (ls : List Nat) (s : State) : (s.unpark ls).mem = s.mem :=
  (mem_foldState (g := fun s l => s.setLaunch l fun x => { x with parked := false }) (fun _ _ => rfl) _ _).trans
    (mem_foldState (g := fun s (b : Nat × Nat) => s.setCore b.1 (·.returnBank b.2)) (fun _ _ => rfl) _ s)

@[simp] theorem State.commitRepart_mem (new quiet : List Nat) (s : State) : (s.commitRepart new quiet).mem = s.mem := by
  simp [State.commitRepart]

@[simp] theorem State.rollBack_mem (s : State) : s.rollBack.mem = s.mem := by
  simp [State.rollBack]

@[simp] theorem State.retarget_mem (core : Nat) (s : State) : (s.retarget core).mem = s.mem := by
  unfold State.retarget; dsimp only; split <;> rfl

end Sys2Proof.Machine
end

section
/-! O59, the accesses of a wave: each read, write and read-modify-write of a lane keeps the canonical form of memory. -/

namespace Sys2Proof.Machine

open Sys2Proof

section

variable {s : State} (h : memWf s.mem)
include h

/-! ### Releases and pages -/

theorem State.memWf_publishAll {cl : Nat} : memWf (s.publishAll cl).mem := State.memWf_publishLines h _ _

theorem Ctx.memWf_release {c : Ctx} {scope : Nat} : memWf (c.release scope s).mem := State.memWf_release h _ _

theorem State.memWf_unpin {x : Nat × Nat} : memWf (s.unpin x).mem := by
  unfold State.unpin
  rw [State.claimOn_mem]
  exact State.memWf_writeBackPage h _ _

theorem State.memWf_openPage {team p : Nat} : memWf (s.openPage team p).mem := State.memWf_writeBackPage h _ _

theorem State.memWf_bindPage {team p va pa : Nat} : memWf (s.bindPage team p va pa).mem := State.memWf_openPage h

theorem State.memWf_pageBytes {cl team p : Nat} {js : List Nat} : memWf (s.pageBytes cl team p js).2.mem := by
  induction js generalizing s with
  | nil => exact h
  | cons j js ih =>
    unfold State.pageBytes
    extract_lets t filled
    split
    · exact ih (State.memWf_readScratch h _ _ _ _ _)
    · exact ih h

theorem State.memWf_unstash {cl team p : Nat} : memWf (s.unstash cl team p).mem := by
  unfold State.unstash
  split
  · exact h
  · exact State.memWf_pageBytes (State.memWf_openPage h)

theorem State.memWf_writeBackLine {team t : Nat} : memWf (s.writeBackLine team t).mem := by
  unfold State.writeBackLine
  split
  · exact h
  · split
    · exact memWf_memWrites h _ _
    · exact h

theorem State.memWf_invalLine {team t : Nat} : memWf (s.invalLine team t).mem := by
  unfold State.invalLine
  split
  · exact h
  · extract_lets l loc u
    split
    · show memWf u.mem
      unfold u
      split <;> exact h
    · exact h

theorem State.memWf_flushAt {who : Who} {inval : Bool} {ea : Dword} : memWf (s.flushAt who inval ea).mem := by
  unfold State.flushAt
  split
  · dsimp only
    split
    · exact State.memWf_invalLine (State.memWf_pin h _ _)
    · exact State.memWf_writeBackLine (State.memWf_pin h _ _)
  · split
    · exact h
    · dsimp only
      split <;> exact State.memWf_publishLine h _ _
  · exact h

/-! ### Loads of a lane -/

theorem Ctx.memWf_loadHalf {c : Ctx} {bound : Option (Nat × Nat)} {a : Dword} : memWf (c.loadHalf bound a s).2.mem := by
  unfold Ctx.loadHalf
  split
  · exact h
  · exact State.memWf_load h _ _ _

theorem Ctx.memWf_loadLane {c : Ctx} {n : Nat} {a : Dword} : memWf (c.loadLane n a s).2.mem := by
  unfold Ctx.loadLane
  split
  · exact State.memWf_load h _ _ _
  · split
    · exact h
    · dsimp only
      split
      · exact Ctx.memWf_loadHalf (Ctx.memWf_loadHalf h)
      · exact State.memWf_load h _ _ _

theorem Ctx.memWf_loadEach {c : Ctx} {n : Nat} {ls : List (Nat × Dword)} : memWf (c.loadEach n ls s).2.mem := by
  induction ls generalizing s with
  | nil => exact h
  | cons x ls ih => exact ih (Ctx.memWf_loadLane h)

theorem Ctx.memWf_loadLanes {c : Ctx} {n : Nat} {ls : List (Nat × Dword)} : memWf (c.loadLanes n ls s).2.mem :=
  Ctx.memWf_loadEach h

theorem Ctx.memWf_loadWords {c : Ctx} {ea : Dword} {n : Nat} : memWf (c.loadWords ea n s).2.mem := by
  induction n generalizing s ea with
  | zero => exact h
  | succ n ih => exact ih (Ctx.memWf_loadLane h)

theorem State.memWf_loadEach {who : Who} {n : Nat} {ls : List (Nat × Dword)} : memWf (s.loadEach who n ls).2.mem := by
  induction ls generalizing s with
  | nil => exact h
  | cons x ls ih => exact ih (State.memWf_load h _ _ _)

theorem memWf_loadBlocks {c : Ctx} {ls : List Nat} : memWf (loadBlocks c ls s).2.mem := by
  induction ls generalizing s with
  | nil => exact h
  | cons l ls ih => exact ih (Ctx.memWf_loadLane (Ctx.memWf_loadWords h))

theorem memWf_waitaReads {c : Ctx} : memWf (waitaReads c s).2.mem := by
  unfold waitaReads
  dsimp only
  split
  · exact Ctx.memWf_loadLanes h
  · exact State.memWf_loadEach h

/-! ### Stores and read-modify-writes of a lane -/

theorem Ctx.memWf_readOld {c : Ctx} {a : Dword} {e : Early} : memWf (c.readOld a e s).2.mem := by
  unfold Ctx.readOld
  split
  · exact h
  · exact State.memWf_toHome (by rw [State.observe_mem]; exact h) _ _ _ _

theorem Ctx.memWf_storeOld {c : Ctx} {a : Dword} {e : Early} {v : Nat} : memWf (c.storeOld a e v s).mem := by
  unfold Ctx.storeOld
  split
  · exact h
  · rw [State.markWrote_mem]
    exact memWf_memWrites (State.memWf_toHome h _ _ _ _) _ _

theorem Ctx.memWf_storeNow {c : Ctx} {n v : Nat} {a : Dword} : memWf (c.storeNow n a v s).mem :=
  State.memWf_storeLoose h _ _ _ _ _

theorem Ctx.memWf_storeWords {c : Ctx} {rmw : Bool} {n v : Nat} {a : Dword} : memWf (c.storeWords rmw n a v s).mem := by
  induction n generalizing s a v with
  | zero => exact h
  | succ n ih =>
    refine ih ?_
    split
    · exact Ctx.memWf_storeOld h
    · exact Ctx.memWf_storeNow h

theorem Ctx.memWf_storeLane {c : Ctx} {n v : Nat} {a : Dword} : memWf (c.storeLane n a v s).mem := by
  unfold Ctx.storeLane
  split
  · exact Ctx.memWf_storeWords h
  · exact Ctx.memWf_storeNow h

theorem Ctx.memWf_rmwLane {c : Ctx} {n : Nat} {a : Dword} {g : Nat → Nat} : memWf (c.rmwLane n a g s).2.mem := by
  unfold Ctx.rmwLane
  split
  · extract_lets word lo hi old
    have hword : ∀ {j s}, memWf s.mem → memWf (word j s).2.mem := by
      intro j s hs
      unfold word
      dsimp only
      split
      · exact Ctx.memWf_readOld hs
      · exact State.memWf_load hs _ _ _
    refine Ctx.memWf_storeWords ?_
    unfold hi
    split
    · exact hword (hword h)
    · exact hword h
  · show memWf (State.mem (State.loosen ..))
    rw [State.loosen_mem]
    exact State.memWf_rmw (by rw [State.observe_mem]; exact h) _ _ _ _

theorem Ctx.memWf_rmwEach {c : Ctx} {n : Nat} {g : Nat → Nat → Nat} {ls : List (Nat × Dword)} :
    memWf (c.rmwEach n g ls s).2.mem := by
  induction ls generalizing s with
  | nil => exact h
  | cons x ls ih => exact ih (Ctx.memWf_rmwLane h)

/-! ### What a wave gives to the engines, and reads ahead of a REP -/

theorem State.memWf_enqueue {k q : Nat} {w : Wave} {r : BitVec 512} : memWf (s.enqueue k w q r).mem := by
  unfold State.enqueue
  split
  · exact h
  · exact h
  · exact h
  · exact State.memWf_release h _ _

theorem memWf_pushLanes {c : Ctx} {ls : List Nat} : memWf (pushLanes c ls s).mem := by
  unfold pushLanes
  split
  · exact h
  · exact memWf_foldState (fun _ _ hs => State.memWf_enqueue hs) _ h

theorem State.memWf_startBatch {wk k : Nat} : memWf (s.startBatch wk k).mem := State.memWf_release h _ _

theorem State.memWf_drainRegion {k : Nat} : memWf (s.drainRegion k).mem := by
  unfold State.drainRegion
  split
  · exact h
  · dsimp only
    split
    · exact h
    · exact State.memWf_startBatch h

theorem memWf_skipBody {who : Who} {held : Tab Word} {k : Nat} {a : Dword} : memWf (skipBody who held k a s).2.mem := by
  induction k generalizing s a with
  | zero => exact h
  | succ k ih =>
    have hp := State.memWf_prepWord h who held a
    unfold skipBody
    dsimp only
    split
    · exact hp
    · split
      · exact hp
      · exact ih hp

end

end Sys2Proof.Machine
end

section
/-! O59, the bodies of the wave instructions: whatever state the answer of one carries has a canonical memory. -/

namespace Sys2Proof.Machine

open Sys2Proof

@[simp] theorem Act.keepsMem_next (t : State) : (Act.next t).KeepsMem ↔ memWf t.mem := Iff.rfl

@[simp] theorem Act.keepsMem_goto (pc : Dword) (t : State) : (Act.goto pc t).KeepsMem ↔ memWf t.mem := Iff.rfl

@[simp] theorem Act.keepsMem_wait (w : Wait) (t : State) : (Act.wait w t).KeepsMem ↔ memWf t.mem := Iff.rfl

@[simp] theorem Act.keepsMem_moved (i : Option Nat) (t : State) : (Act.moved i t).KeepsMem ↔ memWf t.mem := Iff.rfl

@[simp] theorem Act.keepsMem_after (x : TrapInfo) (t : State) : (Act.after x t).KeepsMem ↔ memWf t.mem := Iff.rfl

section

variable {c : Ctx} {s : State} (h : memWf s.mem)
include h

/-- An access that its checks let through performs what it is given, and notes itself. -/
theorem Ctx.access_keepsMem {as : List Acc} {owes : Bool} {g : State → State} (hg : memWf (g s).mem) :
    (c.access s as owes g).KeepsMem := by
  unfold Ctx.access
  split
  · exact h
  · split
    · trivial
    · split
      · simpa using h
      · split
        · exact h
        · dsimp only
          split <;> simpa using hg

/-! ### Registers, scales and modes -/

theorem actBody_keepsMem : (actBody c s).KeepsMem := by
  simpa [actBody] using h

theorem bfpqBody_keepsMem : (bfpqBody c s).KeepsMem := by
  unfold bfpqBody; split <;> exact h

theorem smovBody_keepsMem : (smovBody c s).KeepsMem := by
  unfold smovBody
  dsimp only
  split
  · exact h
  · split <;> exact h

theorem sbindBody_keepsMem : (sbindBody c s).KeepsMem := by
  unfold sbindBody
  dsimp only
  split
  · exact h
  · split
    · exact h
    · split
      · trivial
      · exact h
    · exact h
    · exact h
    · exact h

theorem scvtBody_keepsMem : (scvtBody c s).KeepsMem := by
  unfold scvtBody; split <;> exact h

theorem saccBody_keepsMem : (saccBody c s).KeepsMem := by
  unfold saccBody
  split
  · trivial
  · exact h

theorem getBody_keepsMem : (getBody c s).KeepsMem := by
  unfold getBody; split <;> exact h

theorem setmodeBody_keepsMem : (setmodeBody c s).KeepsMem := by
  unfold setmodeBody; split <;> exact h

theorem xlockBody_keepsMem : (xlockBody c s).KeepsMem := by
  unfold xlockBody
  dsimp only
  split
  · exact h
  · split
    · exact h
    · split
      · simpa using h
      · exact h

theorem xfreeBody_keepsMem : (xfreeBody c s).KeepsMem := by
  unfold xfreeBody; split <;> exact h

theorem cutqBody_keepsMem : (cutqBody c s).KeepsMem := by
  unfold cutqBody; split <;> exact h

theorem icinvBody_keepsMem : (icinvBody c s).KeepsMem := by
  unfold icinvBody; split <;> exact h

/-! ### Loads, stores and atomics -/

theorem loadBody_keepsMem {ea : Ctx → Nat → Dword} : (loadBody ea c s).KeepsMem :=
  Ctx.access_keepsMem h (Ctx.memWf_loadLanes h)

theorem sldBody_keepsMem : (sldBody c s).KeepsMem := by
  unfold sldBody
  split
  · exact h
  · exact Ctx.access_keepsMem h (Ctx.memWf_loadLanes h)

theorem actldBody_keepsMem : (actldBody c s).KeepsMem := by
  unfold actldBody
  split
  · exact h
  · refine Ctx.access_keepsMem h ?_
    rw [State.setCore_mem]
    exact Ctx.memWf_loadWords h

theorem ldbfBody_keepsMem : (ldbfBody c s).KeepsMem := Ctx.access_keepsMem h (memWf_loadBlocks h)

theorem stBody_keepsMem : (stBody c s).KeepsMem := by
  refine Ctx.access_keepsMem h ?_
  rw [State.clearPoison_mem]
  exact memWf_foldState (fun _ _ hs => Ctx.memWf_storeLane hs) _ h

theorem sstBody_keepsMem : (sstBody c s).KeepsMem := by
  refine Ctx.access_keepsMem h ?_
  rw [State.clearPoison_mem]
  exact memWf_foldState (fun _ _ hs => Ctx.memWf_storeNow hs) _ h

theorem sstStreamBody_keepsMem : (sstStreamBody c s).KeepsMem := by
  unfold sstStreamBody
  extract_lets j tgt mx
  generalize (if tgt = true then 4 else 3) = kind
  split
  · exact h
  · split
    · trivial
    · split
      · trivial
      · split
        · trivial
        · split <;> exact h

theorem rmwBody_keepsMem {n : Ctx → Nat} {g : Ctx → Nat → Nat → Nat} : (rmwBody n g c s).KeepsMem :=
  Ctx.access_keepsMem h (Ctx.memWf_rmwEach h)

theorem fenceBody_keepsMem : (fenceBody c s).KeepsMem := by
  unfold fenceBody
  split
  · exact h
  · show memWf (State.mem (ite ..))
    split
    · exact Ctx.memWf_release h
    · exact h

/-! ### Pages and lines -/

theorem prefBody_keepsMem : (prefBody c s).KeepsMem := by
  unfold prefBody
  split
  · exact h
  · dsimp only
    split
    · simpa using h
    · rw [Act.keepsMem_next, mem_foldState (fun _ _ => State.prefetch_mem ..)]
      exact h

theorem spmapBody_keepsMem {fill : Bool} : (spmapBody fill c s).KeepsMem := by
  unfold spmapBody
  split
  · exact h
  · split
    · trivial
    · split
      · simpa using h
      · split
        · exact h
        · refine memWf_foldState (fun s l hs => ?_) _ h
          dsimp only
          split
          · split
            · exact hs
            · split
              · rw [State.fillPage_mem]
                exact State.memWf_bindPage (State.memWf_pin (s := s.setWave ..) hs _ _)
              · exact State.memWf_bindPage (State.memWf_pin (s := s.setWave ..) hs _ _)
          · exact hs

theorem unstashBody_keepsMem : (unstashBody c s).KeepsMem := by
  unfold unstashBody
  split
  · exact h
  · split
    · trivial
    · split
      · simpa using h
      · split
        · exact h
        · refine memWf_foldState (fun s l hs => ?_) _ h
          dsimp only
          split
          · exact State.memWf_unstash (State.memWf_pin (s := s.setWave ..) hs _ _)
          · exact hs

theorem flushBody_keepsMem {inval : Bool} : (flushBody inval c s).KeepsMem := by
  unfold flushBody
  dsimp only
  split
  · exact h
  · split
    · trivial
    · split
      · simpa using h
      · split
        · exact h
        · rw [Act.keepsMem_next, State.perform_mem]
          exact memWf_foldState (fun _ _ hs => State.memWf_flushAt hs) _ h

/-! ### Barrier objects and waits -/

theorem barEach_keepsMem {g : Nat → Nat → State → State} (hg : ∀ l t u, (g l t u).mem = u.mem) :
    (barEach c s g).KeepsMem := by
  unfold barEach
  split
  · exact h
  · split
    · trivial
    · split
      · exact h
      · rw [Act.keepsMem_next, State.watch_mem, State.perform_mem]
        refine memWf_foldState (fun s l hs => ?_) _ h
        rw [hg]
        exact State.memWf_pin hs _ _

theorem bariBody_keepsMem : (bariBody c s).KeepsMem := barEach_keepsMem h fun _ _ _ => by simp

theorem barxBody_keepsMem : (barxBody c s).KeepsMem := barEach_keepsMem h fun _ _ _ => by simp

theorem doneWaiting_keepsMem : (doneWaiting c s).KeepsMem := by
  unfold doneWaiting
  split
  · rename_i hp
    rw [Act.keepsMem_after, State.popFault_mem hp]
    exact h
  · exact h

/-- The end of a BARA: it waits where its arrival is held, and is done otherwise. -/
theorem heldOrDone_keepsMem {held : Bool} {as : List Acc} :
    (if held = true then Act.wait .held s else .next (s.watch c as)).KeepsMem := by
  split
  · exact h
  · simpa using h

theorem baraBody_keepsMem : (baraBody c s).KeepsMem := by
  have hr := Ctx.memWf_release (c := c) (scope := 1) h
  unfold baraBody
  split
  · trivial
  · split
    · exact h
    · dsimp only
      split
      · exact h
      · split
        · exact heldOrDone_keepsMem h
        · split
          · trivial
          · split
            · exact hr
            · split
              · exact hr
              · refine heldOrDone_keepsMem ?_
                simpa using State.memWf_pin hr _ _

theorem barwWaits_keepsMem : (barwWaits c s).KeepsMem := by
  unfold barwWaits
  split
  · exact h
  · split
    · exact h
    · split
      · trivial
      · dsimp only
        have hp := State.memWf_pin h c.w.team (barAddr c c.low)
        split
        · exact h
        · split
          · exact doneWaiting_keepsMem (by simpa using hp)
          · split
            · rename_i hf
              rw [Act.keepsMem_after, State.popFault_mem hf]
              exact hp
            · exact hp

theorem barwBody_keepsMem : (barwBody c s).KeepsMem := by
  unfold barwBody
  split
  · exact h
  · exact barwWaits_keepsMem h

theorem waitaBody_keepsMem : (waitaBody c s).KeepsMem := by
  have hr := memWf_waitaReads (c := c) h
  unfold waitaBody
  dsimp only
  split
  · exact h
  · split
    · trivial
    · split
      · simpa using h
      · split
        · exact h
        · split <;> simpa using hr

theorem waitbBody_keepsMem : (waitbBody c s).KeepsMem := by
  unfold waitbBody
  split
  · exact h
  · dsimp only
    split
    · exact h
    · exact doneWaiting_keepsMem (s := s.setWave ..) h

/-! ### Queues, launches and tiles -/

theorem pushBody_keepsMem : (pushBody c s).KeepsMem := by
  unfold pushBody
  dsimp only
  split
  · exact h
  · split
    · split
      · trivial
      · split
        · exact h
        · exact memWf_pushLanes h
    · exact memWf_pushLanes h

theorem sealBody_keepsMem : (sealBody c s).KeepsMem := by
  unfold sealBody; split <;> exact h

theorem qstatBody_keepsMem : (qstatBody c s).KeepsMem := by
  unfold qstatBody
  dsimp only
  split <;> exact h

theorem launchWait_keepsMem {l : Nat} : (launchWait c l s).KeepsMem := by
  show memWf (State.mem (ite ..))
  split <;> exact h

theorem launchLanes_keepsMem {ls : List Nat} : (launchLanes c ls s).KeepsMem := by
  induction ls generalizing s with
  | nil => exact h
  | cons l ls ih =>
    have hr := Ctx.memWf_release (c := c) (scope := 4) h
    unfold launchLanes
    dsimp only
    split
    · exact ih hr
    · exact launchWait_keepsMem hr

theorem launchBody_keepsMem : (launchBody c s).KeepsMem := by
  unfold launchBody
  dsimp only
  split
  · exact h
  · split
    · exact launchWait_keepsMem h
    · exact launchLanes_keepsMem h

theorem tlpopBody_keepsMem : (tlpopBody c s).KeepsMem := by
  unfold tlpopBody
  split
  · exact h
  · dsimp only
    split
    · exact h
    · split
      · exact h
      · split
        · exact h
        · split <;> exact h

theorem tldoneBody_keepsMem : (tldoneBody c s).KeepsMem := by
  have hr := Ctx.memWf_release (c := c) (scope := 4) h
  unfold tldoneBody
  split
  · exact h
  · dsimp only
    split
    · exact hr
    · split
      · exact hr
      · split
        · exact hr
        · simpa using hr

/-! ### Traps, control flow and regions -/

theorem trapBody_keepsMem : (trapBody c s).KeepsMem := by
  unfold trapBody; split <;> exact h

theorem bkptBody_keepsMem : (bkptBody c s).KeepsMem := by
  unfold bkptBody
  split
  · exact h
  · split
    · exact h
    · split <;> exact h

theorem tretBody_keepsMem : (tretBody c s).KeepsMem := by
  unfold tretBody
  split
  · trivial
  · dsimp only
    split <;> simpa using h

theorem hostRequest_keepsMem : (hostRequest c s).KeepsMem := by
  unfold hostRequest
  dsimp only
  split
  · split <;> exact h
  · split
    · exact h
    · split
      · exact h
      · exact State.memWf_homeWrite h _ _ _

theorem syswBody_keepsMem : (syswBody c s).KeepsMem := by
  unfold syswBody
  dsimp only
  split
  · exact h
  · split
    · split
      · trivial
      · exact h
    · split
      · exact hostRequest_keepsMem h
      · exact h
    · exact h

theorem braBody_keepsMem : (braBody c s).KeepsMem := h

theorem brcBody_keepsMem : (brcBody c s).KeepsMem := by
  unfold brcBody
  dsimp only
  split
  · simpa using h
  · split
    · simpa using h
    · split
      · trivial
      · simpa using h

theorem joinBody_keepsMem : (joinBody c s).KeepsMem := by
  have hr := Ctx.memWf_release (c := c) (scope := 0) h
  unfold joinBody
  dsimp only
  split
  · simpa using hr
  · split
    · simpa using hr
    · split
      · simpa using hr
      · split
        · exact hr
        · simpa using hr

theorem jumpBody_keepsMem {a : Ctx → Nat} : (jumpBody a c s).KeepsMem := by
  unfold jumpBody
  dsimp only
  split
  · trivial
  · split
    · exact h
    · split
      · trivial
      · simpa using h

theorem repBody_keepsMem : (repBody c s).KeepsMem := by
  unfold repBody
  extract_lets k n
  split
  · have hk := memWf_skipBody (who := c.who s) (held := c.fr.held) (k := k) (a := c.seqPc) h
    split
    · trivial
    · rename_i he
      rw [he] at hk
      simpa using hk
    · rename_i he
      rw [he] at hk
      exact hk
  · exact h

theorem exitBody_keepsMem : (exitBody c s).KeepsMem := by
  unfold exitBody
  split
  · trivial
  · simpa using h

theorem genBody_keepsMem : (genBody c s).KeepsMem := by
  unfold genBody
  split
  · trivial
  · split
    · trivial
    · dsimp only
      split <;> simpa using h

theorem yldBody_keepsMem : (yldBody c s).KeepsMem := by
  unfold yldBody
  split
  · trivial
  · dsimp only
    split
    · exact h
    · split
      · trivial
      · split
        · exact State.memWf_startBatch h
        · split
          · exact State.memWf_startBatch (s := s.setWave ..) h
          · exact h

theorem gendBody_keepsMem : (gendBody c s).KeepsMem := by
  unfold gendBody
  split
  · trivial
  · dsimp only
    split
    · exact h
    · split
      · exact State.memWf_drainRegion (s := s.setWave ..) h
      · simpa using h

theorem gflipBody_keepsMem : (gflipBody c s).KeepsMem := by
  unfold gflipBody
  split
  · trivial
  · dsimp only
    split
    · exact h
    · split
      · trivial
      · exact State.memWf_startBatch h

theorem gnextBody_keepsMem : (gnextBody c s).KeepsMem := by
  have hr := State.memWf_release h (clusterOf (coreOf c.k)) 0
  unfold gnextBody
  split
  · trivial
  · dsimp only
    split
    · exact h
    · split
      · exact hr
      · refine State.memWf_drainRegion ?_
        exact hr

theorem takeBody_keepsMem : (takeBody c s).KeepsMem := by
  unfold takeBody
  split
  · trivial
  · exact h

end

end Sys2Proof.Machine
end

section
/-! O59, the engines and the Alcoves: a copy command, a matrix record, a peer's store and a handler's instruction keep the
canonical form of memory. -/

namespace Sys2Proof.Machine

open Sys2Proof

/-- Whatever state a unit of a copy command leaves has a canonical memory. -/
def CopyOut.KeepsMem : CopyOut → Prop
  | .moved t _ => memWf t.mem
  | _ => True

/-- Whatever state a handler's instruction leaves has a canonical memory. -/
def AlOut.KeepsMem : AlOut → Prop
  | .goes _ t => memWf t.mem
  | _ => True

/-- A command that is hindered moves nothing. -/
theorem CopyCtx.hinder_keepsMem {c : CopyCtx} {s : State} {ea : Dword} {n : Nat} {rd wr : Bool} {x : CopyOut}
    (h : c.hinder s ea n rd wr = some x) : x.KeepsMem := by
  unfold CopyCtx.hinder at h
  split at h
  · cases h; trivial
  · split at h
    · cases h; trivial
    · split at h <;> cases h
      trivial

theorem CopyCtx.hinderIf_keepsMem {c : CopyCtx} {s : State} {b : Prop} [Decidable b] {ea : Dword} {n : Nat} {rd wr : Bool}
    {x : CopyOut} (h : (if b then c.hinder s ea n rd wr else none) = some x) : x.KeepsMem := by
  split at h
  · exact CopyCtx.hinder_keepsMem h
  · cases h

theorem CopyCtx.barSusp_keepsMem {c : CopyCtx} {x : CopyOut} (h : c.barSusp = some x) : x.KeepsMem := by
  unfold CopyCtx.barSusp at h
  split at h
  · obtain ⟨p, -, rfl⟩ := Option.map_eq_some_iff.1 h
    trivial
  · cases h

theorem alEndBody_keepsMem {rd rs1 : BitVec 5} {imm : BitVec 12} {x : HCtx} {s : State} :
    (alEndBody rd rs1 imm x s).KeepsMem := by
  unfold alEndBody; split <;> trivial

section

variable {s : State} (h : memWf s.mem)
include h

/-! ### Copy engines (R242 to R248) -/

theorem CopyCtx.word_keepsMem {c : CopyCtx} {i : Nat} : (c.word s i).KeepsMem := by
  unfold CopyCtx.word
  extract_lets r gath
  split
  · rename_i hx
    exact CopyCtx.hinderIf_keepsMem hx
  · split
    · rename_i hx
      exact CopyCtx.barSusp_keepsMem hx
    · split
      · split
        · rename_i hx
          exact CopyCtx.hinder_keepsMem hx
        · show memWf (CopyCtx.count ..).mem
          rw [CopyCtx.count_mem]
          exact State.memWf_store h _ _ _ _
      · split
        · rename_i hx
          exact CopyCtx.hinder_keepsMem hx
        · split
          · split
            · show memWf (CopyCtx.count ..).mem
              rw [CopyCtx.count_mem]
              exact State.memWf_load h _ _ _
            · trivial
          · split
            · rename_i hx
              exact CopyCtx.hinder_keepsMem hx
            · show memWf (CopyCtx.count ..).mem
              rw [CopyCtx.count_mem]
              exact State.memWf_store (State.memWf_load h _ _ _) _ _ _ _

theorem memWf_loadBlockWords {who : Who} {a : Dword} {n : Nat} : memWf (loadBlockWords who a n s).2.mem := by
  induction n generalizing s a with
  | zero => exact h
  | succ n ih => exact ih (State.memWf_load h _ _ _)

theorem CopyCtx.block_keepsMem {c : CopyCtx} {i : Nat} : (c.block s i).KeepsMem := by
  unfold CopyCtx.block
  extract_lets r n row col w src scAt split mx
  split
  · trivial
  · split
    · rename_i hx
      obtain ⟨a, -, ha⟩ := List.exists_of_findSome?_eq_some hx
      exact CopyCtx.hinder_keepsMem ha
    · split
      · rename_i hx
        exact CopyCtx.hinderIf_keepsMem hx
      · split
        · rename_i hx
          exact CopyCtx.barSusp_keepsMem hx
        · show memWf (CopyCtx.count ..).mem
          rw [CopyCtx.count_mem, State.setCore_mem]
          show memWf (State.mem (Prod.snd (ite ..)))
          split
          · exact State.memWf_load (memWf_loadBlockWords h) _ _ _
          · exact memWf_loadBlockWords h

theorem CopyCtx.memWf_complete {c : CopyCtx} {q idx : Nat} : memWf (c.complete q idx s).mem := by
  unfold CopyCtx.complete
  dsimp only
  split
  · exact h
  · split
    · simpa using h
    · exact h
    · simpa using h
    · exact h
    · exact State.memWf_store h _ _ _ _

theorem CopyCtx.memWf_word {c : CopyCtx} {i n : Nat} {t : State} (hw : c.word s i = .moved t n) : memWf t.mem := by
  have ht := CopyCtx.word_keepsMem (c := c) (i := i) h
  rwa [hw] at ht

/-- A unit of a command is a block of a stream or a word of another record. -/
theorem CopyCtx.memWf_unit {c : CopyCtx} {b : Prop} [Decidable b] {i n : Nat} {t : State}
    (hu : (if b then c.block s i else c.word s i) = .moved t n) : memWf t.mem := by
  split at hu
  · have ht := CopyCtx.block_keepsMem (c := c) (i := i) h
    rwa [hu] at ht
  · exact CopyCtx.memWf_word h hu

theorem memWf_copyRun {core q idx n : Nat} : memWf (copyRun core q idx n s).mem := by
  induction n generalizing s with
  | zero =>
    unfold copyRun
    split
    · exact h
    · split
      · exact h
      · dsimp only
        split
        · exact CopyCtx.memWf_complete (by simpa using h)
        · simpa using h
  | succ n ih =>
    unfold copyRun
    split
    · exact h
    · split
      · exact h
      · dsimp only
        split
        · exact CopyCtx.memWf_complete (by simpa using h)
        · split
          · exact ih h
          · split
            · rename_i hu
              exact ih (s := State.setCopy ..) (CopyCtx.memWf_unit h hu :)
            · simpa using h
            · simpa using h
            · simpa using h
            · simpa using h

theorem memWf_copyTurn {op core q idx n : Nat} : memWf (copyTurn op core q idx n s).mem := by
  unfold copyTurn
  split
  · exact h
  · split
    · exact h
    · dsimp only
      split
      · exact h
      · split
        · split
          · exact h
          · exact memWf_copyRun h
        · split
          · exact h
          · split
            · simpa using h
            · exact h

theorem memWf_copyAheadTurn {core q idx i : Nat} : memWf (copyAheadTurn core q idx i s).mem := by
  unfold copyAheadTurn
  split
  · exact h
  · split
    · exact h
    · dsimp only
      split
      · exact h
      · split
        · rename_i hw
          exact (CopyCtx.memWf_word h hw :)
        · exact h

theorem memWf_copyEngineTurn {core q idx n : Nat} : memWf (copyEngineTurn core q idx n s).mem := by
  unfold copyEngineTurn
  split
  · exact h
  · exact memWf_copyTurn h

/-! ### Peers' stores (R249) -/

theorem State.memWf_peerByte {p : Nat} {a : Dword} {b : Byte} : memWf (s.peerByte p a b).mem := by
  unfold State.peerByte
  split
  · exact h
  · split
    · exact State.memWf_homeWrite h _ _ _
    · simpa using h

theorem memWf_peerWrite {p : Nat} {a : Dword} {bs : List Byte} : memWf (peerWrite p a bs s).mem := by
  induction bs generalizing s a with
  | nil => exact h
  | cons b bs ih => exact ih (State.memWf_peerByte h)

/-! ### The matrix engine (R257) -/

theorem State.memWf_drain {who : Who} {x : Mx} {r : BitVec 512} : memWf (s.drain who x r).mem :=
  memWf_foldState (fun _ _ hs => memWf_foldState (fun _ _ hu => State.memWf_storeLoose hu _ _ _ _ _) _ hs) _ h

theorem State.memWf_loadc {who : Who} {core : Nat} {r : BitVec 512} : memWf (s.loadc who core r).mem := by
  refine memWf_foldState (fun s i hs => memWf_foldState (fun s j hs => ?_) _ hs) _ h
  dsimp only
  rw [State.setMx_mem]
  split
  · exact hs
  · exact State.memWf_load hs _ _ _

theorem State.memWf_loadcAhead {who : Who} {core i : Nat} {r : BitVec 512} : memWf (s.loadcAhead who core i r).mem := by
  unfold State.loadcAhead
  split
  · exact h
  · exact State.memWf_load h _ _ _

theorem memWf_matrixAct {core : Nat} {who : Who} {x : Cmd} : memWf (matrixAct core who x s).mem := by
  unfold matrixAct
  dsimp only
  split
  · exact h
  · split
    · exact h
    · split
      · exact h
      · split
        · exact h
        · simpa using h
        · exact h
  · exact State.memWf_drain h
  · exact State.memWf_loadc h
  · have hp : memWf ((((s.release (clusterOf core) 1).firm (engineKey core) 0xFFFFFFFF).pin x.team (recN x.record 4 4)).mem) :=
      State.memWf_pin (s := State.firm ..) (State.memWf_release h _ _) _ _
    split <;> simpa using hp

theorem memWf_matrixTurn {op core : Nat} {g : Who → Cmd → State → State} (hg : ∀ who x, memWf (g who x s).mem) :
    memWf (matrixTurn op core g s).mem := by
  unfold matrixTurn
  split
  · exact h
  · split
    · exact h
    · dsimp only
      split
      · exact h
      · split
        · simpa using h
        · split
          · simpa using h
          · split
            · exact h
            · exact hg _ _

theorem memWf_matrixEngineTurn {core : Nat} : memWf (matrixEngineTurn core s).mem := by
  unfold matrixEngineTurn
  split
  · exact h
  · exact memWf_matrixTurn h fun _ _ => memWf_matrixAct h

theorem memWf_loadAheadTurn {core i : Nat} : memWf (loadAheadTurn core i s).mem := by
  refine memWf_matrixTurn h fun who x => ?_
  split
  · exact State.memWf_loadcAhead h
  · exact h

/-! ### The Alcoves (R328 to R343) -/

theorem State.memWf_sendTo {p team t : Nat} {v : Word} {u : State} (hu : s.sendTo p team t v = .sent u) : memWf u.mem := by
  unfold State.sendTo at hu
  split at hu
  · cases hu
  · split at hu
    · cases hu
    · split at hu <;> cases hu
      exact State.memWf_writeScratch (s := s.unloose ..) h _ _ _ _

theorem State.memWf_notify {cl : Nat} {t : Trigger} : memWf (s.notify cl t).mem := by
  unfold State.notify
  split
  · exact h
  · split
    · split
      · exact h
      · simpa using h
      · rename_i hu
        exact State.memWf_sendTo h hu
    · exact h

theorem State.memWf_abortCtx {cl ctx : Nat} {how : AlEnd} {alcyc : Nat} : memWf (s.abortCtx cl ctx how alcyc).mem := by
  unfold State.abortCtx
  split
  · exact h
  · dsimp only
    exact State.memWf_notify (s := s.free.2.setCluster ..) h

theorem State.memWf_endCtx {cl ctx n alcyc : Nat} {x : HCtx} : memWf (s.endCtx cl ctx n alcyc x).mem := h

theorem State.memWf_passCycles {cl ctx n : Nat} : memWf (s.passCycles cl ctx n).mem := by
  refine memWf_foldState (fun s j hs => ?_) _ h
  split
  · exact hs
  · exact State.memWf_abortCtx hs

theorem memWf_runHandler {cl ctx : Nat} {body : HCtx → State → AlOut} (hb : ∀ x u, memWf u.mem → (body x u).KeepsMem) :
    memWf (runHandler cl ctx body s).mem := by
  unfold runHandler
  split
  · exact h
  · rename_i x hx
    extract_lets budget
    split
    · exact State.memWf_abortCtx h
    · rename_i cost tick u c _
      have htick : ∀ {n v}, memWf v.mem → memWf (tick n v).mem := fun {_ v} hv =>
        State.memWf_passCycles (s := { v with frees := v.frees + 1 }) hv
      have hu : memWf u.mem := h
      have hbody := hb x u hu
      split
      · exact State.memWf_abortCtx (htick hu)
      · rw [State.foundFault_mem]
        exact State.memWf_abortCtx (htick hu)
      · exact State.memWf_endCtx (htick hu)
      · rename_i ho
        rw [ho] at hbody
        extract_lets t
        have ht : memWf t.mem := htick hbody
        split
        · exact State.memWf_abortCtx ht
        · exact ht

theorem alLdwBody_keepsMem {cl : Nat} {rd rs1 : BitVec 5} {imm : BitVec 12} {x : HCtx} :
    (alLdwBody cl rd rs1 imm x s).KeepsMem := by
  unfold alLdwBody
  dsimp only
  split
  · trivial
  · split
    · trivial
    · trivial
    · split
      · split
        · trivial
        · exact State.memWf_homeRead h _ _
      · exact h

theorem alStwBody_keepsMem {cl : Nat} {rs2 rs1 : BitVec 5} {imm : BitVec 12} {x : HCtx} :
    (alStwBody cl rs2 rs1 imm x s).KeepsMem := by
  unfold alStwBody
  dsimp only
  split
  · trivial
  · split
    · trivial
    · trivial
    · split
      · show memWf (State.markWrote ..).mem
        rw [State.markWrote_mem]
        exact State.memWf_homeWrite h _ _ _
      · exact h

theorem alFetchBody_keepsMem {cl : Nat} {rd rs1 : BitVec 5} {imm : BitVec 12} {x : HCtx} :
    (alFetchBody cl rd rs1 imm x s).KeepsMem := by
  unfold alFetchBody
  dsimp only
  split
  · trivial
  · split
    · exact h
    · trivial
    · exact h

theorem alDropBody_keepsMem {cl : Nat} {rd rs1 : BitVec 5} {imm : BitVec 12} {x : HCtx} :
    (alDropBody cl rd rs1 imm x s).KeepsMem := by
  unfold alDropBody
  split
  · trivial
  · split
    · exact h
    · trivial
    · split <;> exact h

theorem alArgBody_keepsMem {ctx : Nat} {rd rs1 : BitVec 5} {imm : BitVec 12} {x : HCtx} :
    (alArgBody ctx rd rs1 imm x s).KeepsMem := by
  unfold alArgBody
  split
  · trivial
  · exact h

theorem alSendBody_keepsMem {cl : Nat} {rs2 rs1 : BitVec 5} {imm : BitVec 12} {x : HCtx} :
    (alSendBody cl rs2 rs1 imm x s).KeepsMem := by
  unfold alSendBody
  dsimp only
  split
  · exact h
  · split
    · exact h
    · trivial
    · rename_i hu
      exact State.memWf_sendTo h hu

theorem baseBody_keepsMem {cl ctx len : Nat} {i : Rv} {x : HCtx} : (baseBody cl ctx len i x s).KeepsMem := by
  unfold baseBody
  dsimp only
  split
  · trivial
  · exact h

theorem State.memWf_handlerFault {cl ctx : Nat} : memWf (s.handlerFault cl ctx).mem :=
  memWf_runHandler h fun _ _ _ => trivial

end

end Sys2Proof.Machine
end

section
/-! O59, the packet processor, the cutters and the firmware: packets, tile jobs, launches, partition faults, REPART and the
mailbox keep the canonical form of memory. -/

namespace Sys2Proof.Machine

open Sys2Proof

/-- Memory put back to what stood below a slice's dirty lines is canonical. -/
theorem Cluster.memWf_unwritten {m : List Host.Cell} (h : memWf m) (c : Cluster) : memWf (c.unwritten m) := by
  refine memWf_foldl (fun m e hm => ?_) _ h
  split
  · exact hm
  · exact memWf_memWrites hm _ _

section

variable {s : State} (h : memWf s.mem)
include h

/-! ### Packets (R364) -/

theorem State.memWf_packetRead {p n : Nat} {a : Dword} : memWf (s.packetRead p a n).2.mem := by
  unfold State.packetRead
  split
  · split
    · exact h
    · exact State.memWf_homeRead (by simpa using h) _ _
  · exact h

theorem State.memWf_packetWrite {p n v : Nat} {a : Dword} : memWf (s.packetWrite p a n v).mem := by
  unfold State.packetWrite
  split
  · split
    · exact h
    · exact State.memWf_homeWrite (by simpa using h) _ _ _
  · exact h

theorem State.memWf_packetUpdate {p : Nat} {a : Dword} {g : Nat → Nat} : memWf (s.packetUpdate p a g).mem := by
  unfold State.packetUpdate
  split
  · exact h
  · split
    · simpa using h
    · exact State.memWf_packetWrite (State.memWf_packetRead h)

/-- A packet's turn keeps the canonical form where what it makes of a good and of a bad packet does. -/
theorem memWf_packetTurn {type q : Nat} {good bad : Pkt → State → State} (hg : ∀ k u, memWf u.mem → memWf (good k u).mem)
    (hb : ∀ k u, memWf u.mem → memWf (bad k u).mem) : memWf (packetTurn type q good bad s).mem := by
  unfold packetTurn
  split
  · split
    · exact h
    · split
      · simpa using h
      · dsimp only
        split
        · exact h
        · split
          · exact hg _ _ (State.memWf_packetRead h)
          · exact hb _ _ (State.memWf_packetRead h)
  · exact h

theorem memWf_readSignals {p : Nat} {as : List Nat} : memWf (readSignals p as s).2.mem := by
  induction as generalizing s with
  | nil => exact h
  | cons a as ih => exact ih (State.memWf_packetRead h)

theorem memWf_evaluateBarrier {k : Pkt} : memWf (evaluateBarrier k s).mem := by
  have hr := memWf_readSignals (p := k.p) (as := pktWaits k.r) h
  unfold evaluateBarrier
  dsimp only
  split
  · simpa using h
  · split
    · simpa using h
    · split
      · simpa using hr
      · split
        · simpa using hr
        · exact hr

theorem memWf_copyWords {p n : Nat} {a b : Dword} : memWf (copyWords p n a b s).2.2.mem := by
  induction n generalizing s a b with
  | zero => exact h
  | succ n ih =>
    unfold copyWords
    split
    · exact h
    · split
      · simpa using h
      · exact ih (State.memWf_packetWrite (State.memWf_packetRead h))

theorem memWf_copyStep {l : Nat} : memWf (copyStep l s).mem := by
  unfold copyStep
  split
  · exact h
  · split
    · split
      · exact h
      · dsimp only
        split
        · exact memWf_copyWords h
        · split
          · exact memWf_copyWords h
          · rw [State.setLaunch_mem, State.cleanLine_mem]
            exact memWf_copyWords h
    · exact h

/-! ### Tile jobs (R317, R318) -/

theorem State.memWf_readUnits {p n : Nat} {a : Dword} : memWf (s.readUnits p a n).2.mem := by
  induction n generalizing s a with
  | zero => exact h
  | succ n ih => exact ih (State.memWf_packetRead h)

theorem State.memWf_poll {p : Nat} {e : Expert} : memWf (s.poll p e).2.mem := by
  unfold State.poll
  split
  · exact h
  · split
    · exact h
    · split
      · exact h
      · exact State.memWf_packetRead h

theorem memWf_pollAll {p : Nat} {table es : List Nat} : memWf (pollAll p table es s).2.mem := by
  induction es generalizing s with
  | nil => exact h
  | cons e es ih => exact ih (State.memWf_poll h)

theorem State.memWf_acceptJob {l j dies nexp nrec : Nat} {rec exp : Dword} :
    memWf (s.acceptJob l j dies nexp nrec rec exp).mem := by
  unfold State.acceptJob
  split
  · exact h
  · rename_i la _
    dsimp only
    split
    · exact h
    · split
      · simpa using h
      · have ht := State.memWf_readUnits (p := la.part) (n := nexp) (a := exp)
          (State.memWf_readUnits (p := la.part) (n := nrec) (a := rec) h)
        split
        · exact ht
        · split
          · rw [State.brokenJob_mem]
            exact ht
          · rw [State.settleJob_mem, State.putJob_mem, State.setLaunch_mem]
            split <;> exact memWf_pollAll ht

/-! ### Launches and teams (R295 to R304) -/

theorem State.memWf_acceptDesc {l p desc : Nat} {sp : Shape} : memWf (s.acceptDesc l p desc sp).mem := by
  unfold State.acceptDesc
  split
  · exact h
  · split
    · simpa using h
    · dsimp only
      split <;> exact State.memWf_packetRead h

theorem State.memWf_place {l pos core : Nat} {la : Launch} {c : Cut} {g : Shape × Shape} {pl : Plan} :
    memWf (s.place l la c pos g core pl).mem := by
  have hp : memWf (pl.pages.foldl (fun s x => s.unpin x) (pl.slots.foldl (fun s x => s.spillSlot x) s)).mem :=
    memWf_foldState (fun _ _ hs => State.memWf_unpin hs) _ (memWf_foldState (fun _ _ hs => by simpa using hs) _ h)
  unfold State.place
  dsimp only
  rw [State.setLaunch_mem, State.addWaves_mem]
  dsimp only
  split
  · rw [State.takeEngine_mem]
    exact hp
  · exact hp

theorem State.memWf_placeAll {l : Nat} {la : Launch} {c : Cut} {ps : List (Nat × Nat)} {t : State}
    (ht : s.placeAll l la c ps = some t) : memWf t.mem := by
  induction ps generalizing s with
  | nil => cases ht; exact h
  | cons x ps ih =>
    unfold State.placeAll at ht
    split at ht
    · cases ht
    · split at ht
      · cases ht
      · split at ht
        · cases ht
        · exact ih (State.memWf_place h) ht

theorem State.memWf_writeBackTeam {t : Nat} {tm : Team} : memWf (s.writeBackTeam t tm).mem :=
  memWf_foldState (fun _ _ hs => State.memWf_writeBackPage hs _ _) _ h

theorem State.memWf_releaseAll {p scope : Nat} : memWf (s.releaseAll p scope).mem := by
  unfold State.releaseAll
  exact memWf_foldState (fun _ _ hs => State.memWf_release hs _ _) _ h

theorem State.memWf_putStatus {la : Launch} : memWf (s.putStatus la).mem := by
  unfold State.putStatus
  dsimp only
  split
  · exact h
  · split
    · simpa using h
    · exact State.memWf_packetWrite h

theorem State.memWf_complete {la : Launch} : memWf (s.complete la).mem := by
  have hr := State.memWf_releaseAll (p := la.part) (scope := la.rel) (State.memWf_putStatus (la := la) h)
  unfold State.complete
  extract_lets p st u v
  have hv : memWf v.mem := by
    unfold v
    split
    · split
      · exact State.memWf_packetUpdate hr
      · exact hr
    · exact hr
  split
  · exact State.memWf_packetUpdate hv
  · exact hv

theorem State.memWf_endLaunch {id : Nat} {la : Launch} : memWf (s.endLaunch id la).mem := State.memWf_complete h

/-! ### Partition faults and REPART (R356, R370) -/

theorem State.memWf_discard {p : Nat} : memWf (s.discard p).mem := by
  have hc : memWf ((s.partCores p).foldl (fun s c => s.setCore c Core.stop) s).mem := by
    rw [mem_foldState (g := fun s c => s.setCore c Core.stop) fun _ _ => rfl]
    exact h
  unfold State.discard
  exact memWf_foldState (fun _ _ hs => Cluster.memWf_unwritten hs _) _ hc

theorem State.memWf_spillTeam {t : Nat} {tm : Team} : memWf (s.spillTeam t tm).mem := by
  refine memWf_foldState (fun _ _ hs => State.memWf_unpin hs) _ ?_
  exact h

theorem State.memWf_quiesce {r : Repart} : memWf (s.quiesce r).mem := by
  unfold State.quiesce
  exact memWf_foldState (fun _ _ hs => State.memWf_spillTeam hs) _
    (memWf_foldState (fun _ _ hs => by simpa using hs) _ h)

theorem State.memWf_flush : memWf s.flush.mem := by
  refine memWf_foldState (fun s c hs => ?_) _ h
  exact State.memWf_publishAll hs

theorem State.memWf_zeroStops {new : List Nat} : memWf (s.zeroStops new).mem := memWf_filter h _

theorem State.memWf_phaseTwo {new : List Nat} : memWf (s.phaseTwo new).mem := by
  unfold State.phaseTwo
  refine memWf_foldState (fun s c hs => ?moved) _ (memWf_foldState (fun s p hs => ?home) _ (State.memWf_zeroStops h))
  case moved =>
    refine memWf_foldState (fun s i hu => ?_) _ hs
    exact hu
  case home =>
    refine memWf_foldState (fun s c hu => ?_) _ hs
    exact hu

theorem State.memWf_restart : memWf s.restart.mem := memWf_filter h _

theorem State.memWf_hostImage {a : Nat} : memWf (s.hostImage a).2.mem := by
  have hr := State.memWf_homeRead h (hostPa a) 512
  unfold State.hostImage
  dsimp only
  split
  · exact State.memWf_homeRead hr _ _
  · exact hr

theorem State.memWf_mailbox {j : MailCmd} {early : Bool} {g : State → State} (hg : memWf (g s).mem) :
    memWf (s.mailbox j early g).mem := by
  unfold State.mailbox
  split
  · exact h
  · split
    · exact hg
    · exact h

end

end Sys2Proof.Machine
end

section
/-! O59, the events of the device: whatever state the outcome of one carries has a canonical memory. -/

namespace Sys2Proof.Machine

open Sys2Proof

/-- Whatever state an outcome carries has a canonical memory. -/
def OutKeepsMem : Out → Prop
  | .next t => memWf t.mem
  | _ => True

@[simp] theorem outKeepsMem_next (t : State) : OutKeepsMem (.next t) ↔ memWf t.mem := Iff.rfl

theorem outKeepsMem_iff (o : Out) : OutKeepsMem o ↔ ∀ t, o = .next t → memWf t.mem := by
  cases o <;> simp [OutKeepsMem]

section

variable {s : State} (h : memWf s.mem)
include h

/-! ### Waves -/

theorem execWaitaWake_keepsMem {wave frag : Nat} : OutKeepsMem (execWaitaWake wave frag s) := by
  unfold execWaitaWake
  split
  · exact h
  · split
    · split
      · dsimp only
        split
        · exact h
        · split
          · exact h
          · rw [outKeepsMem_next]
            split <;> simpa using State.memWf_loadEach h
      · exact h
    · exact h

theorem execResultReturn_keepsMem {wave : Nat} : OutKeepsMem (execResultReturn wave s) := h

theorem execParkComplete_keepsMem {wave : Nat} : OutKeepsMem (execParkComplete wave s) := by
  unfold execParkComplete
  split
  · exact h
  · split
    · exact h
    · split
      · exact h
      · simpa using h

theorem execStarvationIssue_keepsMem {core quad : Nat} : OutKeepsMem (execStarvationIssue core quad s) := by
  unfold execStarvationIssue; split <;> exact h

theorem execWaitThreshold_keepsMem {wave : Nat} : OutKeepsMem (execWaitThreshold wave s) := by
  unfold execWaitThreshold
  split
  · exact h
  · split <;> exact h

theorem execEvictedWaveResume_keepsMem {wave : Nat} : OutKeepsMem (execEvictedWaveResume wave s) := by
  unfold execEvictedWaveResume
  split
  · exact h
  · split <;> exact h

theorem execTeamResume_keepsMem {team : Nat} : OutKeepsMem (execTeamResume team s) := by
  unfold execTeamResume
  split
  · exact h
  · rename_i tm _
    split
    · exact h
    · split
      · exact h
      · split
        · rw [outKeepsMem_next]
          cases ht : s.resumeAll ((s.parkedOf tm.launch).map (·.1)) with
          | none => exact h
          | some t =>
            rw [Option.getD_some, State.resumeAll_mem ht]
            exact h
        · split
          · simpa using h
          · exact h

/-! ### The debugger -/

theorem execDebugContinue_keepsMem {team : Nat} : OutKeepsMem (execDebugContinue team s) := by
  unfold execDebugContinue
  split
  · exact h
  · simpa using h

theorem execWaveStep_keepsMem {team w : Nat} : OutKeepsMem (execWaveStep team w s) := by
  unfold execWaveStep
  split
  · exact h
  · simpa using h

theorem execFragmentStep_keepsMem {team w frag : Nat} : OutKeepsMem (execFragmentStep team w frag s) := by
  unfold execFragmentStep
  split
  · exact h
  · split
    · exact h
    · simpa using h

theorem execLaneStep_keepsMem {team w lane : Nat} : OutKeepsMem (execLaneStep team w lane s) := by
  unfold execLaneStep
  split
  · exact h
  · split
    · exact h
    · split
      · dsimp only
        split
        · simpa using h
        · split
          · exact h
          · simpa using h
      · exact h

theorem execLeythRegisterWrite_keepsMem {wave reg lane : Nat} {v : BitVec 32} :
    OutKeepsMem (execLeythRegisterWrite wave reg lane v s) := by
  unfold execLeythRegisterWrite
  split
  · exact h
  · dsimp only
    split <;> exact h

theorem execDebugContextTake_keepsMem {id : Nat} {taken : Bool} : OutKeepsMem (execDebugContextTake id taken s) := by
  unfold execDebugContextTake; split <;> exact h

/-! ### Engines, links and rates -/

theorem execActldCommit_keepsMem {core : Nat} : OutKeepsMem (execActldCommit core s) := by
  simpa [execActldCommit] using h

theorem execStashFill_keepsMem {team page line : Nat} : OutKeepsMem (execStashFill team page line s) := by
  unfold execStashFill
  dsimp only
  split
  · exact h
  · split
    · exact h
    · split
      · simpa using h
      · exact State.memWf_fillLine h _ _ _

theorem execCopyResume_keepsMem {core q idx : Nat} : OutKeepsMem (execCopyResume core q idx s) := by
  unfold execCopyResume
  split
  · exact h
  · split
    · split <;> exact h
    · exact h

theorem execMxMulTileCheck_keepsMem {core : Nat} : OutKeepsMem (execMxMulTileCheck core s) := by
  refine memWf_matrixTurn h fun who x => ?_
  split
  · exact h
  · split
    · exact h
    · simpa using h
    · exact h

theorem execLinkDown_keepsMem {port lane : Nat} : OutKeepsMem (execLinkDown port lane s) := by
  unfold execLinkDown
  split
  · exact h
  · simpa using h

theorem execCongestionMark_keepsMem {part core : Nat} : OutKeepsMem (execCongestionMark part core s) := by
  unfold execCongestionMark; split <;> exact h

theorem execRateRaise_keepsMem {part core : Nat} : OutKeepsMem (execRateRaise part core s) := by
  unfold execRateRaise
  split
  · exact h
  · split <;> exact h

theorem execPeerStoreArrival_keepsMem {port lane : Nat} {addr : BitVec 64} {data : List (BitVec 8)} :
    OutKeepsMem (execPeerStoreArrival port lane addr data s) := by
  unfold execPeerStoreArrival
  split
  · exact h
  · split
    · simpa using memWf_peerWrite h
    · exact h

/-! ### Alcoves and slices -/

theorem execAlcoveMessage_keepsMem {cl : Nat} : OutKeepsMem (execAlcoveMessage cl s) := by
  unfold execAlcoveMessage
  dsimp only
  split
  · exact h
  · split <;> exact h
  · split
    · exact h
    · split
      · exact h
      · split
        · simpa using h
        · exact h

/-- A change of one cluster of a list keeps the canonical form where it does so in each cluster's turn. -/
theorem State.memWf_onOne {g : Nat → State → State} {cls : List Nat} (hg : ∀ c u, memWf u.mem → memWf (g c u).mem) :
    memWf (s.onOne cls g).mem := by
  unfold State.onOne
  split
  · exact h
  · exact hg _ _ h
  · exact hg _ _ h

theorem execMiss_keepsMem {line kind core : Nat} : OutKeepsMem (execMiss line kind core s) := by
  simpa [execMiss] using h

theorem execFill_keepsMem {line : Nat} : OutKeepsMem (execFill line s) := by
  refine State.memWf_onOne h fun c s hs => ?_
  exact hs

theorem execEvict_keepsMem {line : Nat} : OutKeepsMem (execEvict line s) := by
  refine State.memWf_onOne h fun c s hs => ?_
  exact hs

theorem execHandlerStart_keepsMem {cl cls : Nat} : OutKeepsMem (execHandlerStart cl cls s) := by
  unfold execHandlerStart
  dsimp only
  split
  · split <;> exact h
  · exact h

theorem execBudgetOverrun_keepsMem {cl ctx : Nat} : OutKeepsMem (execBudgetOverrun cl ctx s) := by
  unfold execBudgetOverrun
  split
  · exact h
  · exact State.memWf_abortCtx (State.memWf_passCycles h)

/-! ### Queues, packets and tiles -/

theorem execDoorbell_keepsMem {q : Nat} {v : BitVec 64} : OutKeepsMem (execDoorbell q v s) := by
  unfold execDoorbell
  dsimp only
  split
  · exact h
  · split <;> exact h

theorem execQbase_keepsMem {q : Nat} {v : BitVec 64} : OutKeepsMem (execQbase q v s) := by
  unfold execQbase; split <;> exact h

theorem execLaunchPacket_keepsMem {q : Nat} : OutKeepsMem (execLaunchPacket q s) :=
  memWf_packetTurn h (fun _ _ hu => hu) fun _ _ hu => by simpa using hu

theorem execBarrierPacket_keepsMem {q : Nat} : OutKeepsMem (execBarrierPacket q s) :=
  memWf_packetTurn h (fun _ _ hu => memWf_evaluateBarrier hu) fun _ _ hu => by simpa using hu

theorem execCopyPacket_keepsMem {q : Nat} {id : Option Nat} : OutKeepsMem (execCopyPacket q id s) := by
  cases id with
  | some l => exact memWf_copyStep h
  | none => exact memWf_packetTurn h (fun _ _ hu => by simpa using hu) fun _ _ hu => by simpa using hu

theorem execSignalPacket_keepsMem {q : Nat} : OutKeepsMem (execSignalPacket q s) :=
  memWf_packetTurn h (fun _ _ hu => by simpa using hu) fun _ _ hu => by simpa using hu

theorem execMarkerPacket_keepsMem {q : Nat} : OutKeepsMem (execMarkerPacket q s) :=
  memWf_packetTurn h (fun _ _ hu => by simpa using hu) fun _ _ hu => by simpa using hu

theorem execTilesPacket_keepsMem {q : Nat} : OutKeepsMem (execTilesPacket q s) := by
  refine memWf_packetTurn h (fun k u hu => ?good) fun k u hu => ?bad
  case good =>
    dsimp only
    split
    · split
      · exact hu
      · have hl : memWf ((u.leave k (pktWork k.r)).stage2 u.nextLaunch 4).mem := by simpa using hu
        split
        · exact State.memWf_acceptJob hl
        · exact hl
    · exact hu
  case bad => split <;> simpa using hu

theorem execFillSignalPoll_keepsMem {id expert : Nat} : OutKeepsMem (execFillSignalPoll id expert s) := by
  unfold execFillSignalPoll
  split
  · exact h
  · split
    · exact h
    · split
      · exact h
      · split
        · simpa using h
        · rw [outKeepsMem_next]
          dsimp only
          split <;> exact State.memWf_poll h

/-! ### Launches and teams -/

theorem execLaunchAcceptance_keepsMem {id : Nat} : OutKeepsMem (execLaunchAcceptance id s) := by
  unfold execLaunchAcceptance
  split
  · exact h
  · split
    · exact h
    · split
      · rw [outKeepsMem_next]
        have h2 : memWf (s.stage2 id 2).mem := by simpa using h
        split
        · exact State.memWf_acceptDesc h2
        · exact h2
      · exact h
      · rw [outKeepsMem_next]
        split
        · exact h
        · split
          · exact State.memWf_acceptDesc (s := s.setLaunch ..) h
          · exact h

theorem execTeamDispatch_keepsMem {id die core : Nat} : OutKeepsMem (execTeamDispatch id die core s) := by
  unfold execTeamDispatch
  split
  · exact h
  · split
    · exact h
    · split
      · exact h
      · dsimp only
        split
        · exact h
        · split
          · exact h
          · split
            · exact h
            · rw [outKeepsMem_next, State.settleLaunch_mem, State.setLaunch_mem]
              exact State.memWf_place h

theorem execCoresidentPlacement_keepsMem {id : Nat} {cores : List Nat} :
    OutKeepsMem (execCoresidentPlacement id cores s) := by
  unfold execCoresidentPlacement
  split
  · exact h
  · split
    · exact h
    · split
      · exact h
      · split
        · exact h
        · split
          · exact h
          · split
            · exact h
            · rename_i ht
              rw [outKeepsMem_next, State.settleLaunch_mem]
              exact State.memWf_placeAll h ht

theorem execTeamRetire_keepsMem {team : Nat} : OutKeepsMem (execTeamRetire team s) := by
  unfold execTeamRetire
  split
  · exact h
  · split
    · exact h
    · simpa using State.memWf_writeBackTeam h

theorem execWindowEvaluation_keepsMem {id : Nat} : OutKeepsMem (execWindowEvaluation id s) := by
  unfold execWindowEvaluation
  split
  · exact h
  · split
    · exact h
    · split
      · exact h
      · split <;> exact h

theorem execLaunchCompletion_keepsMem {id : Nat} : OutKeepsMem (execLaunchCompletion id s) := by
  have hs : memWf (s.settleLaunch id).mem := by simpa using h
  unfold execLaunchCompletion
  dsimp only
  split
  · exact hs
  · split
    · exact hs
    · exact State.memWf_endLaunch hs

/-! ### The host -/

theorem execFaultAnswer_keepsMem {part : Nat} {tag : BitVec 64} {resp : BitVec 32} :
    OutKeepsMem (execFaultAnswer part tag resp s) := by
  unfold execFaultAnswer
  split
  · exact h
  · split <;> exact h

theorem execCxlMemAccess_keepsMem {part n : Nat} {addr : BitVec 64} {data : Option (List (BitVec 8))} :
    OutKeepsMem (execCxlMemAccess part addr n data s) := by
  have ha : memWf (s.hostAsk part addr.toNat n).mem := by simpa using h
  unfold execCxlMemAccess
  dsimp only
  split
  · exact h
  · split
    · simpa using h
    · split
      · exact State.memWf_homeRead ha _ _
      · exact State.memWf_homeWrite ha _ _ _

theorem execCxlCacheSnoop_keepsMem {line : Nat} {inval : Bool} : OutKeepsMem (execCxlCacheSnoop line inval s) := by
  unfold execCxlCacheSnoop
  split
  · exact h
  · exact State.memWf_toHome h _ _ _ _

theorem execRegisterWrite_keepsMem {r : RegTarget} : OutKeepsMem (execRegisterWrite r s) := by
  cases r <;> unfold execRegisterWrite <;> dsimp only
  case catchCode | pageUnmap => exact h
  case linkReg =>
    split
    · exact h
    · rw [outKeepsMem_next]
      split <;> exact h
  case hostMem =>
    rw [outKeepsMem_next]
    split
    · exact State.memWf_homeWrite h _ _ _
    · exact h
  all_goals
    rw [outKeepsMem_next]
    split <;> simpa using h

/-! ### Partition faults and REPART -/

theorem execPartitionFault_keepsMem {part : Nat} {line : Option Nat} : OutKeepsMem (execPartitionFault part line s) := by
  unfold execPartitionFault
  extract_lets u
  have hu : memWf u.mem := by
    unfold u
    split <;> exact h
  split
  · simpa using hu
  · exact State.memWf_discard hu

theorem execRepartDrainEnd_keepsMem : OutKeepsMem (execRepartDrainEnd s) := by
  unfold execRepartDrainEnd
  split
  · exact h
  · split
    · split
      · exact h
      · split
        · simpa using h
        · exact State.memWf_quiesce h
    · split
      · refine State.memWf_flush ?_
        rw [mem_foldState (g := fun s c => s.spillCore c) fun _ _ => State.spillCore_mem ..]
        exact h
      · exact h
    · simpa using h
    · simpa using h
    · exact State.memWf_phaseTwo h
    · simpa using h

theorem execRepartTimeout_keepsMem : OutKeepsMem (execRepartTimeout s) := by
  unfold execRepartTimeout
  split
  · exact h
  · split
    · simpa using h
    · exact h

theorem execWatchdogReset_keepsMem : OutKeepsMem (execWatchdogReset s) := by
  unfold execWatchdogReset
  dsimp only
  split
  · simpa using State.memWf_phaseTwo h
  · simpa using h

theorem execDeviceReset_keepsMem : OutKeepsMem (execDeviceReset s) := State.memWf_restart h

/-! ### The mailbox's commands -/

theorem execRepart_keepsMem {layout : List Nat} {timeout : Nat} : OutKeepsMem (execRepart layout timeout s) := by
  refine State.memWf_mailbox h ?_
  extract_lets lpddr
  split <;> exact h

theorem execPreempt_keepsMem {part : Nat} {ids : List (BitVec 32)} : OutKeepsMem (execPreempt part ids s) := by
  refine State.memWf_mailbox h ?_
  split
  · exact h
  · rw [State.answers_mem, mem_foldState (g := fun s l => s.parkLaunch l) fun _ _ => State.parkLaunch_mem ..]
    exact h

theorem execResume_keepsMem {part : Nat} {ids : List (BitVec 32)} : OutKeepsMem (execResume part ids s) := by
  refine State.memWf_mailbox h ?_
  rw [State.answers_mem, mem_foldState (g := fun s l => s.setLaunch l fun x => { x with parked := false }) fun _ _ => rfl]
  exact h

theorem execSetpool_keepsMem {pool part rsv cap : Nat} : OutKeepsMem (execSetpool pool part rsv cap s) := by
  refine State.memWf_mailbox h ?_
  split <;> exact h

theorem execSetqueue_keepsMem {q part : Nat} : OutKeepsMem (execSetqueue q part s) := by
  refine State.memWf_mailbox h ?_
  split
  · exact h
  · split
    · simpa using h
    · exact h

theorem execAlcove_keepsMem {part : Nat} {cmd : AlcoveCmd} : OutKeepsMem (execAlcove part cmd s) := by
  refine State.memWf_mailbox h ?_
  split
  · exact h
  · split
    · split
      · simpa using h
      · exact h
    · split
      · exact h
      · split
        · exact h
        · simpa using h

theorem execSetlink_keepsMem {port : Nat} {entries : List (Nat × Nat × BitVec 16)} :
    OutKeepsMem (execSetlink port entries s) := by
  refine State.memWf_mailbox h ?_
  split
  · rw [State.answers_mem, mem_foldState (g := fun s e => s.setPeer e) fun _ _ => State.setPeer_mem ..]
    exact h
  · exact h

theorem execFaultq_keepsMem {part size : Nat} {base : BitVec 64} : OutKeepsMem (execFaultq part base size s) :=
  State.memWf_mailbox h h

theorem execSetwait_keepsMem {part cycles : Nat} : OutKeepsMem (execSetwait part cycles s) := by
  refine State.memWf_mailbox h ?_
  split <;> exact h

theorem execFeatures_keepsMem : OutKeepsMem (execFeatures s) := State.memWf_mailbox h h

theorem execAccept_keepsMem {bits : BitVec 128} : OutKeepsMem (execAccept bits s) := by
  refine State.memWf_mailbox h ?_
  split <;> exact h

theorem execAttest_keepsMem {nonce : List (BitVec 8)} : OutKeepsMem (execAttest nonce s) := by
  refine State.memWf_mailbox h ?_
  split <;> exact h

theorem execTelemetry_keepsMem : OutKeepsMem (execTelemetry s) := State.memWf_mailbox h h

theorem execUpdate_keepsMem {a : Nat} : OutKeepsMem (execUpdate a s) := by
  unfold execUpdate
  extract_lets go
  have hgo : memWf (go s).mem := by
    have hx := State.memWf_hostImage (a := a) h
    unfold go
    generalize s.hostImage a = x at hx ⊢
    dsimp only
    split <;> exact hx
  rw [outKeepsMem_next]
  split
  · exact hgo
  · exact State.memWf_mailbox h hgo

theorem execIdcert_keepsMem : OutKeepsMem (execIdcert s) := State.memWf_mailbox h h

theorem execVoltageLoop_keepsMem {core : Nat} : OutKeepsMem (execVoltageLoop core s) := by
  unfold execVoltageLoop
  rw [outKeepsMem_next]
  split <;> exact h

end

end Sys2Proof.Machine
end

section
/-! O59, a step: every instruction and every event, then the turns given from outside and those that the device takes by itself. -/

namespace Sys2Proof.Machine

open Sys2Proof

/-! ### Instructions and events -/

theorem runWave_keepsMem {x : Ins} {body : Ctx → State → Act} (hb : ∀ {c u}, memWf u.mem → (body c u).KeepsMem) {s : State}
    (h : memWf s.mem) : OutKeepsMem (runWave x body s) :=
  (outKeepsMem_iff _).2 fun _ => memWf_runWave (fun _ _ => hb) h

section

variable {s : State} (h : memWf s.mem)
include h

/-- Every instruction and every event keeps the canonical form. The wave instructions without a line of their own change nothing
but the wave. -/
theorem exec_keepsMem (j : Instr) : OutKeepsMem (exec j s) := by
  cases j
  case bra | braB32 => exact runWave_keepsMem (braBody_keepsMem ·) h
  case brc => exact runWave_keepsMem (brcBody_keepsMem ·) h
  case join | joinB32 => exact runWave_keepsMem (joinBody_keepsMem ·) h
  case ret | retB32 | jmpx | jmpxB32 => exact runWave_keepsMem (jumpBody_keepsMem ·) h
  case rep => exact runWave_keepsMem (repBody_keepsMem ·) h
  case exit | exitB32 => exact runWave_keepsMem (exitBody_keepsMem ·) h
  case get => exact runWave_keepsMem (getBody_keepsMem ·) h
  case setmode => exact runWave_keepsMem (setmodeBody_keepsMem ·) h
  case xlock => exact runWave_keepsMem (xlockBody_keepsMem ·) h
  case xfree => exact runWave_keepsMem (xfreeBody_keepsMem ·) h
  case bfpq => exact runWave_keepsMem (bfpqBody_keepsMem ·) h
  case act => exact runWave_keepsMem (actBody_keepsMem ·) h
  case actld => exact runWave_keepsMem (actldBody_keepsMem ·) h
  case sld => exact runWave_keepsMem (sldBody_keepsMem ·) h
  case sst => exact runWave_keepsMem (sstBody_keepsMem ·) h
  case sstStream => exact runWave_keepsMem (sstStreamBody_keepsMem ·) h
  case smov => exact runWave_keepsMem (smovBody_keepsMem ·) h
  case sbind => exact runWave_keepsMem (sbindBody_keepsMem ·) h
  case scvt => exact runWave_keepsMem (scvtBody_keepsMem ·) h
  case sacc => exact runWave_keepsMem (saccBody_keepsMem ·) h
  case trap | trapB32 => exact runWave_keepsMem (trapBody_keepsMem ·) h
  case tret => exact runWave_keepsMem (tretBody_keepsMem ·) h
  case bkpt | bkptB32 => exact runWave_keepsMem (bkptBody_keepsMem ·) h
  case sysw => exact runWave_keepsMem (syswBody_keepsMem ·) h
  case icinv => exact runWave_keepsMem (icinvBody_keepsMem ·) h
  case ld | ldB32 | ldu | lduB32 => exact runWave_keepsMem (loadBody_keepsMem ·) h
  case st | stB32 => exact runWave_keepsMem (stBody_keepsMem ·) h
  case ldbf => exact runWave_keepsMem (ldbfBody_keepsMem ·) h
  case pref | prefB32 => exact runWave_keepsMem (prefBody_keepsMem ·) h
  case spmap | stash => exact runWave_keepsMem (spmapBody_keepsMem ·) h
  case unstash => exact runWave_keepsMem (unstashBody_keepsMem ·) h
  case flush | inval => exact runWave_keepsMem (flushBody_keepsMem ·) h
  case atom | acas | aincb | afadd => exact runWave_keepsMem (rmwBody_keepsMem ·) h
  case fence => exact runWave_keepsMem (fenceBody_keepsMem ·) h
  case bari => exact runWave_keepsMem (bariBody_keepsMem ·) h
  case bara => exact runWave_keepsMem (baraBody_keepsMem ·) h
  case barx => exact runWave_keepsMem (barxBody_keepsMem ·) h
  case barw => exact runWave_keepsMem (barwBody_keepsMem ·) h
  case waita => exact runWave_keepsMem (waitaBody_keepsMem ·) h
  case push => exact runWave_keepsMem (pushBody_keepsMem ·) h
  case waitb => exact runWave_keepsMem (waitbBody_keepsMem ·) h
  case qstat => exact runWave_keepsMem (qstatBody_keepsMem ·) h
  case gen => exact runWave_keepsMem (genBody_keepsMem ·) h
  case yld => exact runWave_keepsMem (yldBody_keepsMem ·) h
  case gend => exact runWave_keepsMem (gendBody_keepsMem ·) h
  case gflip => exact runWave_keepsMem (gflipBody_keepsMem ·) h
  case gnext => exact runWave_keepsMem (gnextBody_keepsMem ·) h
  case take => exact runWave_keepsMem (takeBody_keepsMem ·) h
  case launch => exact runWave_keepsMem (launchBody_keepsMem ·) h
  case cutq => exact runWave_keepsMem (cutqBody_keepsMem ·) h
  case tlpop => exact runWave_keepsMem (tlpopBody_keepsMem ·) h
  case tldone => exact runWave_keepsMem (tldoneBody_keepsMem ·) h
  case alLdw => exact memWf_runHandler h fun _ _ hu => alLdwBody_keepsMem hu
  case alFetch => exact memWf_runHandler h fun _ _ hu => alFetchBody_keepsMem hu
  case alDrop => exact memWf_runHandler h fun _ _ hu => alDropBody_keepsMem hu
  case alArg => exact memWf_runHandler h fun _ _ hu => alArgBody_keepsMem hu
  case alEnd => exact memWf_runHandler h fun _ _ _ => alEndBody_keepsMem
  case alStw => exact memWf_runHandler h fun _ _ hu => alStwBody_keepsMem hu
  case alSend => exact memWf_runHandler h fun _ _ hu => alSendBody_keepsMem hu
  case handlerInstruction => exact memWf_runHandler h fun _ _ hu => baseBody_keepsMem hu
  case actldCommit => exact execActldCommit_keepsMem h
  case stashFill => exact execStashFill_keepsMem h
  case waitaWake => exact execWaitaWake_keepsMem h
  case resultReturn => exact execResultReturn_keepsMem h
  case parkComplete => exact execParkComplete_keepsMem h
  case starvationIssue => exact execStarvationIssue_keepsMem h
  case waitThreshold => exact execWaitThreshold_keepsMem h
  case evictedWaveResume => exact execEvictedWaveResume_keepsMem h
  case cpLin | cpTile | cpGath | cpStrm | cpPeer | cpFill => exact memWf_copyTurn h
  case copyResume => exact execCopyResume_keepsMem h
  case mxZero | mxMul | mxDrain | mxLoadc | mxArrive =>
    exact memWf_matrixTurn h fun _ _ => memWf_matrixAct h
  case mxMulTileCheck => exact execMxMulTileCheck_keepsMem h
  case alcoveMessage => exact execAlcoveMessage_keepsMem h
  case miss => exact execMiss_keepsMem h
  case fill => exact execFill_keepsMem h
  case evict => exact execEvict_keepsMem h
  case handlerStart => exact execHandlerStart_keepsMem h
  case budgetOverrun => exact execBudgetOverrun_keepsMem h
  case doorbell => exact execDoorbell_keepsMem h
  case qbase => exact execQbase_keepsMem h
  case launchPacket => exact execLaunchPacket_keepsMem h
  case barrierPacket | barrierEvaluation => exact execBarrierPacket_keepsMem h
  case copyPacket => exact execCopyPacket_keepsMem h
  case tilesPacket => exact execTilesPacket_keepsMem h
  case signalPacket => exact execSignalPacket_keepsMem h
  case markerPacket => exact execMarkerPacket_keepsMem h
  case launchAcceptance => exact execLaunchAcceptance_keepsMem h
  case teamDispatch => exact execTeamDispatch_keepsMem h
  case coresidentPlacement => exact execCoresidentPlacement_keepsMem h
  case teamRetire => exact execTeamRetire_keepsMem h
  case windowEvaluation => exact execWindowEvaluation_keepsMem h
  case launchCompletion => exact execLaunchCompletion_keepsMem h
  case peerAck | flitResend => exact h
  case linkDown => exact execLinkDown_keepsMem h
  case congestionMark => exact execCongestionMark_keepsMem h
  case rateRaise => exact execRateRaise_keepsMem h
  case fillSignalPoll => exact execFillSignalPoll_keepsMem h
  case teamResume => exact execTeamResume_keepsMem h
  case faultAnswer => exact execFaultAnswer_keepsMem h
  case cxlMemAccess => exact execCxlMemAccess_keepsMem h
  case partitionFault => exact execPartitionFault_keepsMem h
  case repart => exact execRepart_keepsMem h
  case repartDrainEnd => exact execRepartDrainEnd_keepsMem h
  case repartTimeout => exact execRepartTimeout_keepsMem h
  case watchdogReset => exact execWatchdogReset_keepsMem h
  case preempt => exact execPreempt_keepsMem h
  case resume => exact execResume_keepsMem h
  case setpool => exact execSetpool_keepsMem h
  case setqueue => exact execSetqueue_keepsMem h
  case alcove => exact execAlcove_keepsMem h
  case setlink => exact execSetlink_keepsMem h
  case faultq => exact execFaultq_keepsMem h
  case setwait => exact execSetwait_keepsMem h
  case features => exact execFeatures_keepsMem h
  case accept => exact execAccept_keepsMem h
  case attest => exact execAttest_keepsMem h
  case telemetry => exact execTelemetry_keepsMem h
  case update => exact execUpdate_keepsMem h
  case idcert => exact execIdcert_keepsMem h
  case deviceReset => exact execDeviceReset_keepsMem h
  case voltageLoop => exact execVoltageLoop_keepsMem h
  case frequencyLoop | powerLoop =>
    show memWf (State.retarget ..).mem
    rw [State.retarget_mem]
    exact h
  case equalisation => exact h
  case debugContinue => exact execDebugContinue_keepsMem h
  case waveStep => exact execWaveStep_keepsMem h
  case fragmentStep => exact execFragmentStep_keepsMem h
  case laneStep => exact execLaneStep_keepsMem h
  case leythRegisterWrite => exact execLeythRegisterWrite_keepsMem h
  case registerWrite => exact execRegisterWrite_keepsMem h
  case peerStoreArrival => exact execPeerStoreArrival_keepsMem h
  case narrowLinePublication => exact State.memWf_publishLine h _ _
  case debugContextTake => exact execDebugContextTake_keepsMem h
  case cxlCacheSnoop => exact execCxlCacheSnoop_keepsMem h
  show OutKeepsMem (exec (.seal _) s)
  · exact runWave_keepsMem (sealBody_keepsMem ·) h
  all_goals
    refine runWave_keepsMem (fun hu => ?_) h
    exact hu

/-! ### The turns of the agents (R41, R140, R218, R328) -/

theorem runWords_keepsMem {k i : Nat} {w : Wave} {fr : Frag} {ws : List Word} : OutKeepsMem (runWords k i w fr ws s) := by
  unfold runWords
  split
  · exact exec_keepsMem h _
  · simpa using h
  · simpa using h
  · exact h

theorem fetchAndRun_keepsMem {k i : Nat} {w : Wave} {fr : Frag} : OutKeepsMem (fetchAndRun k i w fr s) := by
  have hp := State.memWf_fetchPrep h (s.whoOf k w) fr.held fr.pc
  unfold fetchAndRun
  dsimp only
  split
  · simpa using hp
  · simpa using hp
  · exact runWords_keepsMem (s := State.setFrag ..) hp

theorem issueTurn_keepsMem {k i : Nat} : OutKeepsMem (issueTurn k i s) := by
  unfold issueTurn
  split
  · exact h
  · split
    · exact h
    · split
      · exact h
      · split
        · exact h
        · exact fetchAndRun_keepsMem (s := { s.passOver k i with cur := some (k, i) }) h

theorem quadTurn_keepsMem {core q : Nat} : OutKeepsMem (quadTurn core q s) := by
  unfold quadTurn
  extract_lets starved
  split
  · exact h
  · exact issueTurn_keepsMem h

theorem memWf_prefetchTurn {k i : Nat} {a : Dword} : memWf (prefetchTurn k i a s).mem := by
  unfold prefetchTurn
  split
  · exact h
  · rename_i w _
    have hp := State.memWf_prepWord h (s.whoOf k w) [] a
    dsimp only
    split
    · exact h
    · split <;> exact hp

theorem memWf_readAheadTurn {k i n : Nat} {ea : Dword} : memWf (readAheadTurn k i ea n s).mem := by
  unfold readAheadTurn
  split
  · exact h
  · dsimp only
    split
    · exact h
    · exact State.memWf_load h _ _ _

theorem alcoveTurn_keepsMem {cl ctx : Nat} : OutKeepsMem (alcoveTurn cl ctx s) := by
  unfold alcoveTurn
  split
  · exact h
  · split
    · exact h
    · split
      · exact exec_keepsMem h _
      · exact exec_keepsMem h (.handlerInstruction ..)
      · exact State.memWf_handlerFault h

theorem MailCmd.run_keepsMem (j : MailCmd) : OutKeepsMem (j.run s) := by
  cases j
  case repart => exact execRepart_keepsMem h
  case preempt => exact execPreempt_keepsMem h
  case resume => exact execResume_keepsMem h
  case setpool => exact execSetpool_keepsMem h
  case setqueue => exact execSetqueue_keepsMem h
  case alcove => exact execAlcove_keepsMem h
  case setlink => exact execSetlink_keepsMem h
  case faultq => exact execFaultq_keepsMem h
  case setwait => exact execSetwait_keepsMem h
  case features => exact execFeatures_keepsMem h
  case accept => exact execAccept_keepsMem h
  case attest => exact execAttest_keepsMem h
  case telemetry => exact execTelemetry_keepsMem h
  case update => exact execUpdate_keepsMem h
  case idcert => exact execIdcert_keepsMem h

theorem mailboxTurn_keepsMem : OutKeepsMem (mailboxTurn s) := by
  unfold mailboxTurn
  split
  · exact h
  · rename_i j rest _
    have hj := MailCmd.run_keepsMem (s := { s with box := [] }) h j
    split
    · exact h
    · split
      · rename_i ht
        rw [ht] at hj
        exact hj
      · exact hj

theorem takeTurn_keepsMem (t : Turn) : OutKeepsMem (takeTurn t s) := by
  cases t
  case issue => exact issueTurn_keepsMem h
  case quad => exact quadTurn_keepsMem h
  case copy => exact memWf_copyEngineTurn h
  case matrix => exact memWf_matrixEngineTurn h
  case alcove => exact alcoveTurn_keepsMem h
  case prefetch => exact memWf_prefetchTurn h
  case giveUp => exact h
  case readAhead => exact memWf_readAheadTurn h
  case copyAhead => exact memWf_copyAheadTurn h
  case loadAhead => exact memWf_loadAheadTurn h
  case cycles => exact h
  case peerRefusal => exact h
  case l1Drop => exact h
  case mailbox => exact mailboxTurn_keepsMem h
  case ask => simpa [takeTurn] using h
  case event => exact exec_keepsMem h _

end

/-! ### The device's own turns -/

/-- Every turn of a list keeps the canonical form. -/
def MovesKeepMem (ms : List Move) : Prop := ∀ m ∈ ms, ∀ s : State, memWf s.mem → OutKeepsMem (m s)

theorem movesKeepMem_nil : MovesKeepMem [] := by simp [MovesKeepMem]

theorem MovesKeepMem.cons {m : Move} {ms : List Move} (hm : ∀ {s : State}, memWf s.mem → OutKeepsMem (m s))
    (h : MovesKeepMem ms) : MovesKeepMem (m :: ms) :=
  List.forall_mem_cons.2 ⟨fun _ => hm, h⟩

theorem MovesKeepMem.append {ms ns : List Move} (h : MovesKeepMem ms) (h' : MovesKeepMem ns) : MovesKeepMem (ms ++ ns) :=
  List.forall_mem_append.2 ⟨h, h'⟩

theorem movesKeepMem_map {α : Type} {f : α → Move} (hf : ∀ a {s : State}, memWf s.mem → OutKeepsMem (f a s)) (l : List α) :
    MovesKeepMem (l.map f) :=
  List.forall_mem_map.2 fun a _ _ => hf a

theorem movesKeepMem_flatMap {α : Type} {f : α → List Move} (hf : ∀ a, MovesKeepMem (f a)) (l : List α) :
    MovesKeepMem (l.flatMap f) :=
  List.forall_mem_flatMap.2 fun a _ => hf a

theorem MovesKeepMem.ite {p : Prop} [Decidable p] {ms ns : List Move} (h : MovesKeepMem ms) (h' : MovesKeepMem ns) :
    MovesKeepMem (if p then ms else ns) := by
  split
  · exact h
  · exact h'

theorem MovesKeepMem.single {m : Move} (hm : ∀ {s : State}, memWf s.mem → OutKeepsMem (m s)) : MovesKeepMem [m] :=
  movesKeepMem_nil.cons hm

/-- A turn offered under a condition. -/
theorem MovesKeepMem.offered {p : Prop} [Decidable p] {m : Move} (hm : ∀ {s : State}, memWf s.mem → OutKeepsMem (m s)) :
    MovesKeepMem (if p then [m] else []) :=
  (MovesKeepMem.single hm).ite movesKeepMem_nil

theorem State.waveMoves_keepMem (s : State) : MovesKeepMem s.waveMoves := by
  refine (movesKeepMem_map (fun _ _ => (quadTurn_keepsMem ·)) _).append (movesKeepMem_flatMap (fun e => ?_) _)
  refine ((((MovesKeepMem.offered (execResultReturn_keepsMem ·)).append (.offered (execParkComplete_keepsMem ·))).append
    (.offered (execWaitThreshold_keepsMem ·))).append (.offered (execEvictedWaveResume_keepsMem ·))).append ?_
  refine List.forall_mem_filterMap.2 fun i _ m hm => ?_
  split at hm
  · split at hm <;> cases hm
    exact fun _ => (execWaitaWake_keepsMem ·)
  · cases hm

theorem State.fetchMoves_keepMem (s : State) : MovesKeepMem s.fetchMoves := by
  refine movesKeepMem_flatMap (fun e => movesKeepMem_flatMap (fun x => movesKeepMem_map (fun a s hs => ?_) _) _) _
  exact hs

theorem State.clockMoves_keepMem (s : State) : MovesKeepMem s.clockMoves := by
  refine movesKeepMem_map (fun c s hs => ?_) _
  exact hs

theorem State.engineMoves_keepMem (s : State) : MovesKeepMem s.engineMoves := by
  refine movesKeepMem_flatMap (fun e => ?_) _
  extract_lets one
  have hone : ∀ q, MovesKeepMem (one q) := by
    intro q
    refine movesKeepMem_flatMap (fun i => .cons (fun hs => ?_) (.single (execCopyResume_keepsMem ·))) _
    exact memWf_copyEngineTurn hs
  refine (((hone 0).append (hone 1)).append (movesKeepMem_nil.ite (.cons (fun hs => ?_)
    (.single (execMxMulTileCheck_keepsMem ·))))).append (movesKeepMem_nil.ite (.single (execActldCommit_keepsMem ·)))
  exact memWf_matrixEngineTurn hs

theorem State.clusterMoves_keepMem (s : State) : MovesKeepMem s.clusterMoves := by
  refine movesKeepMem_flatMap (fun e => ?_) _
  have hturn : MovesKeepMem (e.2.nextCtx.map (alcoveTurn e.1)).toList := by
    cases e.2.nextCtx with
    | none => exact movesKeepMem_nil
    | some i => exact .single (alcoveTurn_keepsMem ·)
  exact ((((hturn.append (movesKeepMem_map (fun _ _ => (execBudgetOverrun_keepsMem ·)) _)).append
    (movesKeepMem_nil.ite (.single (execAlcoveMessage_keepsMem ·)))).append
    (movesKeepMem_map (fun _ _ => (execHandlerStart_keepsMem ·)) _)).append
    (movesKeepMem_map (fun _ _ => (execFill_keepsMem ·)) _)).append
    (movesKeepMem_map (fun _ _ hs => exec_keepsMem hs (.narrowLinePublication ..)) _)

theorem State.packetMoves_keepMem (s : State) : MovesKeepMem s.packetMoves := by
  refine (movesKeepMem_flatMap (fun e => ?queue) _).append (movesKeepMem_flatMap (fun e => ?copy) _)
  case queue =>
    split
    · exact movesKeepMem_nil
    · exact .cons (execLaunchPacket_keepsMem ·) (.cons (execBarrierPacket_keepsMem ·) (.cons (execCopyPacket_keepsMem ·)
        (.cons (execTilesPacket_keepsMem ·) (.cons (execSignalPacket_keepsMem ·) (.single (execMarkerPacket_keepsMem ·))))))
  case copy =>
    split
    · exact .single (execCopyPacket_keepsMem ·)
    · exact movesKeepMem_nil

theorem State.cutterMoves_keepMem (s : State) : MovesKeepMem s.cutterMoves := by
  refine ((movesKeepMem_flatMap (fun e => ?launch) _).append (movesKeepMem_flatMap (fun e => ?team) _)).append
    (movesKeepMem_flatMap (fun e => ?job) _)
  case launch =>
    refine MovesKeepMem.append (.cons (execLaunchAcceptance_keepsMem ·) (.cons (execWindowEvaluation_keepsMem ·)
      (.single (execLaunchCompletion_keepsMem ·)))) ?_
    split
    · exact movesKeepMem_nil
    · split
      · exact .single (execCoresidentPlacement_keepsMem ·)
      · exact movesKeepMem_map (fun _ _ => (execTeamDispatch_keepsMem ·)) _
  case team =>
    exact .cons (execTeamRetire_keepsMem ·) (.cons (execTeamResume_keepsMem ·)
      (movesKeepMem_flatMap (fun _ => movesKeepMem_map (fun _ _ => (execStashFill_keepsMem ·)) _) _))
  case job => exact movesKeepMem_map (fun _ _ => (execFillSignalPoll_keepsMem ·)) _

theorem State.firmwareMoves_keepMem (s : State) : MovesKeepMem s.firmwareMoves :=
  (((movesKeepMem_map (fun _ _ => (execPartitionFault_keepsMem ·)) _).append
    (.offered (execRepartDrainEnd_keepsMem ·))).append (movesKeepMem_nil.ite (.single (mailboxTurn_keepsMem ·)))).append
    (movesKeepMem_nil.ite (.single fun hs => by simpa using hs))

theorem State.moves_keepMem (s : State) : MovesKeepMem s.moves :=
  (((((((s.waveMoves_keepMem.append s.fetchMoves_keepMem).append s.engineMoves_keepMem).append
    s.clusterMoves_keepMem).append s.packetMoves_keepMem).append s.cutterMoves_keepMem).append
    s.firmwareMoves_keepMem).append s.clockMoves_keepMem)

theorem ownTurn_keepsMem {s : State} (h : memWf s.mem) : OutKeepsMem (ownTurn s) := by
  have hm := s.moves_keepMem
  unfold ownTurn
  split
  · exact h
  · rename_i m he
    rw [he] at hm
    exact hm m (by simp) s h
  · rename_i he _
    have hl : Config.freeChoice s.choices % s.moves.length < s.moves.length :=
      Nat.mod_lt _ (List.length_pos_iff.2 he)
    rw [List.getD_eq_getElem _ _ hl]
    exact hm _ (List.getElem_mem hl) { s with choices := s.choices + 1 } h

/-! ### A step -/

theorem step_keepsMem {s : State} (h : memWf s.mem) : OutKeepsMem (step s) := by
  unfold step nextTurn
  split
  · rename_i t rest _
    exact takeTurn_keepsMem (s := { s with agenda := rest }) h t
  · exact ownTurn_keepsMem h

/-- Settles O59: memory is written only by whole operations that each keep its form (a byte set, a filter, a line put back), so
that every access, body, engine, packet and command does, and with them every turn given from outside or of the device's own. -/
theorem everyStepKeepsMemoryCanonical : Obligations.EveryStepKeepsMemoryCanonical :=
  fun _ _ h hs => (outKeepsMem_iff _).1 (step_keepsMem h) _ hs

end Sys2Proof.Machine
end

section
/-! O35, the events of waves: each changes its own wave alone, but for the resumption of a team; of the starved fragments the least
in the order of R140 goes first. -/

namespace Sys2Proof.Machine

open Sys2Proof

/-! ### One wave changed -/

/-- Wave k has become w, and nothing else has changed. -/
def WaveBecomes (s t : State) (k : Nat) (w : Wave) : Prop :=
  t = { s with waves := t.waves } ∧ (∀ j, j ≠ k → Tab.find j t.waves = Tab.find j s.waves) ∧ Tab.find k t.waves = some w

theorem waveBecomes_setWave {s : State} {k : Nat} {w : Wave} (hw : Tab.find k s.waves = some w) (g : Wave → Wave) :
    WaveBecomes s (s.setWave k g) k (g w) :=
  ⟨rfl, fun j hj => by simp [hj], by simp [hw]⟩

theorem WaveBecomes.find {s t : State} {k : Nat} {w : Wave} (h : WaveBecomes s t k w) : Tab.find k t.waves = some w := h.2.2

theorem WaveBecomes.trans {s t u : State} {k : Nat} {v w : Wave} (h : WaveBecomes s t k v) (h' : WaveBecomes t u k w) :
    WaveBecomes s u k w := by
  obtain ⟨rest, others, -⟩ := h
  obtain ⟨rest', others', own⟩ := h'
  exact ⟨rest'.trans (by rw [rest]), fun j hj => (others' j hj).trans (others j hj), own⟩

/-! ### Results and parks (R133, R143) -/

theorem State.uncommitted_eq (s : State) (k : Nat) :
    s.uncommitted k = ((s.core (coreOf k)).pending.filter fun p => p.wave = some k).length :=
  congrArg List.length (List.filter_congr fun p _ => by simp [Bool.beq_eq_decide_eq])

theorem resultReturn_returns {s : State} {k : Nat} {w : Wave} (hw : Tab.find k s.waves = some w) :
    ∃ t, exec (.resultReturn k) s = .next t ∧
      WaveBecomes s t k (if s.uncommitted k < w.outstanding then { w with outstanding := w.outstanding - 1 } else w) :=
  ⟨_, rfl, waveBecomes_setWave hw _⟩

/-- The park of wave k can end: fragment i brought it about, no result is outstanding, and the wave's team runs. -/
structure ParkEnds (s : State) (k i : Nat) (w : Wave) : Prop where
  wave : Tab.find k s.waves = some w
  parked : w.parked = some i
  returned : w.outstanding = 0
  runs : ∀ tm, s.teamOf w = some tm → tm.dead = false ∧ tm.parked = false ∧ tm.halt = none

section
variable {s : State} {k i : Nat} {w : Wave}

theorem ParkEnds.lets (h : ParkEnds s k i w) : ((s.teamOf w).map fun tm => tm.letsWave w.num).getD true = true := by
  cases ht : s.teamOf w with
  | none => rfl
  | some tm =>
    obtain ⟨alive, unparked, unhalted⟩ := h.runs tm ht
    simp [Team.letsWave, alive, unparked, unhalted]

/-- The state in which the park has just ended. -/
theorem ParkEnds.completes (h : ParkEnds s k i w) :
    exec (.parkComplete k) s = .next ((s.setWave k fun w => { w with parked := none }).endPark k i) := by
  have runs : exec (.parkComplete k) s = execParkComplete k s := rfl
  rw [runs, execParkComplete, h.wave]
  simp [h.parked, h.returned, h.lets]

theorem ParkEnds.becomes (h : ParkEnds s k i w) :
    WaveBecomes s (s.setWave k fun w => { w with parked := none }) k { w with parked := none } :=
  waveBecomes_setWave h.wave _

/-- Without a fault to deliver, the wave is no longer parked and nothing else happens. -/
theorem ParkEnds.quiet (h : ParkEnds s k i w)
    (hq : ∀ fr, w.frags[i]? = some fr → (∀ n nx, fr.wait ≠ .join n nx) ∧
      (fr.wait = .none → w.faults = [] ∨ w.handlerFlag = true)) :
    ∃ t, exec (.parkComplete k) s = .next t ∧ WaveBecomes s t k { w with parked := none } := by
  refine ⟨_, h.completes, ?_⟩
  suffices stays : (s.setWave k fun w => { w with parked := none }).endPark k i =
      s.setWave k fun w => { w with parked := none } by rw [stays]; exact h.becomes
  have own := h.becomes.find
  unfold State.endPark
  rw [own, Option.bind_some]
  cases hf : w.frags[i]? with
  | none => rfl
  | some fr =>
    obtain ⟨noJoin, noFault⟩ := hq fr hf
    cases hwt : fr.wait with
    | none =>
      simp only [hwt, State.deliverFault, own, hf]
      rcases noFault hwt with h0 | h0 <;> simp [h0]
    | join n nx => exact absurd hwt (noJoin n nx)
    | _ => simp [hwt]

/-- The oldest pending fault goes to the fragment that parked. -/
theorem ParkEnds.delivers (h : ParkEnds s k i w) {fr : Frag} {f : AsyncFault} {rest : List AsyncFault}
    (hh : w.handlerFlag = false) (hfs : w.faults = f :: rest) (hf : w.frags[i]? = some fr) (hwt : fr.wait = .none) :
    ∃ u, WaveBecomes s u k { w with parked := none, faults := rest } ∧
      exec (.parkComplete k) s = .next (u.takeTrap k i (faultTrap f fr.mask)) := by
  have own := h.becomes.find
  refine ⟨_, h.becomes.trans (waveBecomes_setWave own fun w => { w with faults := rest }), h.completes.trans ?_⟩
  simp only [State.endPark, own, Option.bind_some, hf, hwt, State.deliverFault, hh, hfs]

/-- A fragment that waits at a JOIN is due the fault. -/
theorem ParkEnds.due (h : ParkEnds s k i w) {fr : Frag} {n : Nat} {nx : Dword} (hf : w.frags[i]? = some fr)
    (hwt : fr.wait = .join n nx) :
    ∃ t, exec (.parkComplete k) s = .next t ∧
      WaveBecomes s t k { w with parked := none, frags := w.frags.set i { fr with due := w.faults.head? } } := by
  have own := h.becomes.find
  have owed := waveBecomes_setWave own (Wave.setFrag i fun f => { f with due := w.faults.head? })
  have placed : w.frags.modify i (fun f => { f with due := w.faults.head? }) =
      w.frags.set i { fr with due := w.faults.head? } := by
    rw [List.modify_eq_set_getElem?, hf]; rfl
  have ended : (s.setWave k fun w => { w with parked := none }).endPark k i =
      (s.setWave k fun w => { w with parked := none }).setFrag k i fun f => { f with due := w.faults.head? } := by
    simp only [State.endPark, own, Option.bind_some, hf, hwt]
  refine ⟨_, h.completes, ?_⟩
  rw [ended]
  simp only [Wave.setFrag, placed] at owed
  exact h.becomes.trans owed

end

/-! ### The order of R140 -/

theorem rankLt_asymm {a b : Nat × Nat × Nat × Nat} (h : rankLt a b = true) : rankLt b a = false := by
  obtain ⟨a0, a1, a2, a3⟩ := a
  obtain ⟨b0, b1, b2, b3⟩ := b
  simp only [rankLt] at h ⊢
  split_ifs at h ⊢ <;> simp only [decide_eq_true_eq, decide_eq_false_iff_not] at h ⊢ <;> omega

theorem not_rankLt_trans {a b c : Nat × Nat × Nat × Nat} (h : rankLt a b = false) (h' : rankLt b c = false) :
    rankLt a c = false := by
  obtain ⟨a0, a1, a2, a3⟩ := a
  obtain ⟨b0, b1, b2, b3⟩ := b
  obtain ⟨c0, c1, c2, c3⟩ := c
  simp only [rankLt] at h h' ⊢
  split_ifs at h h' ⊢ <;> simp only [decide_eq_false_iff_not] at h h' ⊢ <;> omega

/-- The first of a list is one of it before which no other comes. -/
theorem State.first_least {s : State} {l : List (Nat × Nat)} {x : Nat × Nat} (h : s.first l = some x) :
    x ∈ l ∧ ∀ y ∈ l, rankLt (s.rank y) (s.rank x) = false := by
  have irrefl : ∀ a, rankLt a a = false := fun a => by simp [rankLt]
  induction l generalizing x with
  | nil => cases h
  | cons a r ih =>
    rw [State.first] at h
    cases hr : s.first r with
    | none =>
      rw [hr] at h
      cases h
      refine ⟨by simp, fun y hy => ?_⟩
      rcases List.mem_cons.1 hy with rfl | hy
      · exact irrefl _
      · cases r with
        | nil => cases hy
        | cons b r =>
          rw [State.first] at hr
          split at hr <;> cases hr
    | some b =>
      obtain ⟨hb, least⟩ := ih hr
      rw [hr] at h
      dsimp only at h
      cases hlt : rankLt (s.rank b) (s.rank a) with
      | true =>
        rw [hlt, if_pos rfl] at h
        cases h
        refine ⟨List.mem_cons_of_mem _ hb, fun y hy => ?_⟩
        rcases List.mem_cons.1 hy with rfl | hy
        · exact rankLt_asymm hlt
        · exact least y hy
      | false =>
        rw [hlt, if_neg (by simp)] at h
        cases h
        refine ⟨by simp, fun y hy => ?_⟩
        rcases List.mem_cons.1 hy with rfl | hy
        · exact irrefl _
        · exact not_rankLt_trans (least y hy) hlt

theorem State.first_of_mem {s : State} {l : List (Nat × Nat)} {x : Nat × Nat} (h : x ∈ l) : ∃ y, s.first l = some y := by
  cases l with
  | nil => cases h
  | cons a r =>
    rw [State.first]
    split <;> exact ⟨_, rfl⟩

theorem State.mem_starved {s : State} {core quad : Nat} {x : Nat × Nat} :
    x ∈ s.starved core quad ↔ x ∈ s.quadReady core quad ∧ 64 ≤ s.readyFor x := by
  simp [State.starved, List.mem_filter]

/-- A starved fragment that none comes before issues next. -/
theorem starvationIssue_least {s : State} {core quad : Nat} {x : Nat × Nat} (h : x ∈ s.starved core quad) :
    ∃ y ∈ s.starved core quad, (∀ z ∈ s.starved core quad, rankLt (s.rank z) (s.rank y) = false) ∧
      exec (.starvationIssue core quad) s = .next { s with agenda := .issue y.1 y.2 :: s.agenda } := by
  obtain ⟨y, hy⟩ := State.first_of_mem (s := s) h
  obtain ⟨mem, least⟩ := State.first_least hy
  have runs : exec (.starvationIssue core quad) s = execStarvationIssue core quad s := rfl
  exact ⟨y, mem, least, by rw [runs, execStarvationIssue, hy]⟩

/-! ### Waits past the threshold (R129) -/

theorem Wait.counts_iff (wt : Wait) :
    wt.counts = true ↔ wt = .retry ∨ (∃ o ph, wt = .barw o ph) ∨ wt = .gen ∨ wt = .held ∨ ∃ n, wt = .host n := by
  cases wt <;> simp [Wait.counts]

theorem Frag.waitedFor_iff (now n : Nat) (f : Frag) :
    f.waitedFor now n = true ↔ (f.wait = .retry ∨ (∃ o ph, f.wait = .barw o ph) ∨ f.wait = .gen ∨ f.wait = .held ∨
      ∃ n, f.wait = .host n) ∧ n ≤ now - f.waitSince := by
  simp [Frag.waitedFor, Wait.counts_iff]

section
variable {s : State} {k : Nat} {w : Wave}

/-- Whether the wave has waited past the threshold and its team is not parked. -/
def State.overdue (s : State) (k : Nat) (w : Wave) : Bool :=
  !((s.teamOf w).map (·.parked)).getD false && w.frags.all (·.waitedFor (s.now k) (s.part (s.partOf w)).wait)

theorem State.overdue_iff (s : State) (k : Nat) (w : Wave) :
    s.overdue k w = true ↔ ¬ (s.teamOf w).map Team.parked = some true ∧
      ∀ f ∈ w.frags, f.waitedFor (s.now k) (s.part (s.partOf w)).wait = true := by
  have unparked : (!((s.teamOf w).map (·.parked)).getD false) = true ↔ ¬ (s.teamOf w).map Team.parked = some true := by
    cases s.teamOf w with
    | none => simp
    | some tm => cases hp : tm.parked <;> simp [hp]
  simp only [State.overdue, Bool.and_eq_true, List.all_eq_true, unparked]

theorem waitThreshold_overdue (hw : Tab.find k s.waves = some w) (h : s.overdue k w = true) :
    ∃ t, exec (.waitThreshold k) s = .next t ∧ WaveBecomes s t k { w with evictable := true } := by
  have runs : exec (.waitThreshold k) s = execWaitThreshold k s := rfl
  refine ⟨_, ?_, waveBecomes_setWave hw fun w => { w with evictable := true }⟩
  rw [runs, execWaitThreshold, hw]
  exact if_pos h

theorem waitThreshold_stays (hw : Tab.find k s.waves = some w) (h : ¬ s.overdue k w = true) :
    exec (.waitThreshold k) s = .next s := by
  have runs : exec (.waitThreshold k) s = execWaitThreshold k s := rfl
  rw [runs, execWaitThreshold, hw]
  exact if_neg h

/-! ### Evicted waves and parked teams return (R129, R223) -/

theorem State.runs_of_team {tm : Team} (ht : s.teamOf w = some tm) (hd : tm.dead = false) (hp : tm.parked = false)
    (hh : tm.halt = none) : s.runs w = true := by
  simp [State.runs, ht, Team.lets, hd, hp, hh]

theorem evictedWaveResume_returns (hw : Tab.find k s.waves = some w) (hs : w.spilt = true) (hr : s.runs w = true)
    (hc : s.canReturn k w = true) (hk : s.wakesSpilt k w = true) :
    ∃ t, exec (.evictedWaveResume k) s = .next t ∧ WaveBecomes s t k { w with spilt := false, evictable := false } := by
  have runs : exec (.evictedWaveResume k) s = execEvictedWaveResume k s := rfl
  refine ⟨_, ?_, waveBecomes_setWave hw fun w => { w with spilt := false, evictable := false }⟩
  rw [runs, execEvictedWaveResume, hw]
  simp [hs, hr, hc, hk]

theorem evictedWaveResume_stays (hw : Tab.find k s.waves = some w)
    (h : s.canReturn k w = false ∨ s.wakesSpilt k w = false) : exec (.evictedWaveResume k) s = .next s := by
  have runs : exec (.evictedWaveResume k) s = execEvictedWaveResume k s := rfl
  rw [runs, execEvictedWaveResume, hw]
  rcases h with h | h <;> simp [h]

end

theorem teamResume_resumes {s : State} {n : Nat} {tm : Team} {la : Launch} (ht : Tab.find n s.teams = some tm)
    (hl : Tab.find tm.launch s.launches = some la) (hp : tm.parked = true) (hlp : la.parked = false)
    (hco : la.desc.cores = false) (hr : s.canResume n tm = true) :
    exec (.teamResume n) s = .next (s.resumeTeam n) := by
  have runs : exec (.teamResume n) s = execTeamResume n s := rfl
  rw [runs, execTeamResume, ht]
  dsimp only
  rw [hl]
  simp [hp, hlp, hco, hr]

/-- What resuming a team does: its pages are pinned, its waves are back, and its core's engine and banks are as it finds them
again. -/
theorem resumeTeam_frame {s : State} {n : Nat} {tm : Team} (ht : Tab.find n s.teams = some tm) :
    let t := s.resumeTeam n
    t = { s with waves := t.waves, teams := t.teams, cores := t.cores } ∧
      (∀ j, j ≠ n → Tab.find j t.teams = Tab.find j s.teams) ∧
      Tab.find n t.teams = some { tm.pinAll with parked := false } ∧
      (∀ j, Tab.find j t.waves = (Tab.find j s.waves).map fun w =>
        if w.team = n then { w with spilt := false, evictable := false } else w) ∧
      (∀ c, c ≠ tm.core → t.core c = s.core c) ∧ t.core tm.core = (s.core tm.core).giveBack n tm.launch := by
  have resumed : s.resumeTeam n =
      ({ (s.setCore tm.core (·.giveBack n tm.launch)) with
        waves := s.waves.map fun e =>
          (e.1, if e.2.team = n then { e.2 with spilt := false, evictable := false } else e.2) } : State).setTeam n
        fun tm => { tm.pinAll with parked := false } := by
    unfold State.resumeTeam
    rw [ht]
    refine congrArg (fun ws => State.setTeam n _ { s.setCore tm.core _ with waves := ws }) (List.map_congr_left fun e _ => ?_)
    dsimp only
    split <;> rfl
  rw [resumed]
  refine ⟨rfl, fun j hj => by simp [hj], by simp [ht], fun j => ?_, fun c hc => ?_, ?_⟩
  · exact Tab.find_map j (fun _ w => if w.team = n then { w with spilt := false, evictable := false } else w) s.waves
  · exact (State.setCore_core c tm.core _ s).trans (if_neg hc)
  · exact State.setCore_core_same ..

/-- Settles O35, event by event. -/
theorem waveEvents : Obligations.WaveEvents := by
  refine ⟨fun s k w hw => ?_, fun s k i w ⟨hw, hp, ho, hr⟩ hq => ParkEnds.quiet ⟨hw, hp, ho, hr⟩ hq,
    fun s k i w fr f rest ⟨hw, hp, ho, hr⟩ hh hfs hf hwt => ?_,
    fun s k i n nx w fr ⟨hw, hp, ho, hr⟩ hf hwt => ParkEnds.due ⟨hw, hp, ho, hr⟩ hf hwt,
    fun s core quad => ?_, fun s k w hw => ?_, fun s core n rest ha => ?_, fun s k w tm hw ht hs hd hp hh => ?_,
    fun s n tm la ht hl hp hlp hco hr => ?_⟩
  · rw [← State.uncommitted_eq]
    exact resultReturn_returns hw
  · obtain ⟨u, becomes, runs⟩ := ParkEnds.delivers ⟨hw, hp, ho, hr⟩ hh hfs hf hwt
    exact ⟨u, _, becomes, runs, rfl⟩
  · rintro hungry ⟨x, hx⟩
    obtain ⟨y, mem, least, runs⟩ := starvationIssue_least (State.mem_starved.2 hx)
    exact ⟨y, State.mem_starved.1 mem, fun z hz => least z (State.mem_starved.2 hz), runs⟩
  · intro waits parked
    have overdue : s.overdue k w = true ↔ ¬ parked ∧ ∀ f ∈ w.frags, waits f := by
      simp only [State.overdue_iff, Frag.waitedFor_iff]; rfl
    refine ⟨fun h h' => waitThreshold_overdue hw (overdue.2 ⟨h, h'⟩), fun h => waitThreshold_stays hw fun hov => ?_⟩
    obtain ⟨unparked, all⟩ := overdue.1 hov
    rcases h with h | ⟨f, hf, h⟩
    · exact unparked h
    · exact h (all f hf)
  · refine ⟨_, step_of_agenda ha, rfl, fun c hc => ?_, State.setCore_core_same ..⟩
    exact (State.setCore_core c core _ _).trans (if_neg hc)
  · exact ⟨fun hc hk => evictedWaveResume_returns hw hs (State.runs_of_team ht hd hp hh) hc hk,
      fun h => evictedWaveResume_stays hw h⟩
  · obtain ⟨rest, teams, own, waves, cores, core⟩ := resumeTeam_frame ht
    exact ⟨_, teamResume_resumes ht hl hp hlp hco hr, rest, teams,
      ⟨_, own, rfl, fun p => Tab.find_map p (fun _ (pg : Page) => { pg with pinned := true }) tm.pages⟩, waves, cores, core⟩

end Sys2Proof.Machine
end

section
/-! O27 and O28: an access to an unpinned page that claims a page of another team of the same co-resident launch parks the team that
makes it (R304), and with it restarts the fragments of the wave that issues. -/

namespace Sys2Proof.Machine

open Sys2Proof

/-- Fields all zero: operands v0, no immediate, no guard. -/
def zeroFields : XF := ⟨none, false, false, 0, 0, 0, 0, 0, 0, 0, 0, Guard.none, 0⟩

/-- A running team of a window of one page, plain and not pinned. -/
def unpinnedTeam : Team := { placeTeam with pages := [(0, ⟨none, [], false⟩)] }

/-- A team of the same launch whose window takes every page of the core (R101). -/
def fullTeam : Team := { placeTeam with window := 256 * 4096, waves := [1] }

/-- The one wave of the full team, past the wait threshold: the team's pages can be claimed (R102, R129). -/
def overdueWave : Wave := { placeWave with team := 1, evictable := true }

/-- The launch of both teams, a co-resident one (R304). -/
def coresidentLaunch : Launch := { placeLaunch with desc := { Desc.zero with cores := true } }

/-- A fragment of lane 0. -/
def firstFragment : Frag := freshFrag 1 (BitVec.ofNat 64 placeAt) 0 false

/-- A wave with a fragment of lane 0 that issues and one of lane 1 that waits under R129. -/
def twoFragments (live : Word) : Wave :=
  { placeWave with
    live := live
    frags := [firstFragment,
      { freshFrag 2 (BitVec.ofNat 64 placeAt) 0 false with wait := .retry }] }

/-- Fragment 0 of that wave issues, on the core on which both teams are. -/
def claimState (live : Word) : State :=
  { State.reset with
    waves := [(0, twoFragments live), (1, overdueWave)], teams := [(0, unpinnedTeam), (1, fullTeam)],
    launches := [(0, coresidentLaunch)], cur := some (0, 0) }

theorem claimState_issues (live : Word) : Issues (claimState live) 0 0 (twoFragments live) firstFragment := ⟨rfl, rfl, rfl⟩

theorem claimState_team (live : Word) : (claimState live).teamOf (twoFragments live) = some unpinnedTeam := rfl

/-- The page can be pinned: the full team's pages can be claimed. -/
theorem claimState_canPin (live : Word) : (claimState live).canPin 0 [0] = true := by
  have anyLive : (claimState live).canPin 0 [0] = (claimState 0).canPin 0 [0] := rfl
  rw [anyLive]
  decide +kernel

/-- What the second fragment of wave 0 waits in after an outcome. -/
def secondWait : Out → Option Wait
  | .next t => (Tab.find 0 t.waves).bind fun w => (w.frags[1]?).map Frag.wait
  | _ => none

/-- An outcome in which the second fragment still waits as it did. -/
theorem secondWait_kept {o : Out} {t : State} {w : Wave} {live : Word} (runs : o = .next t)
    (found : Tab.find 0 t.waves = some w) (kept : OtherFrags (twoFragments live) w 0) : secondWait o = some .retry := by
  have second : w.frags[1]? = (twoFragments live).frags[1]? := kept.2 1 (by decide)
  simp [secondWait, runs, found, second, twoFragments]

/-- A BARW with v0 = 0 in every lane names the object at team address 0; it waits, and the second fragment does no more. -/
theorem secondWait_barw : secondWait (exec (.barw zeroFields) (claimState 3)) = some .none := by decide +kernel

/-- The same of a BARA on that object, whose arrival is held (EXPECT = 0). -/
theorem secondWait_bara : secondWait (exec (.bara zeroFields) (claimState 1)) = some .none := by decide +kernel

/-- Refutes O28: its clause on a BARW that waits has the other fragments of the wave as they were, and asks of the object's page
only that it can be pinned, be it with a page that another team gives up. In `claimState 3` that team is of the same co-resident
launch: the claim parks every team of the launch (R304), the issuing one too, and the fragment of lane 1, which waited, is
restarted (R219). (The statements on accesses exclude this by `Roomy`.) -/
theorem not_waitsOnBarriersAndMemory : ¬ Obligations.WaitsOnBarriersAndMemory := by
  unfold Obligations.WaitsOnBarriersAndMemory
  intro h
  obtain ⟨-, waiting, -⟩ := h
  have unstopped : ∀ a, firstFragment.wait ≠ .stopped a := fun a => by simp [firstFragment, freshFrag]
  obtain ⟨t, w', runs, -, found, -, others, -⟩ := waiting zeroFields (by decide) (claimState 3) 0 0 _ _ (claimState_issues 3)
    ⟨.inl (by decide), ⟨.inl rfl, .inl (by decide)⟩⟩ (.inl rfl)
    ⟨⟨by decide, unstopped, unpinnedTeam, claimState_team 3, by decide, by decide, by decide, claimState_canPin 3⟩,
      .inl (by decide), .inl rfl⟩
  have kept := secondWait_kept runs found others
  rw [secondWait_barw] at kept
  exact absurd kept (by decide)

/-- Refutes O27: its clause on a held arrival has the other fragments of the wave as they were. In `claimState 1` the pin of the
object's page parks the issuing team, as above, and the second fragment is restarted. That fragment is of lane 1, which is not live:
the clause, where the live lanes are all of the issuing fragment, does not ask that the wave's fragments are formed (R132), and a
formed wave has no second fragment then. -/
theorem not_barrierObjectUpdates : ¬ Obligations.BarrierObjectUpdates := by
  unfold Obligations.BarrierObjectUpdates
  intro h
  obtain ⟨-, -, -, -, -, -, held, -⟩ := h
  have unheld : firstFragment.wait ≠ .held := by simp [firstFragment, freshFrag]
  obtain ⟨t, w', runs, -, found, -, -, others, -⟩ := held zeroFields (by decide) (claimState 1) 0 0 _ _ (claimState_issues 1)
    ⟨.inl (by decide), ⟨.inl rfl, .inl (by decide)⟩⟩ (.inl rfl)
    ⟨⟨by decide, rfl, unheld, ⟨unpinnedTeam, claimState_team 1, by decide, by decide, by decide⟩, claimState_canPin 1,
      fun tm ht => by cases ht; decide⟩, rfl, by decide, by decide⟩
  have kept := secondWait_kept runs found others
  rw [secondWait_bara] at kept
  exact absurd kept (by decide)

end Sys2Proof.Machine
end

section
/-! O26: a read of a line that another cluster holds narrowly makes every other cluster publish; the statement asks rising lines and
offsets below 128 of the holding cluster alone. -/

namespace Sys2Proof.Machine

open Sys2Proof

/-- Cluster 0 holds the first byte of line 1 dirty under a narrow release (R88). -/
def narrowHolder : Cluster := { Cluster.fresh with dirty := [(1, ⟨[(0, 7)], 1, 0, false⟩)] }

/-- A cluster that wrote line 1 at its home after its narrow release, which holds line 0: of that line it has a byte of no offset
in it, 128, which is where line 1 begins. -/
def strayHolder : Cluster := { Cluster.fresh with dirty := [(0, ⟨[(128, 1)], 1, 0, false⟩)], wrote := [(1, 1)] }

/-- Both clusters, cluster 1 having nothing. -/
def strayState : State := { State.reset with clusters := [(0, narrowHolder), (2, strayHolder)] }

theorem strayState_others (c : Nat) (h : c ≠ 0) : Tab.find 1 (strayState.cluster c).dirty = none := by
  by_cases h2 : c = 2
  · subst h2; decide
  · simp [State.cluster, strayState, Tab.getD, Tab.find, Ne.symm h, Ne.symm h2, Cluster.fresh]

/-- Cluster 1 reads the byte after both have published: cluster 2's, over that of cluster 0. -/
theorem strayState_reads : (strayState.readGlobal none 1 128 1).1 = [1] := by decide

theorem strayState_seen : strayState.seen 0 128 = 7 := by decide

/-- Refutes O26: its last clause asks rising lines and offsets below 128 of the dirty lines of the holding cluster alone (`wf s
cl`). In `strayState` a third cluster must publish line 0 before line 1 is read (R88), and its byte of line 0 at offset 128
falls on the first byte of line 1: the reader finds 1, where the holding cluster sees 7. -/
theorem not_fencesPublishWrites : ¬ Obligations.FencesPublishWrites := by
  unfold Obligations.FencesPublishWrites
  intro h
  obtain ⟨-, -, -, -, -, reads⟩ := h
  have holds := reads strayState 0 1 128 ⟨[(0, 7)], 1, 0, false⟩ (by decide) ⟨by decide, by decide⟩ (by decide) (by decide)
    (.inl (by decide)) strayState_others (by decide)
  rw [strayState_reads, strayState_seen] at holds
  exact absurd holds (by decide)

end Sys2Proof.Machine
end


section
/-! O25: an atomic on a stash-mapped line publishes what its cluster holds dirty of that line (R103); the statement does not ask
that the offsets of those bytes are below 128. -/

namespace Sys2Proof.Machine

open Sys2Proof

/-- A team whose one page is bound to the first page of global memory, with no line filled. -/
def boundTeam : Team := { placeTeam with pages := [(0, ⟨some (placeAt, 0), [], true⟩)] }

/-- A fragment of lane 0. -/
def laneFragment : Frag := freshFrag 1 (BitVec.ofNat 64 placeAt) 0 false

/-- Its wave; v0, v1 of lane 0 name the first byte of the window. -/
def windowWave : Wave := { placeWave with live := 1, frags := [laneFragment], regs := [(32, 0xFF000000)] }

/-- A cluster that holds line 0 dirty with a byte of no offset in it, 128, which is where line 1 begins. -/
def overfullCluster : Cluster := { Cluster.fresh with dirty := [(0, ⟨[(128, 1)], 0, 0, false⟩)] }

/-- The wave issues on a core of that cluster. -/
def overfullState : State :=
  { State.reset.placeWords [] with
    waves := [(0, windowWave)], teams := [(0, boundTeam)], clusters := [(0, overfullCluster)], cur := some (0, 0) }

/-- The access of lane 0. -/
def windowAcc : Acc := ⟨0, 0xFF00000000000000, 4, 4, true, true⟩

def overfullCtx : Ctx := ctxOf (.afadd zeroFields) 0 0 windowWave laneFragment

theorem windowAcc_place : placeOf overfullState 0 boundTeam windowAcc.ea = some (.stash 0) := by decide

theorem overfullState_quiet : Quiet overfullState 0 0 := ⟨by decide, by decide⟩

theorem overfullState_canAccess : CanAccess overfullState overfullCtx boundTeam [windowAcc] where
  team := rfl
  checks := by decide
  whole := by decide
  room := .inl (by decide)
  steady a ha := by
    obtain rfl := List.mem_singleton.1 ha
    exact ⟨_, windowAcc_place, boundTeam, (placeAt, 0), rfl, rfl, by decide, by decide, .inr overfullState_quiet⟩

theorem overfullState_inStash : InStash overfullState overfullCtx boundTeam [windowAcc] := by
  intro a ha
  obtain rfl := List.mem_singleton.1 ha
  refine ⟨0, (placeAt, 0), ⟨windowAcc_place, rfl⟩, rfl, ?_, ?_, ?_, ?_⟩
  · intro bs h
    cases h
  · decide
  · decide
  · rintro a' ha' t' b' ⟨place, -⟩ other
    obtain rfl := List.mem_singleton.1 ha'
    cases windowAcc_place.symm.trans place
    exact absurd rfl other

/-- The byte of memory at an address after an outcome. -/
def memAfter (a : Nat) : Out → Option Byte
  | .next t => some (memRead t.mem a)
  | _ => none

theorem memAfter_afadd : memAfter 128 (exec (.afadd zeroFields) overfullState) = some 1 := by decide

theorem overfullState_mem : memRead overfullState.mem 128 = 0 := by decide

theorem overfullState_seen : overfullState.seen 0 128 = 0 := by decide

/-- Refutes O25: its clause on stash-mapped lines has every byte of memory as it was or as the wave's cluster saw it, and does not
ask that the cluster's dirty lines hold bytes of offsets below 128. Before an AFADD on line 0 the cluster's copy of it is published
(R103), and in `overfullState` that writes 1 to the first byte of line 1, which stood at 0 and which the cluster saw as 0. -/
theorem not_atomicsReadModifyWrite : ¬ Obligations.AtomicsReadModifyWrite := by
  unfold Obligations.AtomicsReadModifyWrite
  intro h
  obtain ⟨-, -, -, afadd, -⟩ := h
  have oneAcc : ((if overfullCtx.f.u then overfullCtx.lanes.take 1 else overfullCtx.lanes).map fun l =>
      (⟨l, overfullCtx.ea l, 4, 4, true, true⟩ : Acc)) = [windowAcc] := by decide
  obtain ⟨inStash, -⟩ := afadd zeroFields (by decide) overfullState 0 0 windowWave laneFragment boundTeam ⟨rfl, rfl, rfl⟩
    ⟨.inl (by decide), ⟨.inl rfl, .inl (by decide)⟩⟩ (.inl rfl) (oneAcc ▸ overfullState_canAccess)
    (fun a ha j hj e he => by cases he)
  obtain ⟨t, w', runs, -, -, -, -, -, stored, -⟩ := inStash (oneAcc ▸ overfullState_inStash) rfl
  have after : memRead t.mem 128 = 1 := by
    have evaluated := memAfter_afadd
    rw [runs] at evaluated
    exact Option.some.inj evaluated
  rcases stored.mem 128 with kept | published
  · rw [after, overfullState_mem] at kept
    exact absurd kept (by decide)
  · have seen : overfullState.seen (clusterOf (coreOf 0)) 128 = 0 := overfullState_seen
    rw [after, seen] at published
    exact absurd published (by decide)

end Sys2Proof.Machine
end

section
/-! O9: the clause on a JOIN that merges does not ask that the fragments of the wave have disjoint masks (R132); the clause on one
that waits does. -/

namespace Sys2Proof.Machine

open Sys2Proof

/-- A fragment of lane 0 with no token, ready for 7 issue cycles. -/
def bystander : Frag := { freshFrag 1 (BitVec.ofNat 64 placeAt) 0 false with readyFor := 7 }

/-- A fragment of lane 0 too, the only one that holds token 0. -/
def joiner : Frag := freshFrag 1 (BitVec.ofNat 64 placeAt) 1 false

def sharedLaneWave : Wave := { placeWave with frags := [bystander, joiner] }

/-- The joiner issues. -/
def sharedLaneState : State := { State.reset with waves := [(0, sharedLaneWave)], cur := some (0, 1) }

/-- For how many cycles each fragment of wave 0 has been ready after an outcome. -/
def readyAfter : Out → Option (List Nat)
  | .next t => (Tab.find 0 t.waves).map fun w => w.frags.map Frag.readyFor
  | _ => none

/-- After JOIN 0 the first fragment that holds the lowest lane of the joiner counts as having issued: the bystander. -/
theorem readyAfter_join : readyAfter (exec (.join zeroFields) sharedLaneState) = some [0, 0] := by decide +kernel

/-- Refutes O9: its first clause has every fragment that waits at no JOIN as it was, and does not ask that the other fragments have
no lane of the issuing one (R132), as its third clause does. In `sharedLaneState` two fragments hold lane 0, and the model takes
the first of them for the one that goes on after the JOIN, so that the other one's count of cycles ready is cleared. -/
theorem not_joinsAndExits : ¬ Obligations.JoinsAndExits := by
  unfold Obligations.JoinsAndExits
  intro h
  obtain ⟨⟨meets, -⟩, -⟩ := h
  have tokenless : ∀ n g, n ≠ 1 ∧ sharedLaneWave.frags[n]? = some g ∧ sharedLaneWave.active g = true → g = bystander := by
    rintro n g ⟨hn, hg, -⟩
    match n with
    | 0 => exact (Option.some.inj hg).symm
    | 1 => exact absurd rfl hn
    | n + 2 => simp [sharedLaneWave] at hg
  have undue : ∀ g ∈ sharedLaneWave.frags, g.due.isSome = true →
      sharedLaneWave.faults = [] ∧ ∃ u nx, g.wait = .join u nx := by
    intro g hg
    have : g = bystander ∨ g = joiner := by simpa [sharedLaneWave] using hg
    rcases this with rfl | rfl <;> exact fun due => absurd due (by decide)
  obtain ⟨t, w', runs, -, found, -, -, stays, -⟩ := meets zeroFields (by decide) sharedLaneState 0 1 sharedLaneWave joiner
    ⟨rfl, rfl, rfl⟩ ⟨.inl (by decide), ⟨.inl rfl, .inl (by decide)⟩⟩ (.inl rfl)
    ⟨by decide, undue, fun n g other => by
      rw [tokenless n g other]
      exact ⟨fun holds => absurd holds (by decide), fun nx wait => by simp [bystander, freshFrag] at wait⟩⟩
  have kept : bystander ∈ w'.frags := stays 0 bystander (by decide) rfl fun u nx wait => by simp [bystander, freshFrag] at wait
  have ready : w'.frags.map Frag.readyFor = [0, 0] := by
    have evaluated := readyAfter_join
    rw [runs] at evaluated
    simpa [readyAfter, found] using evaluated
  have seven : (7 : Nat) ∈ [0, 0] := ready ▸ List.mem_map_of_mem (f := Frag.readyFor) kept
  exact absurd seven (by decide)

end Sys2Proof.Machine
end

section
/-! O2 to O6, instructions that write registers: what a well-formed instruction's fields obey, what register writes do to
bindings, and the completion of a body that writes one result in each enabled lane. -/

namespace Sys2Proof

/-! ### The field rules of a well-formed instruction (R41) -/

theorem XF.ok_iff (f : XF) (r : Rule) : f.ok r = true ↔
    f.litOk r = true ∧ (r.uni || !f.u) = true ∧ (if r.hint then f.h.toNat % 4 == 0 else f.h == 0) = true ∧
      (if r.guards then f.g.ok else f.g == Guard.none) = true ∧ f.t.toNat ∈ r.tys ∧ f.m.toNat ∈ r.ms ∧
      (r.imm || f.imm == 0) = true ∧ r.d.ok f.d = true ∧ r.a.ok f.a = true ∧ r.b.ok f.b = true ∧ r.c.ok f.c = true ∧
      r.e.ok f.e = true ∧ r.more = true := by
  simp only [XF.ok, Bool.and_eq_true, List.contains_iff_mem, and_assoc]

theorem XF.ok_type {f : XF} {r : Rule} (h : f.ok r = true) : f.t.toNat ∈ r.tys := by
  obtain ⟨-, -, -, -, ty, -⟩ := (f.ok_iff r).1 h
  exact ty

theorem XF.ok_d {f : XF} {r : Rule} (h : f.ok r = true) : r.d.ok f.d = true := by
  obtain ⟨-, -, -, -, -, -, -, d, -⟩ := (f.ok_iff r).1 h
  exact d

theorem XF.ok_e {f : XF} {r : Rule} (h : f.ok r = true) : r.e.ok f.e = true := by
  obtain ⟨-, -, -, -, -, -, -, -, -, -, -, e, -⟩ := (f.ok_iff r).1 h
  exact e

/-- Where the opcode takes no literal there is none (R30). -/
theorem XF.ok_lit {f : XF} {r : Rule} (h : f.ok r = true) (hr : r.lit = none) : f.lit = none := by
  obtain ⟨lit, -⟩ := (f.ok_iff r).1 h
  cases hl : f.lit with
  | none => rfl
  | some v => simp [XF.litOk, hl, hr] at lit

/-- A register field that holds a pair is even (R63). -/
theorem Use.ok_pair {r : BitVec 7} (h : (Use.val 2).ok r = true) : r.toNat % 2 = 0 := by simpa [Use.ok] using h

end Sys2Proof

namespace Sys2Proof.Machine

open Sys2Proof

/-- A well-formed instruction, as it runs, obeys the rule of its opcode. -/
theorem ok_of_wellFormed {j : Instr} {r : Rule} (hw : j.wellFormed = true)
    (hr : xRule (insOf j).op (insOf j).f = some r) : (insOf j).f.ok r = true := by
  have known : xOk (insOf j).op (insOf j).f = true := by
    unfold insOf at hr ⊢
    cases hf : j.form with
    | x op f => exact xOk_of_form hw hf
    | b op f =>
      have ok := bOk_of_form hw hf
      unfold bOk at ok
      cases hb : bRow op with
      | none => simp [hb] at ok
      | some row => simpa [Ins.ofB_of_row hb, hb] using ok
    | event =>
      rw [hf] at hr
      have : xRule 0 (Ins.ofX 0 ⟨none, false, false, 0, 0, 0, 0, 0, 0, 0, 0, Guard.none, 0⟩).f = none := rfl
      exact absurd (this.symm.trans hr) (by simp)
  simpa [xOk, hr] using known

/-! ### Register writes and bindings (R196) -/

theorem bindHasReg_setStale (b : Binding) (r : Nat) (frame : Bool) : bindHasReg (setStale b) r frame = bindHasReg b r frame := by
  have info : bindInfo (setStale b) = bindInfo b := by
    unfold bindInfo bits setStale
    congr 1
    ext i hi
    simp only [BitVec.getElem_extractLsb', BitVec.getLsbD_or]
    interval_cases i <;> simp
  have kind : bindKind (setStale b) = bindKind b := by
    unfold bindKind bits setStale
    congr 1
    ext i hi
    simp only [BitVec.getElem_extractLsb', BitVec.getLsbD_or]
    interval_cases i <;> simp
  simp only [bindHasReg, info, kind]

theorem setStale_setStale (b : Binding) : setStale (setStale b) = setStale b := by
  simp [setStale, BitVec.or_assoc]

theorem Wave.staleReg_bind (w : Wave) (r b : Nat) :
    (w.staleReg r).bind b = if bindHasReg (w.bind b) r w.landing.mode = true then setStale (w.bind b) else w.bind b := by
  have entries : (w.staleReg r).binds =
      w.binds.map fun e => (e.1, if bindHasReg e.2 r w.landing.mode = true then setStale e.2 else e.2) :=
    List.map_congr_left fun e _ => by split <;> rfl
  unfold Wave.bind Tab.getD
  rw [entries, Tab.find_map b fun _ v => if bindHasReg v r w.landing.mode = true then setStale v else v]
  cases Tab.find b w.binds with
  | none => simp [bindHasReg, bindKind, bits]
  | some v => rfl

/-- A binding is stale once one of the registers written is its own, and else as it was. -/
theorem foldl_staleReg_bind_iff (rs : List Nat) (w : Wave) (b : Nat) :
    (rs.foldl Wave.staleReg w).bind b =
      if ∃ r ∈ rs, bindHasReg (w.bind b) r w.landing.mode = true then setStale (w.bind b) else w.bind b := by
  induction rs generalizing w with
  | nil => simp
  | cons r rs ih =>
    rw [List.foldl_cons, ih (w.staleReg r), Wave.staleReg_bind, show (w.staleReg r).landing = w.landing from rfl]
    by_cases hr : bindHasReg (w.bind b) r w.landing.mode = true
    · simp only [hr, if_true, bindHasReg_setStale, setStale_setStale, ite_self, List.mem_cons, exists_eq_or_imp, true_or]
    · simp only [hr, Bool.false_eq_true, if_false, List.mem_cons, exists_eq_or_imp, false_or]

theorem Wave.writeRegs_bind_iff (ws : List RegW) (w : Wave) (b : Nat) :
    (w.writeRegs ws).bind b =
      if ∃ x ∈ ws, bindHasReg (w.bind b) x.1 w.landing.mode = true then setStale (w.bind b) else w.bind b := by
  have put := foldl_put_rest ws w
  have bind : (ws.foldl Wave.put w).bind b = w.bind b := by rw [put]; rfl
  have landing : (ws.foldl Wave.put w).landing = w.landing := by rw [put]
  unfold Wave.writeRegs
  rw [foldl_staleReg_bind_iff, bind, landing]
  have written : (∃ r ∈ writtenRegs ws, bindHasReg (w.bind b) r w.landing.mode = true) ↔
      ∃ x ∈ ws, bindHasReg (w.bind b) x.1 w.landing.mode = true := by simp [writtenRegs]
  simp only [written]

/-! ### The body that only writes registers -/

/-- The bindings after a body that only writes registers are those that the writes leave. -/
theorem runWave_regBody_bind {x : Ins} {s t : State} {k i : Nat} {w w' : Wave} {fr : Frag} (hi : Issues s k i w fr)
    (ha : Admits x w fr) (hu : Undisturbed x w) {g : Ctx → List RegW} (hr : runWave x (regBody g) s = .next t)
    (hw : Tab.find k t.waves = some w') (b : Nat) : w'.bind b = (w.writeRegs (g ⟨k, w, i, fr, x⟩)).bind b := by
  let c : Ctx := ⟨k, w, i, fr, x⟩
  let G : Wave → Wave := fun w => (w.writeRegs (g c)).setFrag i fun f =>
    if w.changes fr.mask (g c) = true then { f with spins := [], prio := 0 } else f
  have found : Tab.find k ((s.tick (coreOf k)).setWave k G).waves = some (G w) := by
    rw [State.setWave_find, if_pos rfl, State.tick_waves, hi.wave]; rfl
  have undisturbed : c.ins.f.p = false ∨ (G w).faults = [] ∨ (G w).handlerFlag = true := by
    simp only [G, Wave.setFrag_faults, Wave.setFrag_handlerFlag, Wave.writeRegs_faults, Wave.writeRegs_handlerFlag]
    exact hu
  obtain ⟨pk, after⟩ := (c.goOn_park c.after.1 c.after.2 _ found undisturbed).wave
  rw [runWave_admits hi ha] at hr
  cases hr
  cases Option.some.inj (hw.symm.trans after)
  rfl

/-- An instruction whose body writes registers of the file lane by lane does that and nothing else. -/
theorem writesRegs_of_regBody {j : Instr} {g : Ctx → List RegW} {ws : Ctx → Nat → List (Nat × Word)}
    (run : ∀ s, exec j s = runWave (insOf j) (regBody g) s)
    (writes : ∀ k i w fr, g (ctxOf j k i w fr) = laneWrites (ctxOf j k i w fr) (ws (ctxOf j k i w fr)))
    (named : j.wellFormed = true → ∀ k i w fr, ∀ x ∈ g (ctxOf j k i w fr), x.1 < 128) : WritesRegs j ws := by
  intro hw s k i w fr hi ha hu _
  let c := ctxOf j k i w fr
  have mem (x : RegW) : x ∈ g c ↔ ∃ l ∈ c.lanes, ∃ y ∈ ws c l, (y.1, l, y.2) = x := by
    simp only [c, writes k i w fr, laneWrites, List.mem_flatMap, List.mem_map]
  let enabled := fun l => if l ∈ c.lanes then ws c l else []
  have same : laneWrites c (ws c) = laneWrites c enabled :=
    List.flatMap_congr fun l hl => by simp only [enabled, if_pos hl]
  obtain ⟨t, w', fr', hr, kept, found, wave, frag, goes, regs, -⟩ :=
    runWave_regBody hi ha hu enabled ((writes k i w fr).trans same) fun l y hy => by
      by_cases hl : l ∈ c.lanes
      · simp only [enabled, if_pos hl] at hy
        exact named hw k i w fr _ ((mem _).2 ⟨l, hl, y, hy, rfl⟩)
      · simp [enabled, hl] at hy
  refine ⟨t, w', (run s).trans hr, kept, found, wave, ⟨fr', frag, goes⟩, fun r l hr hl => ?_, fun b => ?_⟩
  · refine (regs r l hr hl).trans ?_
    by_cases hl : l ∈ c.lanes
    · simp only [enabled, if_pos hl]
      rfl
    · exact (if_neg hl).trans (if_neg hl).symm
  · have stale : (∃ x ∈ g c, bindHasReg (w.bind b) x.1 w.landing.mode = true) ↔ BindsOver ws c (w.bind b) := by
      simp only [mem]
      constructor
      · rintro ⟨-, ⟨l, hl, x, hx, rfl⟩, has⟩; exact ⟨l, hl, x, hx, has⟩
      · rintro ⟨l, hl, x, hx, has⟩; exact ⟨_, ⟨l, hl, x, hx, rfl⟩, has⟩
    have after : w'.bind b = _ := (runWave_regBody_bind hi ha hu hr found b).trans (Wave.writeRegs_bind_iff _ w b)
    exact ⟨fun h => after.trans (if_pos (stale.2 h)), fun h => after.trans (if_neg (mt stale.1 h))⟩

/-! ### One result in each enabled lane -/

theorem wrVal_eq (n r l v : Nat) : wrVal n r l v = (valueIn n r v).map fun x => ((x.1, l, x.2) : RegW) := by
  unfold wrVal valueIn; split <;> rfl

/-- A value of one or two words is written by its bits alone. -/
theorem valueIn_congr {n r v v' : Nat} (hn : n = 1 ∨ n = 2) (h : BitVec.ofNat (32 * n) v = BitVec.ofNat (32 * n) v') :
    valueIn n r v = valueIn n r v' := by
  have mod : v % 2 ^ (32 * n) = v' % 2 ^ (32 * n) := by simpa using congrArg BitVec.toNat h
  rcases hn with rfl | rfl
  · have low : BitVec.ofNat 32 v = BitVec.ofNat 32 v' := by bv_omega
    simp [valueIn, low]
  · have low : BitVec.ofNat 32 v = BitVec.ofNat 32 v' := BitVec.eq_of_toNat_eq (by simp; omega)
    have high : BitVec.ofNat 32 (v / 2 ^ 32) = BitVec.ofNat 32 (v' / 2 ^ 32) := BitVec.eq_of_toNat_eq (by simp; omega)
    simp only [valueIn, low, high]

theorem valueIn_of_bits {n r v : Nat} (hn : n = 1 ∨ n = 2) {x : BitVec (32 * n)} (h : BitVec.ofNat (32 * n) v = x) :
    valueIn n r v = valueIn n r x.toNat :=
  valueIn_congr hn (h.trans (by simp))

theorem wrVal_lt {n l v : Nat} {r : BitVec 7} (h : n = 1 ∨ n = 2 ∧ r.toNat % 2 = 0) :
    ∀ x ∈ wrVal n r.toNat l v, x.1 < 128 := by
  have := r.isLt
  unfold wrVal
  rcases h with rfl | ⟨rfl, even⟩ <;> simp <;> omega

theorem tyWords_cases (t : BitVec 3) : tyWords t = 1 ∨ tyWords t = 2 := by unfold tyWords; split <;> simp

/-- The registers of a field that holds a value of the instruction's type are in the file (R63). -/
theorem named_of_ok {t : BitVec 3} {r : BitVec 7} (h : (Use.val (tyWords t)).ok r = true) :
    tyWords t = 1 ∨ tyWords t = 2 ∧ r.toNat % 2 = 0 := by
  rcases tyWords_cases t with one | two
  · exact .inl one
  · exact .inr ⟨two, Use.ok_pair (two ▸ h)⟩

/-- An instruction whose body computes a value of one or two words in each enabled lane, for a register of the file. -/
theorem resultInD_of_laneBody {j : Instr} {n : Ctx → Nat} {g v : Ctx → Nat → Nat}
    (run : ∀ s, exec j s = runWave (insOf j) (laneBody n g) s)
    (dest : j.wellFormed = true → ∀ k i w fr, n (ctxOf j k i w fr) = 1 ∨
      n (ctxOf j k i w fr) = 2 ∧ (insOf j).f.d.toNat % 2 = 0)
    (value : j.wellFormed = true → ∀ k i w fr l, BitVec.ofNat (32 * n (ctxOf j k i w fr)) (g (ctxOf j k i w fr) l) =
      BitVec.ofNat (32 * n (ctxOf j k i w fr)) (v (ctxOf j k i w fr) l)) : ResultInD j n v := by
  intro hw
  refine writesRegs_of_regBody run (fun k i w fr => List.flatMap_congr fun l _ => ?_) (fun hw k i w fr x hx => ?_) hw
  · rw [wrVal_eq]
    exact congrArg _ (valueIn_congr ((dest hw k i w fr).imp_right And.left) (value hw k i w fr _))
  · obtain ⟨l, -, hx⟩ := List.mem_flatMap.1 hx
    exact wrVal_lt (dest hw k i w fr) x hx

/-- An instruction whose body computes one value of its type: operands and value as bit patterns. -/
theorem typedResult_of_laneBody {j : Instr} {r : Rule} {g : Ctx → Nat → Nat}
    {v : (c : Ctx) → Nat → BitVec (32 * typeWords c)}
    (run : ∀ s, exec j s = runWave (insOf j) (laneBody words g) s)
    (rule : xRule (insOf j).op (insOf j).f = some r ∧ r.d = .val (tyWords (insOf j).f.t))
    (value : j.wellFormed = true → ∀ k i w fr l, BitVec.ofNat _ (g (ctxOf j k i w fr) l) = v (ctxOf j k i w fr) l) :
    TypedResult j v :=
  resultInD_of_laneBody run (fun hw _ _ _ _ => named_of_ok (rule.2 ▸ XF.ok_d (ok_of_wellFormed hw rule.1))) fun hw k i w fr l =>
    (value hw k i w fr l).trans (by simp)

/-- The same where the value needs no rule of the fields. -/
theorem typedResult_of_value {j : Instr} {r : Rule} {g : Ctx → Nat → Nat} {v : (c : Ctx) → Nat → BitVec (32 * typeWords c)}
    (run : ∀ s, exec j s = runWave (insOf j) (laneBody words g) s)
    (rule : xRule (insOf j).op (insOf j).f = some r ∧ r.d = .val (tyWords (insOf j).f.t))
    (value : ∀ c l, BitVec.ofNat _ (g c l) = v c l) : TypedResult j v :=
  typedResult_of_laneBody run rule fun _ _ _ _ _ => value _

/-- An instruction whose body computes one value of a single register. -/
theorem wordResult_of_laneBody {j : Instr} {g v : Ctx → Nat → Nat}
    (run : ∀ s, exec j s = runWave (insOf j) (laneBody (fun _ => 1) g) s)
    (value : j.wellFormed = true → ∀ k i w fr l, BitVec.ofNat 32 (g (ctxOf j k i w fr) l) =
      BitVec.ofNat 32 (v (ctxOf j k i w fr) l)) : ResultInD j (fun _ => 1) v :=
  resultInD_of_laneBody run (fun _ _ _ _ _ => .inl rfl) value

/-! ### Operands as bit patterns (R62, R145) -/

theorem Wave.val_lt (w : Wave) {n : Nat} (hn : n = 1 ∨ n = 2) (r l : Nat) : w.val n r l < 2 ^ (32 * n) := by
  unfold Wave.val
  rcases hn with rfl | rfl
  · exact (w.reg r l).isLt
  · exact (w.pair r l).isLt

theorem wrap_lt (n : Nat) (z : Int) : wrap n z < 2 ^ n := by
  have : 0 ≤ z % 2 ^ n := Int.emod_nonneg _ (by positivity)
  have : z % 2 ^ n < 2 ^ n := Int.emod_lt_of_pos _ (by positivity)
  unfold wrap
  zify
  rwa [Int.toNat_of_nonneg ‹_›]

theorem Ctx.opB_lt (c : Ctx) {n : Nat} (hn : n = 1 ∨ n = 2) (l : Nat) : c.opB n l < 2 ^ (32 * n) := by
  unfold Ctx.opB
  split
  · exact Nat.mod_lt _ (by positivity)
  · split
    · exact wrap_lt ..
    · exact c.w.val_lt hn _ _

theorem Ctx.opA_eq (c : Ctx) (l : Nat) : c.opA (words c) l = (c.bitsA l).toNat :=
  (BitVec.toNat_ofNat _ _ ▸ Nat.mod_eq_of_lt (c.w.val_lt (tyWords_cases _) _ _)).symm

theorem Ctx.opB_eq (c : Ctx) (l : Nat) : c.opB (words c) l = (c.bitsB l).toNat :=
  (BitVec.toNat_ofNat _ _ ▸ Nat.mod_eq_of_lt (c.opB_lt (tyWords_cases _) l)).symm

theorem Ctx.opC_eq (c : Ctx) (l : Nat) : c.opC (words c) l = (c.bitsC l).toNat :=
  (BitVec.toNat_ofNat _ _ ▸ Nat.mod_eq_of_lt (c.w.val_lt (tyWords_cases _) _ _)).symm

theorem Ctx.opA_word (c : Ctx) (l : Nat) : c.opA 1 l = (c.w.reg c.f.a.toNat l).toNat := rfl

theorem Ctx.opC_word (c : Ctx) (l : Nat) : c.opC 1 l = (c.w.reg c.f.c.toNat l).toNat := rfl

/-- The signed reading of a number of n bits is that of its bit pattern. -/
theorem toSigned_toNat {n : Nat} (a : BitVec n) : toSigned n a.toNat = a.toInt := by
  have := a.isLt
  unfold toSigned
  rw [Nat.mod_eq_of_lt this, BitVec.toInt_eq_toNat_cond]
  cases n with
  | zero => simp [BitVec.eq_nil a]
  | succ n =>
    rw [Nat.add_sub_cancel, Nat.pow_succ]
    have half : a.toNat < 2 ^ n ↔ 2 * a.toNat < 2 ^ n * 2 := by omega
    simp [half, pow_succ]

/-- Bit 0 of a word, as a number. -/
theorem toNat_mod_two {n : Nat} (x : BitVec n) : x.toNat % 2 = if x.getLsbD 0 then 1 else 0 := by
  rw [BitVec.getLsbD, Nat.testBit_zero]
  rcases Nat.mod_two_eq_zero_or_one x.toNat with h | h <;> simp [h]

/-- The number that a bit pattern is under the instruction's type: signed for .i types (R145). -/
def typeInt {n : Nat} (signed : Bool) (a : BitVec n) : Int := if signed then a.toInt else a.toNat

theorem Ctx.num_toNat (c : Ctx) (a : BitVec (32 * typeWords c)) : c.num a.toNat = typeInt (tySigned c.f.t) a := by
  have : a.toNat % 2 ^ (32 * typeWords c) = a.toNat := Nat.mod_eq_of_lt a.isLt
  unfold Ctx.num tyRead typeInt
  split
  · exact toSigned_toNat a
  · exact congrArg Int.ofNat this

end Sys2Proof.Machine
end

section
/-! O2, integer arithmetic: each operation of the model on numbers is the operation on bit patterns of the type's width. -/

namespace Sys2Proof.Machine

open Sys2Proof

/-! ### Operations on numbers as operations on bit patterns (R62, R147) -/

section
variable {n : Nat} (a b c : BitVec n)

theorem wrap_add : BitVec.ofNat n (wrap n (a.toNat + b.toNat : Int)) = a + b := by
  rw [ofNat_wrap, BitVec.ofInt_add, BitVec.ofInt_natCast, BitVec.ofInt_natCast]
  simp

theorem wrap_sub : BitVec.ofNat n (wrap n (a.toNat - b.toNat : Int)) = a - b := by
  rw [ofNat_wrap, sub_eq_add_neg, BitVec.ofInt_add, BitVec.ofInt_neg, BitVec.ofInt_natCast, BitVec.ofInt_natCast]
  simp [BitVec.sub_eq_add_neg]

theorem wrap_neg : BitVec.ofNat n (wrap n (0 - a.toNat : Int)) = 0 - a := by
  simpa using wrap_sub 0 a

theorem wrap_mul : BitVec.ofNat n (wrap n (a.toNat * b.toNat : Int)) = a * b := by
  rw [ofNat_wrap, BitVec.ofInt_mul, BitVec.ofInt_natCast, BitVec.ofInt_natCast]
  simp

theorem wrap_mul_add : BitVec.ofNat n (wrap n (a.toNat * b.toNat + c.toNat : Int)) = a * b + c := by
  rw [ofNat_wrap, BitVec.ofInt_add, ← ofNat_wrap, wrap_mul, BitVec.ofInt_natCast]
  simp

theorem wrap_abs : BitVec.ofNat n (wrap n (if a.toInt < 0 then 0 - a.toInt else a.toInt)) = if a.slt 0 then 0 - a else a := by
  have sign : a.slt 0 = decide (a.toInt < 0) := by simp [BitVec.slt]
  rw [sign, ofNat_wrap]
  by_cases h : a.toInt < 0
  · simp [h, BitVec.ofInt_neg]
  · simp [h]

/-- The order of the numbers of a type is the signed or the unsigned order of the bit patterns. -/
theorem typeInt_le (signed : Bool) : typeInt signed a ≤ typeInt signed b ↔ (if signed then a.sle b else a.ule b) = true := by
  cases signed
  · simp [typeInt, BitVec.ule]
  · simp [typeInt, BitVec.sle]

theorem wrap_typeInt (signed : Bool) : BitVec.ofNat n (wrap n (typeInt signed a)) = a := by
  rw [ofNat_wrap]
  cases signed
  · simp [typeInt]
  · simp [typeInt]

/-- The lesser of two numbers is the number of one of the two, and so is the greater. -/
theorem min_typeInt (signed : Bool) :
    min (typeInt signed a) (typeInt signed b) = typeInt signed (if (if signed then a.sle b else a.ule b) then a else b) := by
  by_cases le : typeInt signed a ≤ typeInt signed b
  · rw [if_pos ((typeInt_le a b signed).1 le), min_eq_left le]
  · rw [if_neg (mt (typeInt_le a b signed).2 le), min_eq_right (le_of_not_ge le)]

theorem max_typeInt (signed : Bool) :
    max (typeInt signed a) (typeInt signed b) = typeInt signed (if (if signed then b.sle a else b.ule a) then a else b) := by
  by_cases le : typeInt signed b ≤ typeInt signed a
  · rw [if_pos ((typeInt_le b a signed).1 le), max_eq_left le]
  · rw [if_neg (mt (typeInt_le b a signed).2 le), max_eq_right (le_of_not_ge le)]

end

/-! ### The bodies -/

section
variable (c : Ctx) (l : Nat)

theorem iadd_value : BitVec.ofNat _ (wrap (bitsOf c) (c.opA (words c) l + c.opB (words c) l : Int)) = c.bitsA l + c.bitsB l := by
  rw [c.opA_eq, c.opB_eq]; exact wrap_add ..

theorem isub_value : BitVec.ofNat _ (wrap (bitsOf c) (c.opA (words c) l - c.opB (words c) l : Int)) = c.bitsA l - c.bitsB l := by
  rw [c.opA_eq, c.opB_eq]; exact wrap_sub ..

theorem ineg_value : BitVec.ofNat _ (wrap (bitsOf c) (0 - c.opA (words c) l : Int)) = 0 - c.bitsA l := by
  rw [c.opA_eq]; exact wrap_neg _

theorem iabs_value :
    BitVec.ofNat _ (let a := toSigned (bitsOf c) (c.opA (words c) l); wrap (bitsOf c) (if a < 0 then 0 - a else a)) =
      if (c.bitsA l).slt 0 then 0 - c.bitsA l else c.bitsA l := by
  dsimp only
  rw [c.opA_eq, show toSigned (bitsOf c) _ = _ from toSigned_toNat (c.bitsA l)]
  exact wrap_abs _

theorem imul_value : BitVec.ofNat _ (wrap (bitsOf c) (c.opA (words c) l * c.opB (words c) l : Int)) = c.bitsA l * c.bitsB l := by
  rw [c.opA_eq, c.opB_eq]; exact wrap_mul ..

/-- The high half of the exact product. -/
theorem imulh_value :
    BitVec.ofNat _ (wrap (bitsOf c) ((c.num (c.opA (words c) l) * c.num (c.opB (words c) l)) / (2 ^ bitsOf c : Int))) =
      if tySigned c.f.t then BitVec.ofInt (32 * typeWords c) ((c.bitsA l).toInt * (c.bitsB l).toInt / 2 ^ (32 * typeWords c))
      else BitVec.ofNat _ ((c.bitsA l).toNat * (c.bitsB l).toNat / 2 ^ (32 * typeWords c)) := by
  rw [c.opA_eq, c.opB_eq, c.num_toNat, c.num_toNat]
  refine (ofNat_wrap (32 * typeWords c) _).trans ?_
  unfold typeInt
  split
  · rfl
  · rw [← BitVec.ofInt_natCast]
    congr 1

theorem imad_value :
    BitVec.ofNat _ (wrap (bitsOf c) (c.opA (words c) l * c.opB (words c) l + c.opC (words c) l : Int)) =
      c.bitsA l * c.bitsB l + c.bitsC l := by
  rw [c.opA_eq, c.opB_eq, c.opC_eq]; exact wrap_mul_add ..

theorem icsadd_value :
    BitVec.ofNat _ (let a : Int := c.opA (words c) l
        let b : Int := c.opB (words c) l
        let t := toSigned 32 (c.opC 1 l)
        wrap (bitsOf c) (if 0 < t then a + b else if t < 0 then a - b else a)) =
      let t := (c.w.reg c.f.c.toNat l).toInt
      if 0 < t then c.bitsA l + c.bitsB l else if t < 0 then c.bitsA l - c.bitsB l else c.bitsA l := by
  dsimp only
  rw [c.opA_eq, c.opB_eq, c.opC_word, toSigned_toNat]
  split
  · exact wrap_add ..
  · split
    · exact wrap_sub ..
    · exact wrap_typeInt (c.bitsA l) false

theorem imin_value :
    BitVec.ofNat _ (if c.num (c.opA (words c) l) ≤ c.num (c.opB (words c) l) then c.opA (words c) l else c.opB (words c) l) =
      if (if tySigned c.f.t then (c.bitsA l).sle (c.bitsB l) else (c.bitsA l).ule (c.bitsB l)) then c.bitsA l else c.bitsB l := by
  rw [c.opA_eq, c.opB_eq, c.num_toNat, c.num_toNat, apply_ite (BitVec.ofNat _)]
  simp only [BitVec.ofNat_toNat, BitVec.setWidth_eq, typeInt_le]

theorem imax_value :
    BitVec.ofNat _ (if c.num (c.opB (words c) l) ≤ c.num (c.opA (words c) l) then c.opA (words c) l else c.opB (words c) l) =
      if (if tySigned c.f.t then (c.bitsB l).sle (c.bitsA l) else (c.bitsB l).ule (c.bitsA l)) then c.bitsA l else c.bitsB l := by
  rw [c.opA_eq, c.opB_eq, c.num_toNat, c.num_toNat, apply_ite (BitVec.ofNat _)]
  simp only [BitVec.ofNat_toNat, BitVec.setWidth_eq, typeInt_le]

theorem iclamp_value :
    BitVec.ofNat _ (wrap (bitsOf c)
        (min (max (c.num (c.opA (words c) l)) (c.num (c.opB (words c) l))) (c.num (c.opC (words c) l)))) =
      let le := fun (a b : BitVec (32 * typeWords c)) => if tySigned c.f.t then a.sle b else a.ule b
      let low := if le (c.bitsB l) (c.bitsA l) then c.bitsA l else c.bitsB l
      if le low (c.bitsC l) then low else c.bitsC l := by
  rw [c.opA_eq, c.opB_eq, c.opC_eq, c.num_toNat, c.num_toNat, c.num_toNat, max_typeInt, min_typeInt]
  exact wrap_typeInt ..

end

/-! ### Saturation (R62, R151) -/

/-- The least value of each type that ISAT saturates to. -/
def satLow (t : Nat) : Int := match t with | 0 => -128 | 1 => -32768 | 2 => -2147483648 | _ => 0

/-- The greatest value of each type that ISAT saturates to. -/
def satHigh (t : Nat) : Int :=
  match t with | 0 => 127 | 1 => 32767 | 2 => 2147483647 | 4 => 255 | 5 => 65535 | _ => 4294967295

theorem tyMin_eq : ∀ t : BitVec 3, t.toNat ∈ [0, 1, 2, 4, 5, 6] → tyMin t = satLow t.toNat := by decide

theorem tyMax_eq : ∀ t : BitVec 3, t.toNat ∈ [0, 1, 2, 4, 5, 6] → tyMax t = satHigh t.toNat := by decide

theorem satLow_le_satHigh : ∀ t : BitVec 3, satLow t.toNat ≤ satHigh t.toNat := by decide

theorem clampI_eq {lo hi : Int} (h : lo ≤ hi) (z : Int) : clampI lo hi z = max lo (min z hi) := by
  unfold clampI
  split
  · omega
  · split <;> omega

theorem isat_value (c : Ctx) (l : Nat) (h : c.f.t.toNat ∈ [0, 1, 2, 4, 5, 6]) :
    BitVec.ofNat 32 (let v : Int := if c.f.m = 1 then (c.opA 1 l : Int) else toSigned 32 (c.opA 1 l)
        wrap 32 (clampI (tyMin c.f.t) (tyMax c.f.t) v)) =
      let v : Int := if c.f.m = 1 then ((c.w.reg c.f.a.toNat l).toNat : Int) else (c.w.reg c.f.a.toNat l).toInt
      BitVec.ofNat 32 (BitVec.ofInt 32 (max (satLow c.f.t.toNat) (min v (satHigh c.f.t.toNat)))).toNat := by
  dsimp only
  rw [c.opA_word, toSigned_toNat, tyMin_eq _ h, tyMax_eq _ h, clampI_eq (satLow_le_satHigh _), ofNat_wrap, BitVec.ofNat_toNat,
    BitVec.setWidth_eq]

/-- Settles O2: every instruction of the family is one body in one lane, and the body's value is the one stated. -/
theorem integerArithmeticResults : Obligations.IntegerArithmeticResults := by
  refine ⟨⟨?_, ?_, ?_, ?_, ?_, ?_, ?_, ?_, ?_, ?_, ?_, ?_⟩, ⟨?_, ?_, ?_, ?_, ?_, ?_, ?_, ?_⟩,
    ⟨?_, ?_, ?_, ?_, ?_, ?_, ?_, ?_, ?_, ?_⟩⟩
  -- IADD, ISUB, INEG, IABS
  iterate 4 exact fun f => typedResult_of_value (fun _ => rfl) ⟨rfl, rfl⟩ iadd_value
  iterate 4 exact fun f => typedResult_of_value (fun _ => rfl) ⟨rfl, rfl⟩ isub_value
  iterate 2 exact fun f => typedResult_of_value (fun _ => rfl) ⟨rfl, rfl⟩ ineg_value
  iterate 2 exact fun f => typedResult_of_value (fun _ => rfl) ⟨rfl, rfl⟩ iabs_value
  -- IMUL, IMULH, IMAD, ICSADD
  iterate 4 exact fun f => typedResult_of_value (fun _ => rfl) ⟨rfl, rfl⟩ imul_value
  iterate 2 exact fun f => typedResult_of_value (fun _ => rfl) ⟨rfl, rfl⟩ imulh_value
  · exact fun f => typedResult_of_value (fun _ => rfl) ⟨rfl, rfl⟩ imad_value
  · exact fun f => typedResult_of_value (fun _ => rfl) ⟨rfl, rfl⟩ icsadd_value
  -- IMIN, IMAX, ICLAMP, ISAT
  iterate 4 exact fun f => typedResult_of_value (fun _ => rfl) ⟨rfl, rfl⟩ imin_value
  iterate 4 exact fun f => typedResult_of_value (fun _ => rfl) ⟨rfl, rfl⟩ imax_value
  · exact fun f => typedResult_of_value (fun _ => rfl) ⟨rfl, rfl⟩ iclamp_value
  · exact fun f => wordResult_of_laneBody (fun _ => rfl) fun hw _ _ _ _ l =>
      isat_value _ l (XF.ok_type (ok_of_wellFormed (j := .isat f) hw rfl))

end Sys2Proof.Machine
end

section
/-! O3, carry chains and division: two results in each enabled lane, written one after the other. -/

namespace Sys2Proof.Machine

open Sys2Proof

/-! ### Two results in each enabled lane -/

/-- Two values written to two fields of a lane, the second after the first. -/
theorem wrVal_append (n m r q l u v : Nat) :
    wrVal n r l u ++ wrVal m q l v = (valueIn n r u ++ valueIn m q v).map fun x => ((x.1, l, x.2) : RegW) := by
  rw [wrVal_eq, wrVal_eq, List.map_append]

/-! ### Carry and borrow (R148) -/

section
variable {n : Nat} (a b : BitVec n) (cin : Nat)

/-- The sum written is the sum modulo 2^n. -/
theorem wrap_carry : BitVec.ofNat n (wrap n (a.toNat + b.toNat + cin : Int)) =
    BitVec.ofNat n ((a.toNat + b.toNat + cin) % 2 ^ n) := by
  rw [ofNat_wrap, ← Nat.cast_add, ← Nat.cast_add, BitVec.ofInt_natCast]
  apply BitVec.eq_of_toNat_eq
  simp

theorem wrap_borrow : BitVec.ofNat n (wrap n (a.toNat - b.toNat - cin : Int)) = a - b - BitVec.ofNat n cin := by
  rw [ofNat_wrap, sub_eq_add_neg, BitVec.ofInt_add, BitVec.ofInt_neg, ← ofNat_wrap n (_ - _), wrap_sub, BitVec.ofInt_natCast]
  simp [BitVec.sub_eq_add_neg]

end

/-- An instruction of the carry chains: a value of its type to D, then the carry or borrow word to E. -/
theorem writesRegs_of_carryBody {j : Instr} {r : Rule} {g : Nat → Nat → Nat → Nat → Nat × Nat}
    {ws : Ctx → Nat → List (Nat × Word)} (run : ∀ s, exec j s = runWave (insOf j) (carryBody g) s)
    (rule : xRule (insOf j).op (insOf j).f = some r ∧ r.d = .val (tyWords (insOf j).f.t))
    (result : ∀ k i w fr l, let c := ctxOf j k i w fr
      let m := c.src l
      let x := g (bitsOf c) (c.opA (words c) m) (c.opB (words c) m) (c.opC 1 m % 2)
      valueIn (words c) c.f.d.toNat x.1 ++ [(c.f.e.toNat, BitVec.ofNat 32 x.2)] = ws c l) :
    WritesRegs j ws := by
  refine writesRegs_of_regBody run (fun k i w fr => List.flatMap_congr fun l _ => ?_) fun hw k i w fr x hx => ?_
  · exact (wrVal_append ..).trans (congrArg _ (result k i w fr l))
  · obtain ⟨l, -, hx⟩ := List.mem_flatMap.1 hx
    rcases List.mem_append.1 hx with hx | hx
    · exact wrVal_lt (named_of_ok (rule.2 ▸ XF.ok_d (ok_of_wellFormed hw rule.1))) x hx
    · exact wrVal_lt (.inl rfl) x hx

/-- The carry-in of a lane, bit 0 of vC. -/
def carryIn (c : Ctx) (m : Nat) : Nat := if (c.w.reg c.f.c.toNat m).getLsbD 0 then 1 else 0

theorem carryIn_eq (c : Ctx) (m : Nat) : c.opC 1 m % 2 = carryIn c m := toNat_mod_two _

theorem ofNat_ite_word (p : Prop) [Decidable p] : BitVec.ofNat 32 (if p then 1 else 0) = if p then 1 else 0 := by
  split <;> rfl

theorem iaddc_writes (c : Ctx) (m : Nat) :
    valueIn (words c) c.f.d.toNat
        (wrap (bitsOf c) (c.opA (words c) m + c.opB (words c) m + (c.opC 1 m % 2 : Nat) : Int)) ++
        [(c.f.e.toNat, BitVec.ofNat 32 (carryOf (bitsOf c) (c.opA (words c) m) (c.opB (words c) m) (c.opC 1 m % 2)))] =
      let t := (c.bitsA m).toNat + (c.bitsB m).toNat + carryIn c m
      valueIn (typeWords c) c.f.d.toNat (t % 2 ^ (32 * typeWords c)) ++
        [(c.f.e.toNat, if 2 ^ (32 * typeWords c) ≤ t then 1 else 0)] := by
  rw [c.opA_eq, c.opB_eq, carryIn_eq]
  exact congrArg₂ _ (valueIn_congr (tyWords_cases _) (wrap_carry ..)) (congrArg (fun x => [(_, x)]) (ofNat_ite_word _))

theorem isubb_writes (c : Ctx) (m : Nat) :
    valueIn (words c) c.f.d.toNat
        (wrap (bitsOf c) (c.opA (words c) m - c.opB (words c) m - (c.opC 1 m % 2 : Nat) : Int)) ++
        [(c.f.e.toNat, BitVec.ofNat 32 (borrowOf (c.opA (words c) m) (c.opB (words c) m) (c.opC 1 m % 2)))] =
      valueIn (typeWords c) c.f.d.toNat (c.bitsA m - c.bitsB m - BitVec.ofNat _ (carryIn c m)).toNat ++
        [(c.f.e.toNat, if (c.bitsA m).toNat < (c.bitsB m).toNat + carryIn c m then 1 else 0)] := by
  rw [c.opA_eq, c.opB_eq, carryIn_eq]
  exact congrArg₂ _ (valueIn_of_bits (tyWords_cases _) (wrap_borrow ..))
    (congrArg (fun x => [(_, x)]) (ofNat_ite_word _))

/-! ### Division (R150) -/

section
variable {n : Nat} (a b : BitVec n)

theorem divRem_zero (signed : Bool) : divRem signed n a.toNat (0 : BitVec n).toNat = (2 ^ n - 1, a.toNat) := by
  have zero : toSigned n 0 = 0 := by simp [toSigned]
  cases signed <;> simp [divRem, zero]

/-- The quotient truncated toward zero and its remainder, signed. -/
theorem divRem_signed (h : b ≠ 0) :
    BitVec.ofNat n (divRem true n a.toNat b.toNat).1 = a.sdiv b ∧
      BitVec.ofNat n (divRem true n a.toNat b.toNat).2 = a.srem b := by
  have nonzero : b.toInt ≠ 0 := fun h0 => h (BitVec.eq_of_toInt_eq (by simpa using h0))
  have rem : a.toInt - a.toInt.tdiv b.toInt * b.toInt = a.toInt.tmod b.toInt := by
    rw [Int.tmod_def, Int.mul_comm]
  simp only [divRem, if_true, toSigned_toNat, if_neg nonzero, ofNat_wrap, rem]
  constructor
  · apply BitVec.eq_of_toInt_eq
    rw [BitVec.toInt_ofInt, BitVec.toInt_sdiv]
  · apply BitVec.eq_of_toInt_eq
    rw [← BitVec.toInt_srem, BitVec.ofInt_toInt]

theorem divRem_unsigned (h : b ≠ 0) :
    BitVec.ofNat n (divRem false n a.toNat b.toNat).1 = a / b ∧ BitVec.ofNat n (divRem false n a.toNat b.toNat).2 = a % b := by
  have nonzero : (b.toNat : Int) ≠ 0 := fun h0 => h (BitVec.eq_of_toNat_eq (by simpa using h0))
  have rem : (a.toNat : Int) - (a.toNat : Int).tdiv b.toNat * b.toNat = (a.toNat % b.toNat : Nat) := by
    rw [Int.mul_comm, ← Int.tmod_def]; rfl
  simp only [divRem, Bool.false_eq_true, if_false, if_neg nonzero, ofNat_wrap, rem]
  constructor
  · apply BitVec.eq_of_toNat_eq
    rw [← Int.ofNat_tdiv, BitVec.ofInt_natCast]
    simp [Nat.mod_eq_of_lt (Nat.lt_of_le_of_lt (Nat.div_le_self _ _) a.isLt)]
  · apply BitVec.eq_of_toNat_eq
    rw [BitVec.ofInt_natCast]
    simp [Nat.mod_eq_of_lt (Nat.lt_of_le_of_lt (Nat.mod_le _ _) a.isLt)]

/-- The quotient of R150. -/
def quotient (signed : Bool) : BitVec n := if b = 0 then BitVec.allOnes n else if signed then a.sdiv b else a / b

/-- The remainder of R150. -/
def remainder (signed : Bool) : BitVec n := if b = 0 then a else if signed then a.srem b else a % b

theorem divRem_eq (signed : Bool) :
    BitVec.ofNat n (divRem signed n a.toNat b.toNat).1 = quotient a b signed ∧
      BitVec.ofNat n (divRem signed n a.toNat b.toNat).2 = remainder a b signed := by
  unfold quotient remainder
  by_cases h : b = 0
  · subst h
    rw [divRem_zero, if_pos rfl, if_pos rfl]
    exact ⟨BitVec.eq_of_toNat_eq (by simp), by simp⟩
  · rw [if_neg h, if_neg h]
    cases signed
    · exact divRem_unsigned a b h
    · exact divRem_signed a b h

end

/-- Two values of the instruction's type, to D and then to E. -/
theorem idiv_writes (c : Ctx) (m : Nat) :
    let qr := divRem (tySigned c.f.t) (bitsOf c) (c.opA (words c) m) (c.opB (words c) m)
    valueIn (words c) c.f.d.toNat qr.1 ++ valueIn (words c) c.f.e.toNat qr.2 =
      valueIn (typeWords c) c.f.d.toNat (quotient (c.bitsA m) (c.bitsB m) (tySigned c.f.t)).toNat ++
        valueIn (typeWords c) c.f.e.toNat (remainder (c.bitsA m) (c.bitsB m) (tySigned c.f.t)).toNat := by
  obtain ⟨quot, rem⟩ := divRem_eq (c.bitsA m) (c.bitsB m) (tySigned c.f.t)
  rw [c.opA_eq, c.opB_eq]
  exact congrArg₂ _ (valueIn_of_bits (tyWords_cases _) quot)
    (valueIn_of_bits (tyWords_cases _) rem)

theorem idiv_writesRegs (f : XF) : WritesRegs (.idiv f) fun c l =>
    valueIn (typeWords c) f.d.toNat (quotient (c.bitsA (c.src l)) (c.bitsB (c.src l)) (tySigned f.t)).toNat ++
      valueIn (typeWords c) f.e.toNat (remainder (c.bitsA (c.src l)) (c.bitsB (c.src l)) (tySigned f.t)).toNat := by
  refine writesRegs_of_regBody (fun _ => rfl) (fun k i w fr => List.flatMap_congr fun l _ => ?_) fun hw k i w fr x hx => ?_
  · exact (wrVal_append ..).trans (congrArg _ (idiv_writes (ctxOf (.idiv f) k i w fr) _))
  · have ok : f.ok _ = true := ok_of_wellFormed (j := .idiv f) hw rfl
    obtain ⟨l, -, hx⟩ := List.mem_flatMap.1 hx
    rcases List.mem_append.1 hx with hx | hx
    · exact wrVal_lt (named_of_ok (XF.ok_d ok)) x hx
    · exact wrVal_lt (named_of_ok (XF.ok_e ok)) x hx

/-- Settles O3: the value and the carry or borrow word of the four encodings, then the quotient and the remainder. -/
theorem carryBorrowAndDivide : Obligations.CarryBorrowAndDivide := by
  refine ⟨⟨?_, ?_, ?_, ?_⟩, idiv_writesRegs⟩
  iterate 2 exact fun f => writesRegs_of_carryBody (fun _ => rfl) ⟨rfl, rfl⟩ fun _ _ _ _ l => iaddc_writes _ _
  iterate 2 exact fun f => writesRegs_of_carryBody (fun _ => rfl) ⟨rfl, rfl⟩ fun _ _ _ _ l => isubb_writes _ _

end Sys2Proof.Machine
end

section
/-! O4, logic, shifts and rotates: the operations on numbers below 2^n are those on bit patterns of n bits. -/

namespace Sys2Proof.Machine

open Sys2Proof

/-! ### Operations on numbers as operations on bit patterns (R152) -/

section
variable {n : Nat} (a b : BitVec n)

theorem ofNat_and : BitVec.ofNat n (a.toNat &&& b.toNat) = a &&& b := by simp [← BitVec.toNat_and]

theorem ofNat_or : BitVec.ofNat n (a.toNat ||| b.toNat) = a ||| b := by simp [← BitVec.toNat_or]

theorem ofNat_xor : BitVec.ofNat n (a.toNat ^^^ b.toNat) = a ^^^ b := by simp [← BitVec.toNat_xor]

theorem ofNat_andn : BitVec.ofNat n (a.toNat &&& (2 ^ n - 1 - b.toNat)) = a &&& ~~~b := by
  rw [← BitVec.toNat_not]; exact ofNat_and a (~~~b)

theorem ofNat_not : BitVec.ofNat n (2 ^ n - 1 - a.toNat) = ~~~a := by
  rw [← BitVec.toNat_not, BitVec.ofNat_toNat, BitVec.setWidth_eq]

theorem ofNat_shl (s : Nat) : BitVec.ofNat n (a.toNat * 2 ^ s) = a <<< s := by
  apply BitVec.eq_of_toNat_eq
  simp [Nat.shiftLeft_eq]

theorem ofNat_shr (s : Nat) : BitVec.ofNat n (a.toNat / 2 ^ s) = a >>> s := by
  rw [← Nat.shiftRight_eq_div_pow, ← BitVec.toNat_ushiftRight, BitVec.ofNat_toNat, BitVec.setWidth_eq]

theorem wrap_sar (s : Nat) : BitVec.ofNat n (wrap n (toSigned n a.toNat / (2 ^ s : Int))) = a.sshiftRight s := by
  rw [ofNat_wrap, toSigned_toNat]
  have shifted : a.toInt / (2 ^ s : Int) = (a.sshiftRight s).toInt := by
    rw [BitVec.toInt_sshiftRight, Int.shiftRight_eq_div_pow]
    rfl
  rw [shifted, BitVec.ofInt_toInt]

/-- Rotation to the left: the bits that leave at the top come back at the bottom. -/
theorem ofNat_rot {s : Nat} (h : s < n) :
    BitVec.ofNat n (a.toNat * 2 ^ s + a.toNat / 2 ^ (n - s)) = a.rotateLeft s := by
  rw [BitVec.rotateLeft_def, Nat.mod_eq_of_lt h, BitVec.ofNat_add, ofNat_shl, ofNat_shr]
  refine BitVec.add_eq_or_of_and_eq_zero _ _ ?_
  ext i hi
  simp only [BitVec.getElem_and, BitVec.getElem_shiftLeft, BitVec.getElem_ushiftRight, BitVec.getElem_zero]
  by_cases low : i < s
  · simp [low]
  · simp [BitVec.getLsbD_of_ge a (n - s + i) (by omega)]

end

/-! ### The bodies -/

section
variable (c : Ctx) (l : Nat)

theorem and_value : BitVec.ofNat _ (c.opA (words c) l &&& c.opB (words c) l) = c.bitsA l &&& c.bitsB l := by
  rw [c.opA_eq, c.opB_eq]; exact ofNat_and ..

theorem or_value : BitVec.ofNat _ (c.opA (words c) l ||| c.opB (words c) l) = c.bitsA l ||| c.bitsB l := by
  rw [c.opA_eq, c.opB_eq]; exact ofNat_or ..

theorem xor_value : BitVec.ofNat _ (c.opA (words c) l ^^^ c.opB (words c) l) = c.bitsA l ^^^ c.bitsB l := by
  rw [c.opA_eq, c.opB_eq]; exact ofNat_xor ..

theorem andn_value :
    BitVec.ofNat _ (c.opA (words c) l &&& (2 ^ bitsOf c - 1 - c.opB (words c) l)) = c.bitsA l &&& ~~~(c.bitsB l) := by
  rw [c.opA_eq, c.opB_eq]; exact ofNat_andn ..

theorem not_value : BitVec.ofNat _ (2 ^ bitsOf c - 1 - c.opA (words c) l) = ~~~(c.bitsA l) := by
  rw [c.opA_eq]; exact ofNat_not _

theorem shl_value : BitVec.ofNat _ (c.opA (words c) l * 2 ^ shiftOf c l) = c.bitsA l <<< (c.opB 1 l % (32 * typeWords c)) := by
  rw [c.opA_eq]; exact ofNat_shl ..

theorem shr_value : BitVec.ofNat _ (c.opA (words c) l / 2 ^ shiftOf c l) = c.bitsA l >>> (c.opB 1 l % (32 * typeWords c)) := by
  rw [c.opA_eq]; exact ofNat_shr ..

theorem sar_value : BitVec.ofNat _ (wrap (bitsOf c) (toSigned (bitsOf c) (c.opA (words c) l) / (2 ^ shiftOf c l : Int))) =
    (c.bitsA l).sshiftRight (c.opB 1 l % (32 * typeWords c)) := by
  rw [c.opA_eq]; exact wrap_sar ..

theorem rot_value :
    BitVec.ofNat _ (let a := c.opA (words c) l; a * 2 ^ shiftOf c l + a / 2 ^ (bitsOf c - shiftOf c l)) =
      (c.bitsA l).rotateLeft (c.opB 1 l % (32 * typeWords c)) := by
  have positive : 0 < 32 * typeWords c := by rcases tyWords_cases c.f.t with h | h <;> simp [typeWords, h]
  dsimp only
  rw [c.opA_eq]
  exact ofNat_rot _ (Nat.mod_lt _ positive)

end

/-- Settles O4: every instruction of the family is one body in one lane, and the body's value is the one stated. -/
theorem logicAndShiftResults : Obligations.LogicAndShiftResults := by
  refine ⟨⟨?_, ?_, ?_, ?_, ?_, ?_, ?_, ?_, ?_, ?_, ?_, ?_, ?_, ?_, ?_, ?_, ?_, ?_⟩,
    ⟨?_, ?_, ?_, ?_, ?_, ?_, ?_, ?_, ?_, ?_, ?_, ?_, ?_, ?_, ?_, ?_⟩⟩
  -- AND, OR, XOR, ANDN, NOT
  iterate 4 exact fun f => typedResult_of_value (fun _ => rfl) ⟨rfl, rfl⟩ and_value
  iterate 4 exact fun f => typedResult_of_value (fun _ => rfl) ⟨rfl, rfl⟩ or_value
  iterate 4 exact fun f => typedResult_of_value (fun _ => rfl) ⟨rfl, rfl⟩ xor_value
  iterate 4 exact fun f => typedResult_of_value (fun _ => rfl) ⟨rfl, rfl⟩ andn_value
  iterate 2 exact fun f => typedResult_of_value (fun _ => rfl) ⟨rfl, rfl⟩ not_value
  -- SHL, SHR, SAR, ROT
  iterate 4 exact fun f => typedResult_of_value (fun _ => rfl) ⟨rfl, rfl⟩ shl_value
  iterate 4 exact fun f => typedResult_of_value (fun _ => rfl) ⟨rfl, rfl⟩ shr_value
  iterate 4 exact fun f => typedResult_of_value (fun _ => rfl) ⟨rfl, rfl⟩ sar_value
  iterate 4 exact fun f => typedResult_of_value (fun _ => rfl) ⟨rfl, rfl⟩ rot_value

end Sys2Proof.Machine
end

section
/-! O5, bit fields, counts, comparison, selection, addresses and moves. -/

namespace Sys2Proof.Machine

open Sys2Proof

/-! ### Bit fields (R153) -/

section
variable {n : Nat} (a b : BitVec n)

/-- The field of len bits from pos, as the number that the model reads. -/
theorem toNat_field (p len : Nat) : a.toNat / 2 ^ p % 2 ^ len = (a.extractLsb' p len).toNat := by
  rw [BitVec.extractLsb'_toNat, Nat.shiftRight_eq_div_pow]

/-- The bits of a number of which a field has been replaced. -/
theorem testBit_insert (x y p len i : Nat) :
    (x / 2 ^ (p + len) * 2 ^ (p + len) + y % 2 ^ len * 2 ^ p + x % 2 ^ p).testBit i =
      if i < p then x.testBit i else if i < p + len then y.testBit (i - p) else x.testBit i := by
  have low : x % 2 ^ p < 2 ^ p := Nat.mod_lt _ (by positivity)
  have field : 2 ^ p * (y % 2 ^ len) + x % 2 ^ p < 2 ^ (p + len) := by
    have top : y % 2 ^ len + 1 ≤ 2 ^ len := Nat.mod_lt _ (by positivity)
    calc 2 ^ p * (y % 2 ^ len) + x % 2 ^ p < 2 ^ p * (y % 2 ^ len + 1) := by rw [mul_add]; omega
      _ ≤ 2 ^ p * 2 ^ len := Nat.mul_le_mul_left _ top
      _ = 2 ^ (p + len) := (pow_add ..).symm
  rw [Nat.add_assoc, Nat.mul_comm, Nat.mul_comm (y % _), Nat.testBit_two_pow_mul_add _ field, Nat.testBit_two_pow_mul_add _ low]
  simp only [Nat.testBit_mod_two_pow, Nat.testBit_div_two_pow]
  rcases Nat.lt_or_ge i p with below | above
  · simp [below, show i < p + len by omega]
  · rcases Nat.lt_or_ge i (p + len) with within | beyond
    · simp [within, show ¬ i < p by omega, show i - p < len by omega]
    · simp [show ¬ i < p + len by omega, show ¬ i < p by omega, show i - (p + len) + (p + len) = i by omega]

theorem testBit_fieldMask (p len i : Nat) : ((2 ^ len - 1) * 2 ^ p).testBit i = decide (p ≤ i ∧ i < p + len) := by
  rw [Nat.mul_comm, Nat.testBit_two_pow_mul, Nat.testBit_two_pow_sub_one, Bool.decide_and]
  by_cases above : p ≤ i
  · simp only [above, decide_true, Bool.true_and]
    exact decide_eq_decide.2 (by omega)
  · simp [above]

/-- A field replaced: the bits above it and below it stay. -/
theorem ofNat_insert (p len : Nat) :
    BitVec.ofNat n (a.toNat / 2 ^ (p + len) * 2 ^ (p + len) + b.toNat % 2 ^ len * 2 ^ p + a.toNat % 2 ^ p) =
      let mask : BitVec n := BitVec.ofNat n ((2 ^ len - 1) * 2 ^ p)
      (a &&& ~~~mask) ||| ((b <<< p) &&& mask) := by
  apply BitVec.eq_of_getLsbD_eq
  intro i hi
  simp only [BitVec.getLsbD_ofNat, BitVec.getLsbD_or, BitVec.getLsbD_and, BitVec.getLsbD_not, BitVec.getLsbD_shiftLeft,
    testBit_insert, testBit_fieldMask, hi, decide_true, Bool.true_and]
  by_cases within : p ≤ i ∧ i < p + len
  · simp [within, show ¬ i < p by omega, BitVec.getLsbD]
  · rcases Nat.lt_or_ge i p with below | above
    · simp [below, show ¬ p ≤ i by omega, BitVec.getLsbD]
    · simp [above, show ¬ i < p + len by omega, BitVec.getLsbD]

end

/-! ### Counts (R154) -/

/-- The bits of a number from the lowest up. -/
def bitsFrom (w v : Nat) : List Bool := (List.range w).map v.testBit

theorem bitsFrom_succ (w v : Nat) : bitsFrom (w + 1) v = bitsFrom w v ++ [v.testBit w] := by simp [bitsFrom, List.range_succ]

theorem popCount_eq (w v : Nat) : popCount w v = (bitsFrom w v).count true := by
  rw [bitsFrom, List.count, List.countP_map, popCount, ← List.countP_eq_length_filter]
  congr 1
  funext i
  simp

/-- The highest bit of w + 1 bits. -/
theorem mod_two_pow_succ (w v : Nat) : v % 2 ^ (w + 1) = v % 2 ^ w + if v.testBit w then 2 ^ w else 0 := by
  rw [Nat.mod_pow_succ, Nat.testBit_eq_decide_div_mod_eq]
  rcases Nat.mod_two_eq_zero_or_one (v / 2 ^ w) with h | h <;> simp [h]

theorem leadZeros_eq (w v : Nat) : leadZeros w v = ((bitsFrom w v).reverse.takeWhile fun b => !b).length := by
  induction w with
  | zero => simp [leadZeros, bitsFrom, Nat.mod_one]
  | succ w ih =>
    have below : v % 2 ^ w < 2 ^ w := Nat.mod_lt _ (by positivity)
    rw [bitsFrom_succ, List.reverse_append, List.reverse_singleton, List.singleton_append, List.takeWhile_cons]
    cases top : v.testBit w with
    | true =>
      have log : Nat.log2 (v % 2 ^ w + 2 ^ w) = w := by
        rw [Nat.log2_eq_iff (by omega)]
        omega
      simp [leadZeros, mod_two_pow_succ, top, log]
    | false =>
      have rest : leadZeros (w + 1) v = leadZeros w v + 1 := by
        simp only [leadZeros, mod_two_pow_succ, top, Bool.false_eq_true, if_false, Nat.add_zero]
        split
        · rfl
        · have := (Nat.log2_lt (by assumption)).2 below
          omega
      simp [rest, ih]

/-- The first element of an interval with a property, as the number of those before it. -/
theorem headD_filter_range' (p : Nat → Bool) (s n : Nat) :
    ((List.range' s n).filter p).headD (s + n) = s + ((List.range' s n).takeWhile fun i => !p i).length := by
  induction n generalizing s with
  | zero => rfl
  | succ n ih =>
    have rest := ih (s + 1)
    rw [List.range'_succ]
    cases h : p s with
    | true => simp [h]
    | false =>
      simp only [List.filter_cons, List.takeWhile_cons, h, Bool.not_false, Bool.false_eq_true, if_false, if_true, List.length_cons]
      rw [show s + (n + 1) = s + 1 + n by omega, rest]
      omega

theorem trailZeros_eq (w v : Nat) : trailZeros w v = ((bitsFrom w v).takeWhile fun b => !b).length := by
  have first := headD_filter_range' v.testBit 0 w
  rw [← List.range_eq_range', Nat.zero_add, Nat.zero_add] at first
  rw [trailZeros, bitsFrom, List.takeWhile_map, List.length_map]
  exact first

/-- A power of two added below a number's lowest bit. -/
theorem testBit_add_below {r m : Nat} (h : ∀ i, i ≤ m → r.testBit i = false) (j : Nat) :
    (r + 2 ^ m).testBit j = (decide (j = m) || r.testBit j) := by
  have even : r % 2 ^ (m + 1) = 0 := Nat.eq_of_testBit_eq fun i => by
    rw [Nat.testBit_mod_two_pow, Nat.zero_testBit]
    by_cases hi : i < m + 1
    · simp [h i (by omega)]
    · simp [hi]
  have whole : 2 ^ (m + 1) * (r / 2 ^ (m + 1)) = r := by have := Nat.div_add_mod r (2 ^ (m + 1)); omega
  have sum := Nat.testBit_two_pow_mul_add (r / 2 ^ (m + 1)) (b := 2 ^ m) (i := m + 1) (Nat.pow_lt_pow_right (by omega) (by omega)) j
  rw [whole, Nat.testBit_div_two_pow, Nat.testBit_two_pow] at sum
  rw [sum]
  by_cases hj : j < m + 1
  · simp [hj, h j (by omega), eq_comm]
  · simp [hj, show j ≠ m by omega, show j - (m + 1) + (m + 1) = j by omega]

/-- The bits of the model's reversal after k of w steps: the top k, reversed. -/
theorem testBit_reverse_steps (w v k : Nat) (hk : k ≤ w) (j : Nat) :
    ((List.range k).foldl (fun r i => if v.testBit i then r + 2 ^ (w - 1 - i) else r) 0).testBit j =
      (decide (w - k ≤ j ∧ j < w) && v.testBit (w - 1 - j)) := by
  induction k generalizing j with
  | zero => simp
  | succ k ih =>
    have earlier := ih (by omega)
    rw [List.range_succ, List.foldl_append, List.foldl_cons, List.foldl_nil]
    have added : (decide (w - (k + 1) ≤ j ∧ j < w) && v.testBit (w - 1 - j)) =
        (decide (j = w - 1 - k) && v.testBit k || decide (w - k ≤ j ∧ j < w) && v.testBit (w - 1 - j)) := by
      by_cases hj : j = w - 1 - k
      · subst hj
        simp [show w - 1 - (w - 1 - k) = k by omega, show ¬ w - k ≤ w - 1 - k by omega, show w - 1 - k < w by omega,
          show w - (k + 1) ≤ w - 1 - k by omega]
      · have same : (w - (k + 1) ≤ j ∧ j < w) ↔ (w - k ≤ j ∧ j < w) := by omega
        rw [decide_eq_decide.2 same, decide_eq_false hj, Bool.false_and, Bool.false_or]
    rw [added]
    split
    · rw [testBit_add_below (fun i hi => by rw [earlier]; simp; omega), earlier]
      simp [*]
    · rw [earlier]
      simp [*]

theorem ofNat_bitReverse (w v : Nat) : BitVec.ofNat w (bitReverse w v) = (BitVec.ofNat w v).reverse := by
  apply BitVec.eq_of_getLsbD_eq
  intro i hi
  rw [BitVec.getLsbD_ofNat, BitVec.getLsbD_reverse, BitVec.getMsbD_eq_getLsbD, BitVec.getLsbD_ofNat, bitReverse,
    testBit_reverse_steps w v w (Nat.le_refl w)]
  simp [hi, show w - 1 - i < w by omega]

/-! ### Addresses and moves (R156, R157) -/

/-- A 64-bit pattern of an integer cut to a narrower width. -/
theorem setWidth_ofInt {n : Nat} (h : n ≤ 64) (z : Int) : (BitVec.ofInt 64 z).setWidth n = BitVec.ofInt n z := by
  apply BitVec.eq_of_toNat_eq
  have divides : ((2 ^ n : Nat) : Int) ∣ ((2 ^ 64 : Nat) : Int) := Int.natCast_dvd_natCast.2 (Nat.pow_dvd_pow 2 h)
  have cut := Int.emod_emod_of_dvd z divides
  have wide : 0 ≤ z % ((2 ^ 64 : Nat) : Int) := Int.emod_nonneg _ (by positivity)
  rw [BitVec.toNat_setWidth, BitVec.toNat_ofInt, BitVec.toNat_ofInt, ← cut, Int.toNat_emod wide (by positivity),
    Int.toNat_natCast]

theorem ofInt_shiftLeft (n m : Nat) (z : Int) : BitVec.ofInt n z <<< m = BitVec.ofInt n (z * 2 ^ m) := by
  rw [BitVec.shiftLeft_eq_mul_twoPow, BitVec.ofInt_mul]
  congr 1
  have power : BitVec.ofInt n ((2 ^ m : Nat) : Int) = BitVec.ofNat n (2 ^ m) := BitVec.ofInt_natCast ..
  exact (BitVec.eq_of_toNat_eq (by rw [BitVec.toNat_twoPow, BitVec.toNat_ofNat])).trans power.symm

/-! ### The bodies -/

theorem bits_le_64 (c : Ctx) : 32 * typeWords c ≤ 64 := by
  rcases tyWords_cases c.f.t with h | h <;> simp [typeWords, h]

section
variable (c : Ctx) (l : Nat)

theorem bfx_value :
    BitVec.ofNat (32 * typeWords c) (let p := c.uimm % 64
        let n := c.uimm / 64
        let v := c.opA (words c) l / 2 ^ p % 2 ^ n
        if n = 0 then 0 else if tySigned c.f.t then wrap (bitsOf c) (toSigned n v) else v) =
      let n := c.f.imm.toNat / 64
      let x := (c.bitsA l).extractLsb' (c.f.imm.toNat % 64) n
      if n = 0 then 0 else if tySigned c.f.t then x.signExtend _ else x.setWidth _ := by
  dsimp only
  rw [c.opA_eq, toNat_field, toSigned_toNat]
  split
  · exact (if_pos ‹_›).symm
  · refine Eq.trans ?_ (if_neg ‹_›).symm
    split
    · exact ofNat_wrap ..
    · exact BitVec.ofNat_toNat ..

theorem bfi_value :
    BitVec.ofNat (32 * typeWords c) (let p := c.uimm % 64
        let n := c.uimm / 64
        let a := c.opA (words c) l
        a / 2 ^ (p + n) * 2 ^ (p + n) + c.opB (words c) l % 2 ^ n * 2 ^ p + a % 2 ^ p) =
      let p := c.f.imm.toNat % 64
      let mask : BitVec (32 * typeWords c) := BitVec.ofNat _ ((2 ^ (c.f.imm.toNat / 64) - 1) * 2 ^ p)
      (c.bitsA l &&& ~~~mask) ||| ((c.bitsB l <<< p) &&& mask) := by
  dsimp only
  rw [c.opA_eq, c.opB_eq]
  exact ofNat_insert ..

theorem popc_value : popCount (bitsOf c) (c.opA (words c) l) = (bitsFrom (32 * typeWords c) (c.bitsA l).toNat).count true := by
  rw [c.opA_eq]; exact popCount_eq ..

theorem clz_value : leadZeros (bitsOf c) (c.opA (words c) l) =
    ((bitsFrom (32 * typeWords c) (c.bitsA l).toNat).reverse.takeWhile fun b => !b).length := by
  rw [c.opA_eq]; exact leadZeros_eq ..

theorem ctz_value : trailZeros (bitsOf c) (c.opA (words c) l) =
    ((bitsFrom (32 * typeWords c) (c.bitsA l).toNat).takeWhile fun b => !b).length := by
  rw [c.opA_eq]; exact trailZeros_eq ..

theorem brev_value : BitVec.ofNat _ (bitReverse (bitsOf c) (c.opA (words c) l)) = (c.bitsA l).reverse := by
  rw [c.opA_eq]
  exact (ofNat_bitReverse ..).trans (by rw [BitVec.ofNat_toNat, BitVec.setWidth_eq])

theorem icmp_value : flagWord (icond c.f.m.toNat (c.num (c.opA (words c) l)) (c.num (c.opB (words c) l))) =
    if icond c.f.m.toNat (typeInt (tySigned c.f.t) (c.bitsA l)) (typeInt (tySigned c.f.t) (c.bitsB l)) then 1 else 0 := by
  rw [c.opA_eq, c.opB_eq, c.num_toNat, c.num_toNat]; rfl

theorem sel_value : BitVec.ofNat _ (if c.opC 1 l % 2 = 1 then c.opA (words c) l else c.opB (words c) l) =
    if (c.w.reg c.f.c.toNat l).getLsbD 0 then c.bitsA l else c.bitsB l := by
  rw [c.opC_word, toNat_mod_two, c.opA_eq, c.opB_eq]
  split <;> simp

theorem lea_value (lit : c.f.lit = none) (twin : isTwin c.ins.op = false) :
    BitVec.ofNat _ (wrap (bitsOf c) (c.opA (words c) l + toSigned 32 (c.opB 1 l) * 2 ^ c.f.m.toNat + c.simm)) =
      c.bitsA l +
        (((c.w.reg c.f.b.toNat l).signExtend 64 <<< c.f.m.toNat) + c.f.imm.signExtend 64).setWidth (32 * typeWords c) := by
  have offset : ((c.w.reg c.f.b.toNat l).signExtend 64 <<< c.f.m.toNat) + c.f.imm.signExtend 64 =
      BitVec.ofInt 64 ((c.w.reg c.f.b.toNat l).toInt * 2 ^ c.f.m.toNat + c.simm) := by
    rw [BitVec.ofInt_add, ← ofInt_shiftLeft]; rfl
  rw [offset, setWidth_ofInt (bits_le_64 c), c.opA_eq, Ctx.opB_register lit twin, toSigned_toNat, Int.add_assoc]
  refine (ofNat_wrap (32 * typeWords c) _).trans ?_
  rw [BitVec.ofInt_add, BitVec.ofInt_natCast, BitVec.ofNat_toNat, BitVec.setWidth_eq]

theorem mov_value : BitVec.ofNat _ (c.opB (words c) l) = c.bitsB l := rfl

end

theorem movi_value (c : Ctx) : BitVec.ofNat _ (wrap (bitsOf c) c.simm) = c.f.imm.signExtend (32 * typeWords c) := ofNat_wrap ..

theorem lea_result (f : XF) : TypedResult (.lea f) fun c l =>
    c.bitsA l + (((c.w.reg f.b.toNat l).signExtend 64 <<< f.m.toNat) + f.imm.signExtend 64).setWidth _ :=
  typedResult_of_laneBody (fun _ => rfl) ⟨rfl, rfl⟩ fun hw k i w fr l =>
    lea_value (ctxOf (.lea f) k i w fr) l (XF.ok_lit (ok_of_wellFormed (j := .lea f) hw rfl) rfl) rfl

/-- Settles O5: every instruction of the family is one body in one lane, and the body's value is the one stated. -/
theorem bitFieldCompareAndMove : Obligations.BitFieldCompareAndMove := by
  refine ⟨⟨?_, ?_, ?_, ?_, ?_, ?_, ?_, ?_, ?_, ?_⟩, ⟨?_, ?_, lea_result, ?_, ?_, ?_, ?_⟩⟩
  · exact fun f => typedResult_of_laneBody (fun _ => rfl) ⟨rfl, rfl⟩ fun _ _ _ _ _ l => bfx_value _ l
  · exact fun f => typedResult_of_laneBody (fun _ => rfl) ⟨rfl, rfl⟩ fun _ _ _ _ _ l => bfi_value _ l
  iterate 2 exact fun f => wordResult_of_laneBody (fun _ => rfl) fun _ _ _ _ _ l => congrArg _ (popc_value _ l)
  iterate 2 exact fun f => wordResult_of_laneBody (fun _ => rfl) fun _ _ _ _ _ l => congrArg _ (clz_value _ l)
  iterate 2 exact fun f => wordResult_of_laneBody (fun _ => rfl) fun _ _ _ _ _ l => congrArg _ (ctz_value _ l)
  iterate 2 exact fun f => typedResult_of_value (fun _ => rfl) ⟨rfl, rfl⟩ brev_value
  · exact fun f => wordResult_of_laneBody (fun _ => rfl) fun _ _ _ _ _ l => congrArg _ (icmp_value _ l)
  · exact fun f => typedResult_of_laneBody (fun _ => rfl) ⟨rfl, rfl⟩ fun _ _ _ _ _ l => sel_value _ l
  iterate 2 exact fun f => typedResult_of_value (fun _ => rfl) ⟨rfl, rfl⟩ mov_value
  · exact fun f => typedResult_of_laneBody (fun _ => rfl) ⟨rfl, rfl⟩ fun _ _ _ _ _ _ => movi_value _
  · exact fun f => typedResult_of_laneBody (fun _ => rfl) ⟨rfl, rfl⟩ fun _ _ _ _ _ _ =>
      (movi_value _).trans (signExtend_signExtend_imm7 f.b _)

end Sys2Proof.Machine
end

section
/-! O6, cross-lane instructions: the tree of R76 level by level, the running combination, and the lanes of SHFL, VOTE and MATCH. -/

namespace Sys2Proof.Machine

open Sys2Proof

/-- A body that writes one value, of the instruction's type, to each enabled lane. -/
theorem writesRegs_of_values {j : Instr} {r : Rule} {u : Ctx → Nat → Nat} {ws : Ctx → Nat → List (Nat × Word)}
    (run : ∀ s, exec j s = runWave (insOf j) (regBody fun c => c.lanes.flatMap fun l => wrVal (words c) c.f.d.toNat l (u c l)) s)
    (rule : xRule (insOf j).op (insOf j).f = some r ∧ r.d = .val (tyWords (insOf j).f.t))
    (value : ∀ k i w fr l, let c := ctxOf j k i w fr; valueIn (typeWords c) c.f.d.toNat (u c l) = ws c l) : WritesRegs j ws := by
  refine writesRegs_of_regBody run (fun k i w fr => List.flatMap_congr fun l _ => ?_) fun hw k i w fr x hx => ?_
  · exact (wrVal_eq ..).trans (congrArg _ (value k i w fr l))
  · obtain ⟨l, -, hx⟩ := List.mem_flatMap.1 hx
    exact wrVal_lt (named_of_ok (rule.2 ▸ XF.ok_d (ok_of_wellFormed hw rule.1))) x hx

/-- A body that writes one word to each enabled lane. -/
theorem writesRegs_of_words {j : Instr} {u : Ctx → Nat → Nat} {v : Ctx → Nat → Word} {d : Nat}
    (dest : (insOf j).f.d.toNat = d)
    (run : ∀ s, exec j s = runWave (insOf j) (regBody fun c => c.lanes.flatMap fun l => wrVal 1 c.f.d.toNat l (u c l)) s)
    (value : ∀ k i w fr l, BitVec.ofNat 32 (u (ctxOf j k i w fr) l) = v (ctxOf j k i w fr) l) :
    WritesRegs j fun c l => [(d, v c l)] := by
  subst dest
  refine writesRegs_of_regBody run (fun k i w fr => List.flatMap_congr fun l _ => ?_) fun hw k i w fr x hx => ?_
  · exact (wrVal_eq ..).trans (congrArg (fun x => [(_, l, x)]) (value k i w fr l))
  · obtain ⟨l, -, hx⟩ := List.mem_flatMap.1 hx
    exact wrVal_lt (.inl rfl) x hx

/-- A number below 2^n that has a bit pattern is its number. -/
theorem ofNat_eq_toNat {n v : Nat} {x : BitVec n} (hv : v < 2 ^ n) (h : BitVec.ofNat n v = x) : v = x.toNat := by
  rw [← h, BitVec.toNat_ofNat, Nat.mod_eq_of_lt hv]

/-! ### SHFL (R167) -/

/-- The lane that SHFL names for a lane, in the set or not. -/
def shflSource (c : Ctx) (l : Nat) : Int :=
  match c.f.m.toNat with
  | 0 => ((c.w.reg c.f.b.toNat l).toNat % 32 : Nat)
  | 1 => (l : Int) - c.f.imm.toNat
  | 2 => (l : Int) + c.f.imm.toNat
  | _ => ((l ^^^ c.f.imm.toNat : Nat) : Int)

/-- The lane that SHFL reads is the one named, where it is a lane of the set. -/
theorem shflLane_eq (c : Ctx) (l m : Nat) (h : m < 32) : shflLane c l = some m ↔ shflSource c l = m := by
  have distance : c.f.imm.toNat = c.uimm := rfl
  match hm : c.f.m.toNat with
  | 0 => simp only [shflLane, shflSource, hm, Option.some.injEq, Nat.cast_inj]
  | 1 =>
    simp only [shflLane, shflSource, hm, distance, Option.ite_none_right_eq_some, Option.some.injEq]
    omega
  | 2 =>
    simp only [shflLane, shflSource, hm, distance, Option.ite_none_right_eq_some, Option.some.injEq]
    omega
  | n + 3 => simp only [shflLane, shflSource, hm, distance, Option.some.injEq, Nat.cast_inj]

theorem shfl_value (c : Ctx) (l : Nat) :
    c.opA (words c) (match shflLane c l with | some t => if c.lanes.contains t then t else l | none => l) =
      (if 0 ≤ shflSource c l ∧ shflSource c l < 32 ∧ (shflSource c l).toNat ∈ c.lanes then c.bitsA (shflSource c l).toNat
        else c.bitsA l).toNat := by
  have lane (m : Nat) (hm : m ∈ c.lanes) : shflLane c l = some m ↔ shflSource c l = m := shflLane_eq c l m (Ctx.lanes_lt hm)
  by_cases named : 0 ≤ shflSource c l ∧ shflSource c l < 32 ∧ (shflSource c l).toNat ∈ c.lanes
  · obtain ⟨low, high, mem⟩ := named
    rw [(lane _ mem).2 (by omega), if_pos ⟨low, high, mem⟩, c.opA_eq]
    simp only [List.contains_iff_mem, mem, if_true]
  · have own : (match shflLane c l with | some t => if c.lanes.contains t then t else l | none => l) = l := by
      split
      next t ht =>
        refine if_neg fun mem => named ?_
        have mem : t ∈ c.lanes := List.contains_iff_mem.1 mem
        have source := (lane t mem).1 ht
        have := Ctx.lanes_lt mem
        exact ⟨by omega, by omega, by rw [source]; exact mem⟩
      next => rfl
    rw [own, if_neg named, c.opA_eq]

/-! ### VOTE and MATCH (R168, R170) -/

theorem vote_value (c : Ctx) : BitVec.ofNat 32 (voteValue c) =
    match c.f.m.toNat with
    | 0 => if ballot c ≠ 0 then 1 else 0
    | 1 => if ballot c = maskOf c.lanes then 1 else 0
    | 2 => ballot c
    | _ => if ∀ m ∈ c.lanes, ∀ n ∈ c.lanes, c.w.reg c.f.a.toNat m = c.w.reg c.f.a.toNat n then 1 else 0 := by
  have flag (b : Bool) (p : Prop) [Decidable p] (h : b = true ↔ p) : BitVec.ofNat 32 (flagWord b) = if p then 1 else 0 := by
    by_cases hp : p
    · simp [flagWord, h.2 hp, hp]
    · simp [flagWord, Bool.eq_false_iff.2 (mt h.1 hp), hp]
  unfold voteValue
  match c.f.m.toNat with
  | 0 => exact flag _ _ (by simp)
  | 1 => exact flag _ _ (by simp)
  | 2 => exact BitVec.ofNat_toNat .. |>.trans (BitVec.setWidth_eq _)
  | _ + 3 =>
    refine flag _ _ ?_
    simp only [List.all_eq_true, beq_iff_eq]
    constructor
    · exact fun same m hm n hn => (same m hm).trans (same n hn).symm
    · refine fun same m hm => same m hm c.low ?_
      unfold Ctx.low
      cases hl : c.lanes with
      | nil => simp [hl] at hm
      | cons x xs => simp

theorem match_value (c : Ctx) (l : Nat) :
    BitVec.ofNat 32 (maskOf (c.lanes.filter fun m => c.opA (words c) m == c.opA (words c) l)).toNat =
      maskOf (c.lanes.filter fun m => decide (c.bitsA m = c.bitsA l)) := by
  rw [BitVec.ofNat_toNat, BitVec.setWidth_eq]
  congr 1
  refine List.filter_congr fun m _ => ?_
  rw [c.opA_eq, c.opA_eq, beq_eq_decide]
  exact decide_eq_decide.2 BitVec.toNat_inj

/-! ### The operations of REDX and SCANX (R169) -/

theorem f32_signed_lt (s : Bool) {code : Nat} (h : code ≤ f32.infCode) : f32.signed s code < 2 ^ 32 := by
  have bound : f32.infCode = 255 * 2 ^ 23 := rfl
  have sign : f32.signed s code = if s then 2 ^ 31 + code else code := rfl
  rw [sign]
  split <;> omega

theorem f32_maxCode_le : f32.maxCode ≤ f32.infCode := by decide

theorem f32_over_le (rm : RM) (s : Bool) : f32.over rm s ≤ f32.infCode := by
  have := f32_maxCode_le
  unfold Fmt.over
  split
  · assumption
  · split
    · assumption
    · split <;> omega
    · split <;> omega
    · exact Nat.le_refl _

theorem f32_round_lt (rm : RM) (s : Bool) (m : Nat) (e : Int) : (f32.round rm s m e).1 < 2 ^ 32 := by
  unfold Fmt.round
  split
  · exact f32_signed_lt s (Nat.zero_le _)
  · refine f32_signed_lt s ?_
    split
    · exact f32_over_le rm s
    · exact (not_lt.1 ‹_›).trans f32_maxCode_le

/-- An encoded FP32 value has 32 bits (R64). -/
theorem f32_enc_lt (rm : RM) (sm : Nat) (x : FVal) : f32.enc rm sm x < 2 ^ 32 := by
  cases x with
  | nan => exact (by decide : f32.nan < 2 ^ 32)
  | inf s => exact f32_signed_lt s (Nat.le_refl _)
  | fin s m e =>
    unfold Fmt.enc
    dsimp only
    split
    · exact f32_signed_lt s (Nat.zero_le _)
    · exact f32_round_lt rm s m e

theorem toNat_ofNat_f32 (c : Ctx) {v : Nat} (h : v < 2 ^ 32) : v = (BitVec.ofNat (32 * typeWords c) v).toNat := by
  rw [BitVec.toNat_ofNat, Nat.mod_eq_of_lt]
  rcases tyWords_cases c.f.t with hw | hw <;> simp only [typeWords, hw] <;> omega

/-- The operation of M on two numbers of the type's width is that on their bit patterns. -/
theorem combine_toNat (c : Ctx) (a b : BitVec (32 * typeWords c)) : combine c a.toNat b.toNat = (combineBits c a b).toNat := by
  have chosen (x y : BitVec (32 * typeWords c)) : (if c.num x.toNat ≤ c.num y.toNat then a.toNat else b.toNat) =
      (if (if tySigned c.f.t then x.sle y else x.ule y) then a else b).toNat := by
    rw [c.num_toNat, c.num_toNat, apply_ite BitVec.toNat]
    simp only [typeInt_le]
  unfold combine combineBits
  match c.f.m.toNat with
  | 0 => exact ofNat_eq_toNat (wrap_lt ..) (wrap_add a b)
  | 1 => exact chosen a b
  | 2 => exact chosen b a
  | 3 => exact (BitVec.toNat_or ..).symm
  | 4 => exact toNat_ofNat_f32 c (f32_enc_lt ..)
  | 5 => exact toNat_ofNat_f32 c (f32_enc_lt ..)
  | _ + 6 => exact toNat_ofNat_f32 c (f32_enc_lt ..)

/-! ### REDX: the tree of R76 -/

/-- The combination of two subtrees: of their values, or the one there is. -/
def joinOpt {α : Type} (g : α → α → α) (a b : Option α) : Option α :=
  match a, b with
  | some u, some v => some (g u v)
  | some u, none => some u
  | none, v => v

theorem treeLevel_cons (g : Nat → Nat → Nat) (a b : Option Nat) (r : List (Option Nat)) :
    treeLevel g (a :: b :: r) = joinOpt g a b :: treeLevel g r := by
  cases a <;> cases b <;> rfl

theorem treeLevel_range (g : Nat → Nat → Nat) (n : Nat) (f : Nat → Option Nat) :
    treeLevel g ((List.range (2 * n)).map f) = (List.range n).map fun i => joinOpt g (f (2 * i)) (f (2 * i + 1)) := by
  induction n generalizing f with
  | zero => rfl
  | succ n ih =>
    have pairs : List.range (2 * (n + 1)) = 0 :: 1 :: (List.range (2 * n)).map (· + 2) := by
      rw [Nat.mul_succ, List.range_succ_eq_map, List.range_succ_eq_map]
      simp [List.map_map, Function.comp_def]
    have rest := ih fun i => f (i + 2)
    rw [pairs, List.range_succ_eq_map, List.map_cons, List.map_cons, List.map_map, List.map_cons, List.map_map, treeLevel_cons]
    exact congrArg (joinOpt g (f 0) (f 1) :: ·) rest

theorem pairTree_succ {α : Type} (g : α → α → α) (x : Nat → Option α) (n at0 : Nat) :
    pairTree g x (n + 1) at0 = joinOpt g (pairTree g x n at0) (pairTree g x n (at0 + 2 ^ n)) := rfl

/-- After k levels each node holds its subtree of 2^k lanes. -/
theorem treeLevels (g : Nat → Nat → Nat) (x : Nat → Option Nat) (k n : Nat) :
    treeLevel g ((List.range (2 * n)).map fun i => pairTree g x k (i * 2 ^ k)) =
      (List.range n).map fun i => pairTree g x (k + 1) (i * 2 ^ (k + 1)) := by
  rw [treeLevel_range]
  refine List.map_congr_left fun i _ => ?_
  rw [pairTree_succ]
  congr 2 <;> ring

theorem treeFold_eq (g : Nat → Nat → Nat) (x : Nat → Option Nat) :
    treeFold g ((List.range 32).map x) = pairTree g x 5 0 := by
  have l0 : (List.range 32).map x = (List.range 32).map fun i => pairTree g x 0 (i * 2 ^ 0) := by simp [pairTree]
  show (treeLevel g (treeLevel g (treeLevel g (treeLevel g (treeLevel g ((List.range 32).map x)))))).headD none = _
  rw [l0, treeLevels g x 0 16, treeLevels g x 1 8, treeLevels g x 2 4, treeLevels g x 3 2, treeLevels g x 4 1]
  rfl

/-- The tree over images is the image of the tree. -/
theorem pairTree_map {α β : Type} {g : α → α → α} {h : β → β → β} {p : α → β}
    (hom : ∀ a b, h (p a) (p b) = p (g a b))
    (x : Nat → Option α) (n at0 : Nat) : pairTree h (fun m => (x m).map p) n at0 = (pairTree g x n at0).map p := by
  induction n generalizing at0 with
  | zero => rfl
  | succ n ih =>
    rw [pairTree_succ, pairTree_succ, ih, ih]
    cases pairTree g x n at0 <;> cases pairTree g x n (at0 + 2 ^ n) <;> simp [joinOpt, hom]

theorem redx_value (c : Ctx) :
    (treeFold (combine c) ((List.range 32).map fun l => if c.lanes.contains l then some (c.opA (words c) l) else none)).getD 0 =
      ((pairTree (combineBits c) (fun m => if m ∈ c.lanes then some (c.bitsA m) else none) 5 0).getD 0).toNat := by
  have leaves : (fun l => if c.lanes.contains l then some (c.opA (words c) l) else none) =
      fun m => (if m ∈ c.lanes then some (c.bitsA m) else none).map BitVec.toNat := by
    funext m
    rw [c.opA_eq]
    by_cases hm : m ∈ c.lanes <;> simp [hm]
  rw [treeFold_eq, leaves, pairTree_map (combine_toNat c)]
  cases pairTree (combineBits c) (fun m => if m ∈ c.lanes then some (c.bitsA m) else none) 5 0 <;> simp

/-! ### SCANX: the running combination (R76) -/

/-- The combination of a list onto a value reached before, if there is one. -/
def foldOnto {α : Type} (g : α → α → α) (d : α) : Option α → List α → α
  | none, xs => foldFrom g d xs
  | some a, xs => xs.foldl g a

/-- The running combinations over ascending lanes: at each lane, that of the lanes up to it. -/
theorem zip_scanFold (g : Nat → Nat → Nat) (f : Nat → Nat) (ls : List Nat) (sorted : ls.Pairwise (· < ·))
    (acc : Option Nat) :
    ls.zip (scanFold g acc (ls.map f)) =
      ls.map fun l => (l, foldOnto g 0 acc ((ls.filter fun m => decide (m ≤ l)).map f)) := by
  induction ls generalizing acc with
  | nil => cases acc <;> rfl
  | cons x ls ih =>
    obtain ⟨above, sorted⟩ := List.pairwise_cons.1 sorted
    have first : ls.filter (fun m => decide (m ≤ x)) = [] := by
      simpa using fun m hm => above m hm
    have later (acc' : Option Nat) (step : ∀ xs, foldOnto g 0 acc (f x :: xs) = foldOnto g 0 acc' xs) :
        ls.zip (scanFold g acc' (ls.map f)) =
          ls.map fun l => (l, foldOnto g 0 acc (((x :: ls).filter fun m => decide (m ≤ l)).map f)) := by
      rw [ih sorted acc']
      refine List.map_congr_left fun l hl => ?_
      rw [List.filter_cons_of_pos (by simpa using (above l hl).le), List.map_cons, step]
    rw [List.map_cons, List.map_cons, List.filter_cons_of_pos (by simp), first]
    cases acc with
    | none => exact congrArg₂ _ rfl (later (some (f x)) fun _ => rfl)
    | some a => exact congrArg₂ _ rfl (later (some (g a (f x))) fun _ => rfl)

theorem Ctx.lanes_sorted (c : Ctx) : c.lanes.Pairwise (· < ·) := (List.pairwise_lt_range.filter _).filter _

/-- The combination of numbers is the number of the combination. -/
theorem foldFrom_toNat (c : Ctx) (xs : List (BitVec (32 * typeWords c))) :
    foldFrom (combine c) 0 (xs.map BitVec.toNat) = (foldFrom (combineBits c) 0 xs).toNat := by
  cases xs with
  | nil => rfl
  | cons x xs =>
    show (xs.map BitVec.toNat).foldl (combine c) x.toNat = _
    rw [List.foldl_map]
    exact List.foldl_hom BitVec.toNat (fun a b => (combine_toNat c a b))

theorem scanx_writes (c : Ctx) :
    ((c.lanes.zip (scanFold (combine c) none (c.lanes.map fun l => c.opA (words c) l))).flatMap fun x =>
        wrVal (words c) c.f.d.toNat x.1 x.2) =
      c.lanes.flatMap fun l => wrVal (words c) c.f.d.toNat l
        (foldFrom (combineBits c) 0 ((c.lanes.filter fun m => decide (m ≤ l)).map c.bitsA)).toNat := by
  rw [zip_scanFold _ _ _ c.lanes_sorted, List.flatMap_map]
  refine List.flatMap_congr fun l _ => congrArg (wrVal _ _ _) ?_
  rw [← foldFrom_toNat, List.map_map]
  exact congrArg (foldFrom (combine c) 0) (List.map_congr_left fun m _ => c.opA_eq m)

/-- The body of SCANX writes to each lane the combination of the lanes up to it. -/
theorem scanxBody_eq : scanxBody = regBody fun c => c.lanes.flatMap fun l => wrVal (words c) c.f.d.toNat l
    (foldFrom (combineBits c) 0 ((c.lanes.filter fun m => decide (m ≤ l)).map c.bitsA)).toNat :=
  congrArg regBody (funext scanx_writes)

/-- Settles O6: what each instruction of the family writes to a lane, from the sources of all enabled lanes. -/
theorem crossLaneResults : Obligations.CrossLaneResults := by
  refine ⟨fun f => ?_, fun f => ?_, fun f => ?_, fun f => ?_, fun f => ?_⟩
  · exact writesRegs_of_values (fun _ => rfl) ⟨rfl, rfl⟩ fun k i w fr l =>
      congrArg (valueIn _ _) (shfl_value (ctxOf (.shfl f) k i w fr) l)
  · exact writesRegs_of_words rfl (fun _ => rfl) fun k i w fr l => vote_value (ctxOf (.vote f) k i w fr)
  · exact writesRegs_of_values (fun _ => rfl) ⟨rfl, rfl⟩ fun k i w fr l =>
      congrArg (valueIn _ _) (redx_value (ctxOf (.redx f) k i w fr))
  · have run (s : State) : exec (.scanx f) s = runWave (insOf (.scanx f)) scanxBody s := rfl
    rw [scanxBody_eq] at run
    exact writesRegs_of_values run ⟨rfl, rfl⟩ fun k i w fr l => rfl
  · exact writesRegs_of_words rfl (fun _ => rfl) fun k i w fr l => match_value (ctxOf (.matchLanes f) k i w fr) l

end Sys2Proof.Machine
end

section
/-! O8 and O10, control flow: what the end of an instruction leaves of its wave and of everything else, and what a branch adds to
the fragments of its wave and to the minority map of its group. -/

namespace Sys2Proof.Machine

open Sys2Proof

/-! ### What is kept outside a wave -/

theorem keptUpTo_tick (q : Team → Team) (s : State) (k : Nat) : KeptUpTo q s (s.tick (coreOf k)) k :=
  ⟨fun _ _ => rfl, fun _ => rfl, fun _ => State.tick_core .., fun _ h => State.tick_clock _ _ h _, rfl⟩

section
variable {q : Team → Team} {s t : State} {k : Nat} (kept : KeptUpTo q s t k)
include kept

theorem KeptUpTo.setWave (g : Wave → Wave) : KeptUpTo q s (t.setWave k g) k where
  waves j hj := by rw [State.setWave_find, if_neg hj, kept.waves j hj]
  teams j := kept.teams j
  cores c := kept.cores c
  clocks c hc := kept.clocks c hc
  rest := congrArg (State.setWave k g) kept.rest

theorem KeptUpTo.setFrag (i : Nat) (g : Frag → Frag) : KeptUpTo q s (t.setFrag k i g) k := kept.setWave (Wave.setFrag i g)

theorem KeptUpTo.setTeam (j : Nat) {g : Team → Team} (hg : ∀ tm, q (g tm) = q tm) : KeptUpTo q s (t.setTeam j g) k where
  waves := kept.waves
  teams n := by
    rw [State.setTeam_find, ← kept.teams n]
    split
    · rw [Option.map_map]
      exact congrArg (fun f => Option.map f _) (funext hg)
    · rfl
  cores c := kept.cores c
  clocks c hc := kept.clocks c hc
  rest := congrArg (State.setTeam j g) kept.rest

/-- The end of an instruction that goes on changes nothing more outside its wave but what a debugger's step leaves (R228). -/
theorem KeptUpTo.wentOn (absorbs : ∀ tm, q (Team.unstepped tm) = q tm) {u : State} {i : Nat} {w : Wave} {pc : Dword}
    {rep : Option Rep} (went : WentOn t u k i w pc rep) : KeptUpTo q s u k where
  waves j hj := (went.waves j hj).trans (kept.waves j hj)
  teams j := by
    have unstep (x : Option Team) : (x.map Team.unstepped).map q = x.map q := by
      rw [Option.map_map]
      exact congrArg (fun f => Option.map f x) (funext absorbs)
    rw [← kept.teams j, ← unstep, went.teams j, unstep]
  cores c := by
    have : u.core c = t.core c := by rw [went.rest]; rfl
    rw [this, kept.cores c]
  clocks c hc := by
    have : u.core c = t.core c := by rw [went.rest]; rfl
    rw [this, kept.clocks c hc]
  rest := by
    have cores : u.cores = t.cores := by rw [went.rest]
    have frees : u.frees = t.frees := by rw [went.rest]
    rw [cores, frees]
    refine went.rest.trans ?_
    conv_lhs => rw [kept.rest]

end

/-! ### The wave after an instruction that goes on -/

/-- The wave in which fragment i has gone on at an address. -/
def Wave.wentOn (i : Nat) (pc : Dword) (rep : Option Rep) (now : Nat) (parked : Option Nat) (w : Wave) : Wave :=
  { w.setFrag i (·.resume pc rep now) with evictable := false, parked := parked }

section
variable (i : Nat) (pc : Dword) (rep : Option Rep) (now : Nat) (pk : Option Nat) (w : Wave)

theorem Wave.wentOn_frag : (w.wentOn i pc rep now pk).frags[i]? = (w.frags[i]?).map (·.resume pc rep now) :=
  (w.setFrag_get i i _).trans (if_pos rfl)

theorem Wave.wentOn_other {n : Nat} (h : n ≠ i) : (w.wentOn i pc rep now pk).frags[n]? = w.frags[n]? :=
  (w.setFrag_get n i _).trans (if_neg h)

theorem Wave.wentOn_length : (w.wentOn i pc rep now pk).frags.length = w.frags.length := List.length_modify ..

theorem Wave.wentOn_keptButFrags {v : Wave} (h : v = { w with frags := v.frags }) :
    KeptButFrags w (v.wentOn i pc rep now pk) := by
  unfold KeptButFrags
  rw [h]
  rfl

/-- A wave that has changed in registers and bindings has, its fragment having gone on, changed in no more than KeptWave names. -/
theorem Wave.setFrag_wentOn_rest {v : Wave} (h : v = { w with regs := v.regs, binds := v.binds }) (g : Frag → Frag) :
    let w' := (v.setFrag i g).wentOn i pc rep now pk
    w' = { w with regs := w'.regs, binds := w'.binds, frags := w'.frags, parked := w'.parked, evictable := w'.evictable } := by
  rw [h]
  rfl

theorem Wave.setFrag_length (g : Frag → Frag) : (w.setFrag i g).frags.length = w.frags.length := List.length_modify ..

theorem Wave.setFrag_wentOn_frag (g : Frag → Frag) {f : Frag} (h : w.frags[i]? = some f) :
    ((w.setFrag i g).wentOn i pc rep now pk).frags[i]? = some ((g f).resume pc rep now) := by
  rw [Wave.wentOn_frag, Wave.setFrag_get, if_pos rfl, h]
  rfl

theorem Wave.setFrag_wentOn_otherFrags (g : Frag → Frag) : OtherFrags w ((w.setFrag i g).wentOn i pc rep now pk) i :=
  ⟨(Wave.wentOn_length ..).trans (w.setFrag_length i g), fun _ hn =>
    (Wave.wentOn_other _ _ _ _ _ _ hn).trans ((w.setFrag_get _ _ _).trans (if_neg hn))⟩

end

theorem goes_resume {f : Frag} {m : Word} {tok : BitVec 16} (pc : Dword) (now : Nat) (mask : f.mask = m)
    (tokens : f.tokens = tok) :
    Goes (f.resume pc none now) pc m tok :=
  ⟨rfl, mask, tokens, rfl, rfl⟩

/-- An answer of the instruction's body with which the fragment goes on at an address, from a state t in which the wave is v. -/
structure GoesOnFrom (c : Ctx) (s : State) (a : Act) (t : State) (v : Wave) (pc : Dword) (rep : Option Rep) : Prop where
  finish : c.finish s a = (c.goOn pc rep t).park c.k (some c.i) c.f.p
  found : Tab.find c.k t.waves = some v
  faults : v.faults = c.w.faults
  handler : v.handlerFlag = c.w.handlerFlag

theorem GoesOnFrom.wentOn {c : Ctx} {s t : State} {a : Act} {v : Wave} {pc : Dword} {rep : Option Rep}
    (h : GoesOnFrom c s a t v pc rep) (hu : Undisturbed c.ins c.w) : WentOn t (c.finish s a) c.k c.i v pc rep := by
  rw [h.finish]
  exact c.goOn_park pc rep t h.found (by rw [h.faults, h.handler]; exact hu)

/-- An instruction whose body answers so completes. -/
theorem completesVia_of_goesOn {j : Instr} {body : Ctx → State → Act} {q : Team → Team} {base : State → Ctx → State}
    {pre : State → Ctx → Prop} {post : State → State → Ctx → Wave → Prop}
    (run : ∀ s, exec j s = runWave (insOf j) body s) (absorbs : ∀ tm, q (Team.unstepped tm) = q tm)
    (answer : j.wellFormed = true → ∀ s k i w fr, let c := ctxOf j k i w fr
      let s1 := s.tick (coreOf k)
      Issues s k i w fr → Placed (insOf j) w fr → pre s c → ∃ t v pc rep, GoesOnFrom c s1 (body c s1) t v pc rep ∧
        KeptUpTo q (base s c) t k ∧ ∀ u pk,
          (∀ n, (Tab.find n u.teams).map Team.unstepped = (Tab.find n t.teams).map Team.unstepped) →
            post s u c (v.wentOn i pc rep (t.now k) pk)) :
    CompletesVia base q j pre post := by
  intro hw s k i w fr hi ha hu hp
  obtain ⟨t, v, pc, rep, goes, kept, after⟩ := answer hw s k i w fr hi ha.placed hp
  have went := goes.wentOn hu
  obtain ⟨pk, found⟩ := went.wave
  exact ⟨_, _, (run s).trans (runWave_admits hi ha body), kept.wentOn absorbs went, found, after _ pk went.teams⟩

/-- A fragment that issues an instruction no REP body may contain is in none (R163). -/
theorem Placed.no_rep {x : Ins} {w : Wave} {fr : Frag} (h : Placed x w fr) (hf : repForbidden x.op = true) : fr.rep = none :=
  h.rep.resolve_right (by simp [hf])

theorem Ctx.after_of_no_rep (c : Ctx) (h : c.fr.rep = none) : c.after = (c.seqPc, none) := by
  unfold Ctx.after advance
  rw [h]
  rfl

/-! ### Branch targets and spin detection (R142, R158) -/

theorem Ctx.target_eq (c : Ctx) : c.target = c.fr.pc + 4 * c.f.imm.signExtend 64 := by
  unfold Ctx.target Ctx.simm
  rw [BitVec.ofInt_mul]
  rfl

section
variable (pc target : Dword) (f : Frag)

theorem Frag.spin_eq : f.spin pc target = { f with spins := (f.spin pc target).spins, prio := (f.spin pc target).prio } := by
  unfold Frag.spin
  split
  · split <;> rfl
  · rfl

theorem Frag.spin_mask : (f.spin pc target).mask = f.mask := by rw [Frag.spin_eq]
theorem Frag.spin_tokens : (f.spin pc target).tokens = f.tokens := by rw [Frag.spin_eq]
theorem Frag.spin_wait : (f.spin pc target).wait = f.wait := by rw [Frag.spin_eq]
theorem Frag.spin_pc : (f.spin pc target).pc = f.pc := by rw [Frag.spin_eq]
theorem Frag.spin_rep : (f.spin pc target).rep = f.rep := by rw [Frag.spin_eq]

/-- A fragment that has taken no spin branch keeps its priority. -/
theorem Frag.spin_prio (h : f.spins = []) : (f.spin pc target).prio = f.prio := by
  unfold Frag.spin
  rw [h]
  split <;> rfl

end

/-! ### Masks and lanes -/

theorem mem_lanesOf (m : Word) (l : Nat) : l ∈ lanesOf m ↔ l < 32 ∧ m.getLsbD l = true := by
  simp [lanesOf]

theorem exists_mem_lanesOf {m : Word} (h : m ≠ 0) : ∃ l, l ∈ lanesOf m := by
  by_contra none
  refine h (BitVec.eq_of_getLsbD_eq fun l hl => ?_)
  have : ¬ m.getLsbD l = true := fun lane => none ⟨l, (mem_lanesOf m l).2 ⟨hl, lane⟩⟩
  simpa using this

theorem getLsbD_foldl_or {β : Type} (f : β → Word) (xs : List β) (m : Word) (l : Nat) :
    (xs.foldl (fun m x => m ||| f x) m).getLsbD l = true ↔ m.getLsbD l = true ∨ ∃ x ∈ xs, (f x).getLsbD l = true := by
  induction xs generalizing m with
  | nil => simp
  | cons x xs ih => simp [ih, or_assoc]

theorem getLsbD_maskOf (ls : List Nat) {l : Nat} (h : l < 32) : (maskOf ls).getLsbD l = true ↔ l ∈ ls := by
  have bit (m : Nat) : ((1#32 <<< m).getLsbD l = true) ↔ m = l := by
    simp [h]; omega
  unfold maskOf
  rw [getLsbD_foldl_or]
  simp only [bit, exists_eq_right]
  exact or_iff_right (by simp)

/-! ### The minority map (R297, R312) -/

/-- What a fragment's branch leaves of the fragments kept apart by lane-steps changes nothing else of the wave. -/
theorem Wave.settleKin_eq (w : Wave) : w.settleKin = { w with kin := w.settleKin.kin, late := w.settleKin.late } := by
  unfold Wave.settleKin
  split <;> rfl

section
variable (k : Nat) (w : Wave) (ls : List Nat) (out : Word) (f : Nat → Fork) (s : State)

theorem State.markFork_wave {v : Wave} (found : Tab.find k s.waves = some v) :
    ∃ v', Tab.find k (s.markFork k w ls out f).waves = some v' ∧ v' = { v with kin := v'.kin, late := v'.late } ∧
      (w.kin = [] → v' = v) := by
  unfold State.markFork
  split
  · exact ⟨v, found, rfl, fun _ => rfl⟩
  · split
    · split
      · exact ⟨v, found, rfl, fun _ => rfl⟩
      · exact ⟨v, found, rfl, fun _ => rfl⟩
    · refine ⟨{ v with kin := v.noteAll ls f v.kin }.settleKin, ?_, ?_, fun none => absurd ‹¬ _› (by simp [none])⟩
      · rw [State.setWave_find, if_pos rfl, found]; rfl
      · conv_lhs => rw [Wave.settleKin_eq]

theorem State.markFork_kept {base : State} (kept : KeptUpTo Team.unmarked base s k) :
    KeptUpTo Team.unmarked base (s.markFork k w ls out f) k := by
  unfold State.markFork
  split
  · exact kept
  · split
    · split
      · exact kept
      · exact kept.setTeam _ fun _ => rfl
    · exact kept.setWave _

/-- Without lane-steps the items of the lanes that detach enter the map of the wave's team, where what its fragments do counts. -/
theorem State.markFork_minority (hk : w.kin = []) (n : Nat) :
    n ∈ ((s.markFork k w ls out f).teamOf w).elim [] Team.minority ↔
      n ∈ (s.teamOf w).elim [] Team.minority ∨
        (s.teamOf w).isSome ∧ w.handlerFlag = false ∧ w.landing.mode = false ∧
          ∃ l, l < 32 ∧ out.getLsbD l = true ∧ n = 32 * w.num + l := by
  have counts : w.counts = true ↔ w.handlerFlag = false ∧ w.landing.mode = false := by simp [Wave.counts]
  unfold State.markFork
  by_cases hc : w.counts = true
  · obtain ⟨handler, mode⟩ := counts.1 hc
    simp only [hc, hk, handler, mode, Bool.not_true, Bool.false_eq_true, if_false, List.isEmpty_nil, if_true, true_and]
    by_cases ho : out = 0
    · simp [ho]
    · simp only [ho, if_false, State.markMinority, State.teamOf, State.setTeam_find, if_true]
      cases Tab.find w.team s.teams with
      | none => simp
      | some tm =>
        simp only [Option.map_some, Option.elim_some, Option.isSome_some, true_and, List.mem_dedup, List.mem_append, List.mem_map,
          mem_lanesOf, and_assoc, eq_comm (a := n)]
  · simp only [Bool.not_eq_true] at hc
    have silent : ¬ (w.handlerFlag = false ∧ w.landing.mode = false) := by rw [← counts]; simp [hc]
    simp only [hc, Bool.not_false, if_true]
    exact ⟨.inl, fun h => h.resolve_right fun ⟨_, handler, mode, _⟩ => silent ⟨handler, mode⟩⟩

end

/-- A team's map is the same after the end of a debugger's step. -/
theorem minority_of_unstepped {s t : State} {w : Wave}
    (h : ∀ n, (Tab.find n t.teams).map Team.unstepped = (Tab.find n s.teams).map Team.unstepped) :
    (t.teamOf w).elim [] Team.minority = (s.teamOf w).elim [] Team.minority := by
  have minority (x : Option Team) : x.elim [] Team.minority = (x.map Team.unstepped).elim [] Team.minority := by cases x <;> rfl
  rw [minority, minority (s.teamOf w)]
  exact congrArg (Option.elim · [] Team.minority) (h w.team)

/-! ### Fragments that detach (R160, R162) -/

/-- The wave in which fragment i has been changed and other fragments have been added. -/
def Wave.forked (i : Nat) (g : Frag → Frag) (new : List Frag) (w : Wave) : Wave :=
  { w.setFrag i g with frags := (w.setFrag i g).frags ++ new }

theorem Wave.forked_nil (i : Nat) (g : Frag → Frag) (w : Wave) : w.forked i g [] = w.setFrag i g := by
  unfold Wave.forked
  rw [List.append_nil]

theorem MarksDetached.congr {s t : State} {c : Ctx} {p q : Nat → Prop} (h : MarksDetached s t c p)
    (same : ∀ l, l < 32 → (p l ↔ q l)) : MarksDetached s t c q := by
  intro n
  rw [h n]
  exact or_congr_right (and_congr_right fun _ => and_congr_right fun _ => and_congr_right fun _ => exists_congr fun l =>
    and_congr_right fun hl => and_congr_left fun _ => same l hl)

/-- What a branch leaves: the issuing fragment, changed by g, goes on at an address, the fragments of a list have been added, and
the lanes of a mask have detached. -/
structure Forks (s t : State) (c : Ctx) (w' : Wave) (g : Frag → Frag) (new : List Frag) (pc : Dword) (out : Word) : Prop where
  rest : KeptButFrags { c.w with kin := w'.kin, late := w'.late } w'
  length : w'.frags.length = c.w.frags.length + new.length
  others : ∀ n, n < c.w.frags.length → n ≠ c.i → w'.frags[n]? = c.w.frags[n]?
  added : ∀ n, w'.frags[c.w.frags.length + n]? = new[n]?
  issuing : ∃ now, w'.frags[c.i]? = some ((g c.fr).resume pc none now)
  marks : c.w.kin = [] → w'.kin = [] ∧ w'.late = c.w.late ∧ MarksDetached s t c fun l => out.getLsbD l = true

/-- A branch that goes on from a state in which its fragments have been placed and the map marked. -/
theorem forks_of_markFork {s x u : State} {c : Ctx} {g : Frag → Frag} {new : List Frag} {ls : List Nat} {out : Word}
    {f : Nat → Fork} {v : Wave} (pc : Dword) (now : Nat) (pk : Option Nat) (frag : c.w.frags[c.i]? = some c.fr)
    (teams : x.teams = s.teams)
    (marked : v = { c.w.forked c.i g new with kin := v.kin, late := v.late } ∧ (c.w.kin = [] → v = c.w.forked c.i g new))
    (after : ∀ n, (Tab.find n u.teams).map Team.unstepped =
      (Tab.find n (x.markFork c.k c.w ls out f).teams).map Team.unstepped) :
    Forks s u c (v.wentOn c.i pc none now pk) g new pc out := by
  obtain ⟨rest, unstepped⟩ := marked
  have frags : v.frags = (c.w.setFrag c.i g).frags ++ new := by rw [rest]; rfl
  have len : (c.w.setFrag c.i g).frags.length = c.w.frags.length := c.w.setFrag_length c.i g
  have lt : c.i < c.w.frags.length := (List.getElem?_eq_some_iff.1 frag).1
  have old {n : Nat} (hn : n < c.w.frags.length) : v.frags[n]? = (c.w.setFrag c.i g).frags[n]? := by
    rw [frags, List.getElem?_append_left (by omega)]
  refine ⟨?_, ?_, fun n hn hi => ?_, fun n => ?_, ⟨now, ?_⟩, fun hk => ⟨?_, ?_, fun n => ?_⟩⟩
  · unfold KeptButFrags
    rw [rest]
    rfl
  · rw [Wave.wentOn_length, frags, List.length_append, len]
  · rw [Wave.wentOn_other _ _ _ _ _ _ hi, old hn, Wave.setFrag_get, if_neg hi]
  · rw [Wave.wentOn_other _ _ _ _ _ _ (by omega), frags, List.getElem?_append_right (by omega), len, Nat.add_sub_cancel_left]
  · rw [Wave.wentOn_frag, old lt, Wave.setFrag_get, if_pos rfl, frag]
    rfl
  · show v.kin = []
    rw [unstepped hk]; exact hk
  · show v.late = _
    rw [unstepped hk]; rfl
  · rw [minority_of_unstepped after, State.markFork_minority _ _ _ _ _ _ hk]
    have team : x.teamOf c.w = s.teamOf c.w := by unfold State.teamOf; rw [teams]
    rw [team]

/-- An instruction whose body answers so, with a map marked, completes up to the marks. -/
theorem completes_of_forks {j : Instr} {body : Ctx → State → Act} {pre : State → Ctx → Prop}
    {post : State → State → Ctx → Wave → Prop} (run : ∀ s, exec j s = runWave (insOf j) body s)
    (answer : j.wellFormed = true → ∀ s k i w fr, let c := ctxOf j k i w fr
      let s1 := s.tick (coreOf k)
      Issues s k i w fr → Placed (insOf j) w fr → pre s c → ∃ x g new pc ls out f,
        c.finish s1 (body c s1) = (c.goOn pc none (x.markFork k w ls out f)).park k (some i) c.f.p ∧
        KeptUpTo Team.unmarked s x k ∧ x.teams = s.teams ∧ Tab.find k x.waves = some (w.forked i g new) ∧
        ∀ u w', Forks s u c w' g new pc out → post s u c w') :
    CompletesUpTo Team.unmarked j pre post := by
  refine completesVia_of_goesOn run (fun _ => rfl) fun hw s k i w fr hi hp hpre => ?_
  obtain ⟨x, g, new, pc, ls, out, f, fin, kept, teams, found, after⟩ := answer hw s k i w fr hi hp hpre
  obtain ⟨v, marked, rest, unstepped⟩ := x.markFork_wave k w ls out f found
  refine ⟨_, v, pc, none, ⟨fin, marked, by rw [rest]; rfl, by rw [rest]; rfl⟩, x.markFork_kept k w ls out f kept,
    fun u pk teams' => after u _ ?_⟩
  exact forks_of_markFork (c := ctxOf j k i w fr) pc _ pk hi.frag teams ⟨rest, unstepped⟩ teams'

end Sys2Proof.Machine
end

section
/-! O8: BRA, NOP and BRC. -/

namespace Sys2Proof.Machine

open Sys2Proof

/-! ### Instructions that write nothing -/

theorem Tab.upd_id {α : Type} (k : Nat) (t : Tab α) : Tab.upd k id t = t := by
  unfold Tab.upd
  exact (List.map_congr_left fun e _ => ite_self e).trans (List.map_id t)

/-- A body that writes no register changes nothing. -/
theorem State.writeRegs_nil (c : Ctx) (s : State) : s.writeRegs c [] = s := by
  have same : (fun w : Wave => (w.writeRegs []).setFrag c.i fun f =>
      if w.changes c.fr.mask [] then { f with spins := [], prio := 0 } else f) = id :=
    funext fun w => congrArg (fun fs => { w with frags := fs }) (List.modify_id c.i w.frags)
  unfold State.writeRegs State.setWave
  rw [same, Tab.upd_id]

theorem nopBody_eq : nopBody = regBody fun _ => [] :=
  funext fun c => funext fun s => congrArg Act.next (s.writeRegs_nil c).symm

/-- NOP writes no register. -/
theorem writesRegs_of_nopBody {j : Instr} (run : ∀ s, exec j s = runWave (insOf j) nopBody s) :
    WritesRegs j fun _ _ => [] :=
  writesRegs_of_regBody (g := fun _ => []) (nopBody_eq ▸ run) (fun _ _ _ _ => by simp [laneWrites]) (by simp)

/-! ### BRA (R159) -/

/-- The whole fragment moves to the target and keeps its tokens. -/
theorem completes_of_braBody {j : Instr} {off : Dword} (run : ∀ s, exec j s = runWave (insOf j) braBody s)
    (offset : (insOf j).f.imm.signExtend 64 = off) :
    Completes j (fun _ _ => True) fun _ _ c w' =>
      KeptButFrags c.w w' ∧ OtherFrags c.w w' c.i ∧
        ∃ fr', w'.frags[c.i]? = some fr' ∧ Goes fr' (c.fr.pc + 4 * off) c.fr.mask c.fr.tokens := by
  refine completesVia_of_goesOn run (fun _ => rfl) fun _ s k i w fr hi _ _ => ?_
  let c := ctxOf j k i w fr
  have target : c.target = fr.pc + 4 * off := by rw [c.target_eq, ← offset]
  refine ⟨(s.tick (coreOf k)).setFrag k i (·.spin fr.pc c.target), w.setFrag i (·.spin fr.pc c.target), c.target, none,
    ⟨rfl, ?_, rfl, rfl⟩, (keptUpTo_tick _ s k).setFrag i _, fun u pk _ =>
      ⟨Wave.wentOn_keptButFrags _ _ _ _ _ _ rfl, Wave.setFrag_wentOn_otherFrags .., _,
        Wave.setFrag_wentOn_frag _ _ _ _ _ _ _ hi.frag, ?_⟩⟩
  · rw [State.setFrag_find, if_pos rfl, State.tick_waves, hi.wave]
    rfl
  · exact target ▸ goes_resume _ _ (Frag.spin_mask ..) (Frag.spin_tokens ..)

/-! ### BRC (R160) -/

section
variable (c : Ctx)

/-- The lanes that do not take the branch. -/
def Ctx.restMask : Word := c.fr.mask &&& ~~~takenMask c

/-- The tokens after a BRC. -/
def Ctx.brcTokens : BitVec 16 := c.fr.tokens ||| (1#16 <<< c.f.c.toNat)

/-- The fragment with its token added. -/
def Ctx.addToken (f : Frag) : Frag := { f with tokens := c.brcTokens }

/-- What a BRC is to the lanes of the fragments kept apart by lane-steps. -/
def Ctx.brcFork (l : Nat) : Fork := .brc c.f.c.toNat ((takenMask c).getLsbD l)

/-- The fragment that keeps its lanes but those of a mask. -/
def Ctx.brcStays (m : Word) (f : Frag) : Frag := { c.addToken f with mask := f.mask &&& ~~~m }

/-- The fragment that a BRC detaches, before a spin branch is noted in it. -/
def Ctx.brcDetached (m : Word) (pc : Dword) : Frag := { c.fr.detach m pc with tokens := c.brcTokens, rep := none }

variable {c} (s : State)

theorem brcBody_all (rest : c.restMask = 0) : brcBody c s = .goto c.target
    (((s.setFrag c.k c.i c.addToken).setFrag c.k c.i (·.spin c.fr.pc c.target)).markFork c.k c.w (lanesOf c.fr.mask) 0
      c.brcFork) :=
  if_pos rest

theorem brcBody_none (rest : c.restMask ≠ 0) (taken : takenMask c = 0) : brcBody c s = .next
    ((s.setFrag c.k c.i c.addToken).markFork c.k c.w (lanesOf c.fr.mask) 0 c.brcFork) :=
  (if_neg rest).trans (if_pos taken)

/-- The wave after a BRC that has divided its fragment. -/
def Ctx.brcForked (m : Word) (pc : Dword) (stays leaves : Frag → Frag) (w : Wave) : Wave :=
  { w.setFrag c.i (fun f => stays { f with mask := f.mask &&& ~~~m }) with
    frags := (w.setFrag c.i (fun f => stays { f with mask := f.mask &&& ~~~m })).frags ++
      [leaves { (w.frags.getD c.i c.fr).detach m pc with tokens := c.brcTokens, rep := none }] }

theorem brcBody_taken_detach (rest : c.restMask ≠ 0) (taken : takenMask c ≠ 0) (fits : tooManyFrags c 1 = false)
    (small : (lanesOf (takenMask c)).length ≤ (lanesOf c.restMask).length) : brcBody c s = .goto c.seqPc
      (((s.setFrag c.k c.i c.addToken).setWave c.k (c.brcForked (takenMask c) c.target id (·.spin c.fr.pc c.target))).markFork
        c.k c.w (lanesOf c.fr.mask) (takenMask c) c.brcFork) := by
  refine ((if_neg rest).trans (if_neg taken)).trans ?_
  rw [fits]
  unfold Ctx.restMask at small
  simp only [small, decide_true, Bool.not_true, if_true, Bool.false_eq_true, if_false]
  rfl

theorem brcBody_rest_detach (rest : c.restMask ≠ 0) (taken : takenMask c ≠ 0) (fits : tooManyFrags c 1 = false)
    (small : ¬ (lanesOf (takenMask c)).length ≤ (lanesOf c.restMask).length) : brcBody c s = .goto c.target
      (((s.setFrag c.k c.i c.addToken).setWave c.k (c.brcForked c.restMask c.seqPc (·.spin c.fr.pc c.target) id)).markFork
        c.k c.w (lanesOf c.fr.mask) c.restMask c.brcFork) := by
  refine ((if_neg rest).trans (if_neg taken)).trans ?_
  rw [fits]
  unfold Ctx.restMask at small
  simp only [small, decide_false, Bool.not_false, if_true, Bool.false_eq_true, if_false]
  rfl

theorem Ctx.brcForked_eq (m : Word) (pc : Dword) (stays leaves : Frag → Frag) (frag : c.w.frags[c.i]? = some c.fr) :
    c.brcForked m pc stays leaves (c.w.setFrag c.i c.addToken) =
      c.w.forked c.i (fun f => stays (c.brcStays m f)) [leaves (c.brcDetached m pc)] := by
  unfold Ctx.brcForked
  rw [Wave.setFrag_setFrag, List.getD_eq_getElem?_getD, Wave.setFrag_get, if_pos rfl, frag]
  rfl

theorem tooManyFrags_of_fits {n : Nat} (h : c.w.landing.inReg = true → c.w.frags.length + n ≤ 32) :
    tooManyFrags c n = false := by
  unfold tooManyFrags
  cases hr : c.w.landing.inReg with
  | false => rfl
  | true => simpa using h hr

end

/-- What a BRC leaves, in the obligation's terms. -/
def BrcLeaves (s t : State) (c : Ctx) (w' : Wave) : Prop :=
  let small := (lanesOf (takenMask c)).length ≤ (lanesOf c.restMask).length
  let out := if small then takenMask c else c.restMask
  let target := c.fr.pc + 4 * c.f.imm.signExtend 64
  let next := c.fr.pc + 12
  KeptButFrags { c.w with kin := w'.kin, late := w'.late } w' ∧
  (∀ n, n < c.w.frags.length → n ≠ c.i → w'.frags[n]? = c.w.frags[n]?) ∧
  (c.w.kin = [] → w'.kin = [] ∧ w'.late = c.w.late ∧
    MarksDetached s t c fun l => c.restMask ≠ 0 ∧ takenMask c ≠ 0 ∧ out.getLsbD l) ∧
  ∃ fr', w'.frags[c.i]? = some fr' ∧
    if c.restMask = 0 ∨ takenMask c = 0 then
      w'.frags.length = c.w.frags.length ∧ Goes fr' (if c.restMask = 0 then target else next) c.fr.mask c.brcTokens
    else
      w'.frags.length = c.w.frags.length + 1 ∧
      Goes fr' (if small then next else target) (c.fr.mask &&& ~~~out) c.brcTokens ∧
      ∃ fr2, w'.frags[c.w.frags.length]? = some fr2 ∧ Goes fr2 (if small then target else next) out c.brcTokens ∧
        fr2.prio = c.fr.prio

section
variable {s u : State} {c : Ctx} {w' : Wave} {g : Frag → Frag} {pc : Dword}

/-- Without divergence the whole fragment goes to one place. -/
theorem brcLeaves_whole (h : Forks s u c w' g [] pc 0) (whole : c.restMask = 0 ∨ takenMask c = 0)
    (there : pc = if c.restMask = 0 then c.fr.pc + 4 * c.f.imm.signExtend 64 else c.fr.pc + 12)
    (mask : (g c.fr).mask = c.fr.mask) (tokens : (g c.fr).tokens = c.brcTokens) : BrcLeaves s u c w' := by
  obtain ⟨now, frag⟩ := h.issuing
  refine ⟨h.rest, h.others, fun hk => ?_, _, frag, ?_⟩
  · obtain ⟨kin, late, marks⟩ := h.marks hk
    refine ⟨kin, late, marks.congr fun l _ => ⟨fun out => absurd out (by simp), fun ⟨rest, taken, _⟩ => ?_⟩⟩
    exact (whole.elim rest taken).elim
  · rw [if_pos whole]
    exact ⟨h.length, there ▸ goes_resume _ _ mask tokens⟩

/-- With divergence one side detaches. -/
theorem brcLeaves_split {d : Frag} {m : Word} (h : Forks s u c w' g [d] pc m) (rest : c.restMask ≠ 0) (taken : takenMask c ≠ 0)
    (out : m = if (lanesOf (takenMask c)).length ≤ (lanesOf c.restMask).length then takenMask c else c.restMask)
    (here : pc = if (lanesOf (takenMask c)).length ≤ (lanesOf c.restMask).length then c.fr.pc + 12
      else c.fr.pc + 4 * c.f.imm.signExtend 64)
    (mask : (g c.fr).mask = c.fr.mask &&& ~~~m) (tokens : (g c.fr).tokens = c.brcTokens)
    (detached : Goes d (if (lanesOf (takenMask c)).length ≤ (lanesOf c.restMask).length
      then c.fr.pc + 4 * c.f.imm.signExtend 64 else c.fr.pc + 12) m c.brcTokens) (prio : d.prio = c.fr.prio) :
    BrcLeaves s u c w' := by
  obtain ⟨now, frag⟩ := h.issuing
  subst here out
  refine ⟨h.rest, h.others, fun hk => ?_, _, frag, ?_⟩
  · obtain ⟨kin, late, marks⟩ := h.marks hk
    exact ⟨kin, late, marks.congr fun l _ => ⟨fun out => ⟨rest, taken, out⟩, fun ⟨_, _, out⟩ => out⟩⟩
  · rw [if_neg (not_or.2 ⟨rest, taken⟩)]
    exact ⟨h.length, goes_resume _ _ mask tokens, d, h.added 0, detached, prio⟩

end

theorem brc_completes (f : XF) : CompletesUpTo Team.unmarked (.brc f)
    (fun _ c => c.w.landing.inReg = true → c.w.frags.length < 32) BrcLeaves := by
  refine completes_of_forks (fun _ => rfl) fun hw s k i w fr hi hp pre => ?_
  let c := ctxOf (.brc f) k i w fr
  have frag : c.w.frags[c.i]? = some c.fr := hi.frag
  have next : c.seqPc = fr.pc + 12 := by
    have lit : f.lit = none := XF.ok_lit (ok_of_wellFormed (j := .brc f) hw rfl) rfl
    show fr.pc + BitVec.ofNat 64 (Ins.ofX 0x0C1 f).len = _
    simp [Ins.ofX, lit]
  have kept := keptUpTo_tick Team.unmarked s k
  have found : Tab.find k ((s.tick (coreOf k)).setFrag k i c.addToken).waves = some (w.setFrag i c.addToken) := by
    rw [State.setFrag_find, if_pos rfl, State.tick_waves, hi.wave]
    rfl
  -- every lane takes the branch
  by_cases rest : c.restMask = 0
  · refine ⟨_, fun f => (c.addToken f).spin fr.pc c.target, [], c.target, _, 0, _, congrArg (c.finish _) (brcBody_all _ rest),
      (kept.setFrag _ _).setFrag _ _, rfl, ?_, fun u w' h => brcLeaves_whole h (.inl rest) ?_ ?_ ?_⟩
    · rw [State.setFrag_find, if_pos rfl, found, Wave.forked_nil]
      exact congrArg some (Wave.setFrag_setFrag ..)
    · rw [if_pos rest, c.target_eq]
    · exact Frag.spin_mask ..
    · exact Frag.spin_tokens ..
  -- none does
  by_cases taken : takenMask c = 0
  · refine ⟨(s.tick (coreOf k)).setFrag k i c.addToken, c.addToken, [], fr.pc + 12, lanesOf fr.mask, 0, c.brcFork, ?_,
      kept.setFrag _ _, rfl, ?_, fun u w' h => brcLeaves_whole h (.inr taken) ?_ rfl rfl⟩
    · refine (congrArg (c.finish _) (brcBody_none _ rest taken)).trans ?_
      show (c.goOn c.after.1 c.after.2 _).park _ _ _ = _
      rw [c.after_of_no_rep (hp.no_rep rfl), next]
    · rw [found, Wave.forked_nil]
    · rw [if_neg rest]
  -- the lanes diverge: the taken side detaches, or the other
  have fits : tooManyFrags c 1 = false := tooManyFrags_of_fits pre
  by_cases small : (lanesOf (takenMask c)).length ≤ (lanesOf c.restMask).length
  · refine ⟨_, c.brcStays (takenMask c), [(c.brcDetached (takenMask c) c.target).spin fr.pc c.target], c.seqPc, _, _, _,
      congrArg (c.finish _) (brcBody_taken_detach _ rest taken fits small),
      (kept.setFrag _ _).setWave _, rfl, ?_, fun u w' h => brcLeaves_split h rest taken ?_ ?_ rfl rfl ?_ ?_⟩
    · rw [State.setWave_find, if_pos rfl, found]
      exact congrArg some (c.brcForked_eq _ _ _ _ frag)
    · rw [if_pos small]
    · rw [if_pos small, next]
    · rw [if_pos small, ← c.target_eq]
      exact ⟨Frag.spin_pc .., Frag.spin_mask .., Frag.spin_tokens .., Frag.spin_wait .., Frag.spin_rep ..⟩
    · exact Frag.spin_prio _ _ _ rfl
  · refine ⟨_, fun f => (c.brcStays c.restMask f).spin fr.pc c.target, [c.brcDetached c.restMask c.seqPc], c.target, _, _, _,
      congrArg (c.finish _) (brcBody_rest_detach _ rest taken fits small),
      (kept.setFrag _ _).setWave _, rfl, ?_, fun u w' h => brcLeaves_split h rest taken ?_ ?_ ?_ ?_ ?_ rfl⟩
    · rw [State.setWave_find, if_pos rfl, found]
      exact congrArg some (c.brcForked_eq _ _ _ _ frag)
    · rw [if_neg small]
    · rw [if_neg small, c.target_eq]
    · exact Frag.spin_mask ..
    · exact Frag.spin_tokens ..
    · rw [if_neg small, ← next]
      exact ⟨rfl, rfl, rfl, rfl, rfl⟩

/-- Settles O8: BRA moves its fragment, NOP is a body that writes nothing, and BRC adds its token and divides the fragment where
its lanes diverge. -/
theorem branchesAndNop : Obligations.BranchesAndNop :=
  ⟨⟨fun _ => completes_of_braBody (fun _ => rfl) rfl,
      fun f => completes_of_braBody (fun _ => rfl) (signExtend_signExtend_imm7 f.b 64),
      fun _ => writesRegs_of_nopBody fun _ => rfl, fun _ => writesRegs_of_nopBody fun _ => rfl⟩,
    brc_completes⟩

end Sys2Proof.Machine
end

section
/-! O10, R162: CALL, JMPX and RET. -/

namespace Sys2Proof.Machine

open Sys2Proof

/-! ### CALL -/

section
variable (c : Ctx)

/-- The link pair in every active lane. -/
def Ctx.linkWrites : List RegW := (lanesOf c.fr.mask).flatMap fun l => wrVal 2 46 l c.seqPc.toNat

theorem Ctx.linkWrites_named : ∀ x ∈ c.linkWrites, x.1 < 128 ∧ x.2.1 < 32 := by
  intro x hx
  obtain ⟨l, hl, hx⟩ := List.mem_flatMap.1 hx
  have lane := ((mem_lanesOf ..).1 hl).1
  have : x = (46, l, BitVec.ofNat 32 c.seqPc.toNat) ∨ x = (47, l, BitVec.ofNat 32 (c.seqPc.toNat / 2 ^ 32)) := by
    simpa [wrVal] using hx
  rcases this with rfl | rfl
  · exact ⟨by norm_num, lane⟩
  · exact ⟨by norm_num, lane⟩

theorem Ctx.linkWrites_reg {r l : Nat} (hr : r < 128) (hl : l < 32) :
    (c.w.writeRegs c.linkWrites).reg r l =
      if c.fr.mask.getLsbD l ∧ r = 46 then c.seqPc.setWidth 32
      else if c.fr.mask.getLsbD l ∧ r = 47 then (c.seqPc >>> 32).setWidth 32 else c.w.reg r l := by
  have low : BitVec.ofNat 32 c.seqPc.toNat = c.seqPc.setWidth 32 := rfl
  have high : BitVec.ofNat 32 (c.seqPc.toNat / 2 ^ 32) = (c.seqPc >>> 32).setWidth 32 :=
    BitVec.eq_of_toNat_eq (by simp [Nat.shiftRight_eq_div_pow])
  rw [Wave.writeRegs_reg _ c.linkWrites_named _ hr hl]
  unfold Ctx.linkWrites
  simp only [wrVal_eq]
  rw [foldl_lanes _ (lanesOf_nodup _), low.symm, high.symm]
  simp only [mem_lanesOf, hl, true_and, valueIn, if_true, afterWrites, List.foldl_cons, List.foldl_nil]
  by_cases lane : c.fr.mask.getLsbD l = true
  · simp only [lane, if_true, true_and]
    by_cases r46 : r = 46
    · simp [r46]
    · by_cases r47 : r = 47
      · simp [r47]
      · simp [r46, r47, Ne.symm r46, Ne.symm r47]
  · simp [lane]

end

theorem completes_of_callBody {j : Instr} {off : Dword} (run : ∀ s, exec j s = runWave (insOf j) callBody s)
    (offset : (insOf j).f.imm.signExtend 64 = off) :
    Completes j (fun _ _ => True) fun _ _ c w' =>
      KeptWave c.w w' c.i ∧ (∃ fr', w'.frags[c.i]? = some fr' ∧ Goes fr' (c.fr.pc + 4 * off) c.fr.mask c.fr.tokens) ∧
      ∀ r l, r < 128 → l < 32 →
        w'.reg r l = if c.fr.mask.getLsbD l ∧ r = 46 then c.seqPc.setWidth 32
          else if c.fr.mask.getLsbD l ∧ r = 47 then (c.seqPc >>> 32).setWidth 32 else c.w.reg r l := by
  refine completesVia_of_goesOn run (fun _ => rfl) fun _ s k i w fr hi _ _ => ?_
  let c := ctxOf j k i w fr
  have target : c.target = fr.pc + 4 * off := by rw [c.target_eq, ← offset]
  let g (f : Frag) : Frag := if w.changes fr.mask c.linkWrites then { f with spins := [], prio := 0 } else f
  have mask : (g fr).mask = fr.mask := by dsimp only [g]; split <;> rfl
  have tokens : (g fr).tokens = fr.tokens := by dsimp only [g]; split <;> rfl
  have frags := w.writeRegs_frags c.linkWrites
  refine ⟨(s.tick (coreOf k)).writeRegs c c.linkWrites, (w.writeRegs c.linkWrites).setFrag i g, c.target, none,
    ⟨rfl, ?_, w.writeRegs_faults .., w.writeRegs_handlerFlag ..⟩, (keptUpTo_tick _ s k).setWave _, fun u pk _ =>
      ⟨⟨?_, fun n hn => ?_⟩, ⟨_, Wave.setFrag_wentOn_frag _ _ _ _ _ _ _ (frags ▸ hi.frag), ?_⟩, fun r l hr hl => ?_⟩⟩
  · exact (State.setWave_find ..).trans ((if_pos rfl).trans (congrArg _ hi.wave))
  · exact w.setFrag_wentOn_rest i _ _ _ pk (w.writeRegs_rest c.linkWrites) g
  · rw [(Wave.setFrag_wentOn_otherFrags i _ _ _ pk (w.writeRegs c.linkWrites) g).2 n hn, frags]
  · exact target ▸ goes_resume _ _ mask tokens
  · exact (Wave.reg_congr rfl rfl r l).trans (c.linkWrites_reg hr hl)

/-! ### Groups of lanes by target (JMPX, RET) -/

/-- Values gathered one by one, each once, are the list with its duplicates erased. -/
theorem foldl_gather_eq_eraseDups {α : Type} [DecidableEq α] (xs acc : List α) :
    xs.foldl (fun ts t => if ts.contains t then ts else ts ++ [t]) acc =
      acc ++ (xs.filter fun x => !acc.contains x).eraseDups := by
  induction xs generalizing acc with
  | nil => simp
  | cons x xs ih =>
    rw [List.foldl_cons, ih]
    by_cases seen : acc.contains x = true
    · simp only [seen, if_true, List.filter_cons, Bool.not_true, Bool.false_eq_true, if_false]
    · rw [if_neg seen, List.filter_cons_of_pos (by simpa using seen), List.eraseDups_cons, List.filter_filter, List.append_assoc]
      refine congrArg (acc ++ x :: List.eraseDups ·) (List.filter_congr fun y _ => ?_)
      by_cases same : y = x
      · simp [same]
      · simp [same]

theorem groupTargets_eq (g : Nat → Dword) (ls : List Nat) :
    groupTargets g ls = (ls.map g).eraseDups.map fun p => (p, maskOf (ls.filter fun l => g l == p)) := by
  unfold groupTargets
  rw [foldl_gather_eq_eraseDups]
  simp

section
variable (n : Nat) (c : Ctx)

/-- The lanes that jump to an address. -/
def Ctx.jumpPart (p : Dword) : Word := laneMask (fun l => c.w.pair n l == p) c.fr.mask

/-- The targets of the lanes in ascending order, each once. -/
def Ctx.jumpTargets : List Dword := ((lanesOf c.fr.mask).map (c.w.pair n)).eraseDups

/-- The fragment that a jump detaches. -/
def Ctx.jumpDetached (p : Dword) : Frag := { c.fr.detach (c.jumpPart n p) p with rep := none }

/-- The lanes that detach. -/
def Ctx.jumpOut (ps : List Dword) : Word := ps.foldl (fun m p => m ||| c.jumpPart n p) 0

theorem Ctx.jumpPart_iff {p : Dword} {l : Nat} (hl : l < 32) :
    (c.jumpPart n p).getLsbD l = true ↔ c.fr.mask.getLsbD l = true ∧ c.w.pair n l = p := by
  unfold Ctx.jumpPart laneMask
  rw [getLsbD_maskOf _ hl]
  simp [mem_lanesOf, hl]

/-- The lanes that detach are those whose target is not the first one. -/
theorem Ctx.jumpOut_iff {p : Dword} {ps : List Dword} (h : c.jumpTargets n = p :: ps) {l : Nat} (hl : l < 32) :
    (c.jumpOut n ps).getLsbD l = true ↔ c.fr.mask.getLsbD l = true ∧ c.w.pair n l ≠ p := by
  have named (l : Nat) (lane : l ∈ lanesOf c.fr.mask) : c.w.pair n l ∈ p :: ps := by
    rw [← h]
    exact List.mem_eraseDups.2 (List.mem_map_of_mem lane)
  have fresh : p ∉ ps := by
    unfold Ctx.jumpTargets at h
    cases hx : (lanesOf c.fr.mask).map (c.w.pair n) with
    | nil => simp [hx] at h
    | cons x xs =>
      rw [hx, List.eraseDups_cons] at h
      obtain ⟨rfl, rfl⟩ := List.cons.inj h
      simp [List.mem_eraseDups]
  unfold Ctx.jumpOut
  rw [getLsbD_foldl_or]
  simp only [c.jumpPart_iff n hl]
  constructor
  · rintro (zero | ⟨q, hq, lane, rfl⟩)
    · exact absurd zero (by simp)
    · exact ⟨lane, fun same => fresh (same ▸ hq)⟩
  · rintro ⟨lane, other⟩
    have target : c.w.pair n l ∈ p :: ps := named l ((mem_lanesOf ..).2 ⟨hl, lane⟩)
    exact .inr ⟨_, (List.mem_cons.1 target).resolve_left other, lane, rfl⟩

/-- The wave after a jump to a first target and others: the fragment keeps the lanes of the first. -/
def Ctx.jumpForked (p : Dword) (ps : List Dword) (w : Wave) : Wave :=
  { w.setFrag c.i (fun f => { f with mask := c.jumpPart n p }) with
    frags := (w.setFrag c.i (fun f => { f with mask := c.jumpPart n p })).frags ++
      ps.map fun q => { (w.frags.getD c.i c.fr).detach (c.jumpPart n q) q with rep := none } }

theorem Ctx.jumpForked_eq (p : Dword) (ps : List Dword) (frag : c.w.frags[c.i]? = some c.fr) :
    c.jumpForked n p ps c.w = c.w.forked c.i (fun f => { f with mask := c.jumpPart n p }) (ps.map (c.jumpDetached n)) := by
  unfold Ctx.jumpForked
  rw [List.getD_eq_getElem?_getD, frag]
  rfl

variable {n c} {p : Dword} {ps : List Dword}

/-- Targets that all are multiples of 4 raise no trap, and a place for every new fragment none either. -/
theorem jumpBody_eq {a : Ctx → Nat} (s : State) (reg : a c = n)
    (aligned : ∀ l ∈ lanesOf c.fr.mask, (c.w.pair n l).toNat % 4 = 0) (targets : c.jumpTargets n = p :: ps)
    (fits : tooManyFrags c ps.length = false) :
    jumpBody a c s = .goto p ((s.setWave c.k (c.jumpForked n p ps)).markFork c.k c.w (lanesOf c.fr.mask) (c.jumpOut n ps)
      fun l => .jump (c.w.pair n l)) := by
  have straight : (lanesOf c.fr.mask).find? (fun l => bits (c.w.pair n l) 0 2 != 0) = none := by
    refine List.find?_eq_none.2 fun l hl => ?_
    have low : bits (c.w.pair n l) 0 2 = 0 := BitVec.eq_of_toNat_eq (by simp [bits, aligned l hl])
    simp [low]
  have groups : groupTargets (c.w.pair n) (lanesOf c.fr.mask) = (p :: ps).map fun q => (q, c.jumpPart n q) := by
    rw [← targets]
    exact groupTargets_eq ..
  unfold jumpBody
  simp only [reg, straight, groups, List.map_cons, List.length_map, fits, Bool.and_false, Bool.false_eq_true, if_false,
    List.map_map, List.foldl_map]
  rfl

end

/-- What a jump leaves, in the obligation's terms. -/
def JumpLeaves (n : Nat) (s t : State) (c : Ctx) (w' : Wave) : Prop :=
  KeptButFrags { c.w with kin := w'.kin, late := w'.late } w' ∧
  (∀ m, m < c.w.frags.length → m ≠ c.i → w'.frags[m]? = c.w.frags[m]?) ∧
  w'.frags.length + 1 = c.w.frags.length + (c.jumpTargets n).length ∧
  (c.w.kin = [] → w'.kin = [] ∧ w'.late = c.w.late ∧
    MarksDetached s t c (fun l => c.fr.mask.getLsbD l ∧ some (c.w.pair n l) ≠ (c.jumpTargets n)[0]?)) ∧
  ∀ m p, (c.jumpTargets n)[m]? = some p → ∃ fr',
    w'.frags[if m = 0 then c.i else c.w.frags.length + m - 1]? = some fr' ∧ Goes fr' p (c.jumpPart n p) c.fr.tokens ∧
      (m ≠ 0 → fr'.prio = c.fr.prio)

theorem jumpLeaves_of_forks {n : Nat} {s u : State} {c : Ctx} {w' : Wave} {p : Dword} {ps : List Dword}
    (h : Forks s u c w' (fun f => { f with mask := c.jumpPart n p }) (ps.map (c.jumpDetached n)) p (c.jumpOut n ps))
    (targets : c.jumpTargets n = p :: ps) : JumpLeaves n s u c w' := by
  obtain ⟨now, frag⟩ := h.issuing
  unfold JumpLeaves
  rw [targets]
  refine ⟨h.rest, h.others, ?_, fun hk => ?_, fun m q hq => ?_⟩
  · rw [h.length, List.length_map, List.length_cons, Nat.add_assoc]
  · obtain ⟨kin, late, marks⟩ := h.marks hk
    refine ⟨kin, late, marks.congr fun l hl => (c.jumpOut_iff n targets hl).trans ?_⟩
    simp
  · cases m with
    | zero =>
      cases hq
      exact ⟨_, frag, goes_resume _ _ rfl rfl, fun zero => absurd rfl zero⟩
    | succ m =>
      have there : ps[m]? = some q := hq
      refine ⟨c.jumpDetached n q, ?_, ⟨rfl, rfl, rfl, rfl, rfl⟩, fun _ => rfl⟩
      rw [if_neg (Nat.succ_ne_zero m), ← Nat.add_assoc, Nat.add_sub_cancel, h.added, List.getElem?_map, there]
      rfl

theorem completes_of_jumpBody {j : Instr} {a : Ctx → Nat} (n : Nat) (run : ∀ s, exec j s = runWave (insOf j) (jumpBody a) s)
    (reg : ∀ k i w fr, a (ctxOf j k i w fr) = n) :
    CompletesUpTo Team.unmarked j (fun _ c => c.fr.mask ≠ 0 ∧ (∀ l ∈ lanesOf c.fr.mask, (c.w.pair n l).toNat % 4 = 0) ∧
      (c.w.landing.inReg = true → c.w.frags.length + (c.jumpTargets n).length ≤ 33)) (JumpLeaves n) := by
  refine completes_of_forks run fun _ s k i w fr hi _ pre => ?_
  obtain ⟨active, aligned, few⟩ := pre
  let c := ctxOf j k i w fr
  have lanes : c.jumpTargets n ≠ [] := by
    obtain ⟨l, lane⟩ := exists_mem_lanesOf active
    exact List.ne_nil_of_mem (List.mem_eraseDups.2 (List.mem_map_of_mem lane))
  obtain ⟨p, ps, targets⟩ := List.exists_cons_of_ne_nil lanes
  have fits : tooManyFrags c ps.length = false := tooManyFrags_of_fits fun hr => by
    have room : c.w.frags.length + (c.jumpTargets n).length ≤ 33 := few hr
    rw [targets, List.length_cons] at room
    omega
  refine ⟨(s.tick (coreOf k)).setWave k (c.jumpForked n p ps), _, _, p, _, _, _,
    congrArg (c.finish _) (jumpBody_eq _ (reg k i w fr) aligned targets fits), (keptUpTo_tick _ s k).setWave _, rfl, ?_,
    fun u w' h => jumpLeaves_of_forks h targets⟩
  rw [State.setWave_find, if_pos rfl, State.tick_waves, hi.wave]
  exact congrArg some (c.jumpForked_eq n p ps hi.frag)

end Sys2Proof.Machine
end

section
/-! O10, R163: REP and the instructions of its body. -/

namespace Sys2Proof.Machine

open Sys2Proof

/-! ### A cycle counter that has ticked, and the lines that a fetch brings up

What makes the line of a word ready to be fetched looks at no cycle counter, so that it may as well be done before the tick. -/

section
variable {α : Type} (k : Nat)

theorem Tab.map_put (g : Nat → α → α) (v : α) (t : Tab α) :
    (Tab.put k v t).map (fun e => (e.1, g e.1 e.2)) = Tab.put k (g k v) (t.map fun e => (e.1, g e.1 e.2)) := by
  induction t with
  | nil => rfl
  | cons e t ih =>
    obtain ⟨j, u⟩ := e
    simp only [Tab.put, List.map_cons]
    split
    · rfl
    · split
      · rfl
      · exact congrArg _ ih

theorem Tab.upd_upd (g h : α → α) (t : Tab α) : Tab.upd k h (Tab.upd k g t) = Tab.upd k (h ∘ g) t := by
  unfold Tab.upd
  rw [List.map_map]
  refine List.map_congr_left fun e _ => ?_
  by_cases key : e.1 = k
  · simp [key]
  · simp [key]

end

section
variable (c : Nat) (s : State)

theorem State.tick_foldl {β : Type} {g : State → β → State} (hg : ∀ s b, g (s.tick c) b = (g s b).tick c)
    (l : List β) (s : State) :
    l.foldl g (s.tick c) = (l.foldl g s).tick c :=
  List.foldl_hom (State.tick c) hg

theorem State.tick_request (kind core : Nat) (hint : Hint) (line : Nat) :
    (s.tick c).request kind core hint line = (s.request kind core hint line).tick c := by
  unfold State.request State.ask
  rw [apply_ite (State.tick c)]
  rfl

theorem State.tick_atHome (p line : Nat) (g : List Host.Cell → List Host.Cell) :
    (s.tick c).atHome p line g = (s.atHome p line g).tick c := rfl

theorem State.tick_ageCopies (cl line : Nat) : (s.tick c).ageCopies cl line = (s.ageCopies cl line).tick c := by
  let g (n : Nat) (x : Core) : Core := if clusterOf n = cl then x else x.dropL1 line
  have drop (t : Tab Core) : (t.map fun e => if clusterOf e.1 = cl then e else (e.1, e.2.dropL1 line)) =
      t.map fun e => (e.1, g e.1 e.2) :=
    List.map_congr_left fun e _ => by dsimp only [g]; split <;> rfl
  have core : (s.ageCopies cl line).core c = g c (s.core c) := by
    unfold State.core State.ageCopies Tab.getD
    rw [drop, Tab.find_map]
    cases Tab.find c s.cores with
    | none => dsimp only [Option.map_none, Option.getD_none, g]; split <;> rfl
    | some x => rfl
  have cores : ((s.tick c).ageCopies cl line).cores = ((s.ageCopies cl line).tick c).cores := by
    show ((s.tick c).cores.map fun e => if clusterOf e.1 = cl then e else (e.1, e.2.dropL1 line)) = Tab.put c _ (s.cores.map _)
    rw [core, drop, drop]
    refine (Tab.map_put c g _ s.cores).trans (congrArg (Tab.put c · _) ?_)
    dsimp only [g]
    split <;> rfl
  exact congrArg (fun t => { (s.ageCopies cl line).tick c with cores := t }) cores

theorem State.tick_publishOne (cl : Nat) (e : Nat × DirtyLine) : (s.tick c).publishOne cl e = (s.publishOne cl e).tick c := by
  unfold State.publishOne
  rw [State.tick_ageCopies]
  rfl

theorem State.tick_publishLines (cl : Nat) (ls : Tab DirtyLine) :
    (s.tick c).publishLines cl ls = (s.publishLines cl ls).tick c :=
  State.tick_foldl c (fun s e => s.tick_publishOne c cl e) ls s

theorem State.tick_cluster (cl : Nat) : (s.tick c).cluster cl = s.cluster cl := rfl

theorem State.tick_publishUpTo (cl r : Nat) : (s.tick c).publishUpTo cl r = (s.publishUpTo cl r).tick c := by
  unfold State.publishUpTo
  dsimp only
  rw [State.tick_publishLines]
  rfl

theorem State.tick_publishLine (cl line : Nat) : (s.tick c).publishLine cl line = (s.publishLine cl line).tick c := by
  unfold State.publishLine
  rw [State.tick_cluster]
  cases Tab.find line (s.cluster cl).dirty with
  | none => rfl
  | some d =>
    dsimp only
    rw [State.tick_publishUpTo, State.tick_cluster]
    cases Tab.find line ((s.publishUpTo cl (max d.narrow d.after)).cluster cl).dirty with
    | none => rfl
    | some d => exact State.tick_publishLines ..

/-- The first step of a widening: the line, where the cluster holds it narrowly or wrote it after a narrow release. -/
def State.widenHeld (cl line : Nat) (s : State) : State :=
  match Tab.find line (s.cluster cl).dirty with
  | none => s
  | some d => if 0 < d.narrow ∨ 0 < d.after then s.publishLine cl line else s

/-- Its second step: what the cluster held narrowly when it wrote the line at its home. -/
def State.widenWritten (cl line : Nat) (s : State) : State :=
  match Tab.find line (s.cluster cl).wrote with
  | none => s
  | some r => s.publishUpTo cl r

theorem State.widenOne_eq (cl line : Nat) : s.widenOne cl line = (s.widenHeld cl line).widenWritten cl line := rfl

theorem State.tick_widenHeld (cl line : Nat) : (s.tick c).widenHeld cl line = (s.widenHeld cl line).tick c := by
  unfold State.widenHeld
  rw [State.tick_cluster]
  cases Tab.find line (s.cluster cl).dirty with
  | none => rfl
  | some d =>
    dsimp only
    rw [State.tick_publishLine, apply_ite (State.tick c)]

theorem State.tick_widenWritten (cl line : Nat) : (s.tick c).widenWritten cl line = (s.widenWritten cl line).tick c := by
  unfold State.widenWritten
  rw [State.tick_cluster]
  cases Tab.find line (s.cluster cl).wrote with
  | none => rfl
  | some r => exact State.tick_publishUpTo ..

theorem State.tick_widenOne (cl line : Nat) : (s.tick c).widenOne cl line = (s.widenOne cl line).tick c := by
  rw [State.widenOne_eq, State.tick_widenHeld, State.tick_widenWritten, State.widenOne_eq]

theorem State.tick_widen (cl : Option Nat) (line : Nat) : (s.tick c).widen cl line = (s.widen cl line).tick c := by
  refine State.tick_foldl c (fun s e => ?_) s.clusters s
  rw [apply_ite (State.tick c), State.tick_widenOne]

theorem State.tick_recallStash (self : Option (Nat × Nat)) (line : Nat) (wr : Bool) :
    (s.tick c).recallStash self line wr = (s.recallStash self line wr).tick c := by
  unfold State.recallStash
  symm
  refine (State.tick_foldl c (fun s b => ?_) _ _).symm
  exact State.tick_atHome ..

theorem State.tick_prepWord (who : Who) (held : Tab Word) (a : Dword) :
    (s.tick c).prepWord who held a = (s.prepWord who held a).tick c := by
  have same (p va : Nat) : (s.tick c).translate p va = s.translate p va := rfl
  unfold State.prepWord
  split
  · rw [same]
    split
    · rfl
    · rw [State.tick_request, State.tick_recallStash, State.tick_widen]
  · rfl

theorem State.tick_fetchWord (who : Who) (held : Tab Word) (a : Dword) :
    (s.tick c).fetchWord who held a = s.fetchWord who held a := rfl

theorem State.tick_fetchBreaks (who : Who) (held : Tab Word) (a : Dword) :
    (s.tick c).fetchBreaks who held a = s.fetchBreaks who held a := rfl

end

/-! ### REP that passes its body -/

/-- Places and states on the way past n instructions, each fetched as an instruction word is (R26). -/
def SkipPath (who : Who) (held : Tab Word) (n : Nat) (at' : Nat → Dword) (st : Nat → State) : Prop :=
  ∀ m, m < n → st (m + 1) = (st m).prepWord who held (at' m) ∧ (st (m + 1)).fetchBreaks who held (at' m) = false ∧
    ∃ x, (st (m + 1)).fetchWord who held (at' m) = .word x ∧ at' (m + 1) = at' m + 4 * BitVec.ofNat 64 (instrWords x)

section
variable {who : Who} {held : Tab Word} {n : Nat} {at' : Nat → Dword} {st : Nat → State} (path : SkipPath who held n at' st)
include path

/-- The state after the words have been fetched differs from the one before in lines alone. -/
theorem SkipPath.waves : (st n).waves = (st 0).waves := by
  induction n with
  | zero => rfl
  | succ n ih =>
    obtain ⟨next, -⟩ := path n (Nat.lt_succ_self n)
    rw [next, (keptButLines_prepWord ..).waves]
    exact ih fun m hm => path m (Nat.lt_succ_of_lt hm)

/-- Reading past a REP body in a state whose cycle counter has ticked takes the path. -/
theorem SkipPath.skipBody (c : Nat) : skipBody who held n (at' 0) ((st 0).tick c) = (.past (at' n), (st n).tick c) := by
  induction n generalizing at' st with
  | zero => rfl
  | succ n ih =>
    obtain ⟨next, whole, x, word, place⟩ := path 0 (Nat.zero_lt_succ n)
    have bytes : BitVec.ofNat 64 (instrBytes x) = 4 * BitVec.ofNat 64 (instrWords x) := BitVec.ofNat_mul 4 _
    have rest := ih (at' := fun m => at' (m + 1)) (st := fun m => st (m + 1)) fun m hm => path (m + 1) (Nat.succ_lt_succ hm)
    unfold Machine.skipBody
    dsimp only
    rw [State.tick_prepWord, ← next, State.tick_fetchWord, word]
    dsimp only
    rw [State.tick_fetchBreaks, whole, bytes, ← place]
    exact rest

end

section
variable (c : Ctx)

/-- The number of iterations of a REP. -/
def Ctx.repCount : Word :=
  if c.f.m = 1 then c.w.reg c.f.a.toNat (lowLane c.fr.mask) else BitVec.ofNat 32 (c.uimm / 32)

/-- The repeat state with which a REP starts its body. -/
def Ctx.repStart : Rep := ⟨c.seqPc, c.uimm % 16 + 1, c.repCount, c.repCount, 0⟩

variable {c} (s : State)

theorem repBody_starts (h : c.repCount ≠ 0) : repBody c s =
    .moved (some c.i) (s.setFrag c.k c.i fun f => f.resume c.seqPc (some c.repStart) (s.now c.k)) :=
  if_neg h

theorem repBody_passes {t : State} {a : Dword} (h : c.repCount = 0)
    (past : skipBody (c.who s) c.fr.held (c.uimm % 16 + 1) c.seqPc s = (.past a, t)) : repBody c s = .goto a t := by
  refine (if_pos h).trans ?_
  rw [past]

/-- A fragment moved on by the instruction itself is as one that goes on there. -/
theorem finish_moved_resume (pc : Dword) (rep : Option Rep) :
    c.finish s (.moved (some c.i) (s.setFrag c.k c.i fun f => f.resume pc rep (s.now c.k))) =
      (c.goOn pc rep s).park c.k (some c.i) c.f.p := by
  have wave : (((s.setFrag c.k c.i fun f => f.resume pc rep (s.now c.k)).setFrag c.k c.i (·.issued (s.now c.k))).stir c.k) =
      s.setWave c.k fun w => { w.setFrag c.i (·.resume pc rep (s.now c.k)) with evictable := false } := by
    refine congrArg (fun t => { s with waves := t })
      ((Tab.upd_upd ..).trans ((Tab.upd_upd ..).trans (congrArg (Tab.upd c.k · s.waves) (funext fun w => ?_))))
    dsimp only [Function.comp]
    rw [Wave.setFrag_setFrag]
    rfl
  show (((((s.setFrag c.k c.i _).setFrag c.k c.i (·.issued (s.now c.k))).stir c.k).endStep c.k c.i c.w).park _ _ _) = _
  rw [wave]
  rfl

end

/-- The address after a REP, which takes no literal. -/
theorem rep_seqPc {f : XF} (hw : (Instr.rep f).wellFormed = true) (k i : Nat) (w : Wave) (fr : Frag) :
    (ctxOf (.rep f) k i w fr).seqPc = fr.pc + 12 := by
  have lit : f.lit = none := XF.ok_lit (ok_of_wellFormed (j := .rep f) hw rfl) rfl
  show fr.pc + BitVec.ofNat 64 (Ins.ofX 0x0C6 f).len = _
  simp [Ins.ofX, lit]

theorem rep_starts (f : XF) : Completes (.rep f) (fun _ c => c.repCount ≠ 0) fun _ _ c w' =>
    KeptButFrags c.w w' ∧ OtherFrags c.w w' c.i ∧ ∃ fr', w'.frags[c.i]? = some fr' ∧
      fr'.pc = c.fr.pc + 12 ∧ fr'.mask = c.fr.mask ∧ fr'.tokens = c.fr.tokens ∧ fr'.wait = .none ∧
      fr'.rep = some ⟨c.fr.pc + 12, f.imm.toNat % 16 + 1, c.repCount, c.repCount, 0⟩ := by
  refine completesVia_of_goesOn (fun _ => rfl) (fun _ => rfl) fun hw s k i w fr hi _ starts => ?_
  let c := ctxOf (.rep f) k i w fr
  have next : c.seqPc = fr.pc + 12 := rep_seqPc hw k i w fr
  refine ⟨s.tick (coreOf k), w, c.seqPc, some c.repStart, ⟨?_, hi.wave, rfl, rfl⟩, keptUpTo_tick _ s k, fun u pk _ =>
    ⟨Wave.wentOn_keptButFrags _ _ _ _ _ _ rfl, ⟨Wave.wentOn_length .., fun n hn => Wave.wentOn_other _ _ _ _ _ _ hn⟩, _,
      (Wave.wentOn_frag ..).trans (congrArg _ hi.frag), next, rfl, rfl, rfl, ?_⟩⟩
  · exact (congrArg (c.finish _) (repBody_starts _ starts)).trans (finish_moved_resume ..)
  · exact congrArg some (by rw [Ctx.repStart, next]; rfl)

theorem rep_passes (f : XF) (p : Nat → Dword) (st : Nat → State) :
    CompletesVia (fun _ _ => st (f.imm.toNat % 16 + 1)) Team.unstepped (.rep f)
      (fun s c => c.repCount = 0 ∧ p 0 = c.fr.pc + 12 ∧ st 0 = s ∧
        SkipPath (c.who s) c.fr.held (f.imm.toNat % 16 + 1) p st) fun _ _ c w' =>
      KeptButFrags c.w w' ∧ OtherFrags c.w w' c.i ∧ ∃ fr', w'.frags[c.i]? = some fr' ∧
        Goes fr' (p (f.imm.toNat % 16 + 1)) c.fr.mask c.fr.tokens := by
  refine completesVia_of_goesOn (fun _ => rfl) (fun _ => rfl) fun hw s k i w fr hi _ pre => ?_
  obtain ⟨none, first, rfl, path⟩ := pre
  let c := ctxOf (.rep f) k i w fr
  have next : c.seqPc = fr.pc + 12 := rep_seqPc hw k i w fr
  have past : skipBody (c.who (st 0)) fr.held (f.imm.toNat % 16 + 1) c.seqPc ((st 0).tick (coreOf k)) =
      (.past (p (f.imm.toNat % 16 + 1)), (st (f.imm.toNat % 16 + 1)).tick (coreOf k)) := by
    rw [next, ← first]
    exact path.skipBody (coreOf k)
  refine ⟨(st (f.imm.toNat % 16 + 1)).tick (coreOf k), w, _, _,
    ⟨congrArg (c.finish _) (repBody_passes _ none past), ?_, rfl, rfl⟩,
    keptUpTo_tick _ _ k, fun u pk _ => ⟨Wave.wentOn_keptButFrags _ _ _ _ _ _ rfl,
      ⟨Wave.wentOn_length .., fun n hn => Wave.wentOn_other _ _ _ _ _ _ hn⟩, _,
      (Wave.wentOn_frag ..).trans (congrArg _ hi.frag), goes_resume _ _ rfl rfl⟩⟩
  rw [State.tick_waves, path.waves]
  exact hi.wave

/-! ### The instructions of a REP body -/

/-- The place after an instruction of a REP body: the next one, the start again while iterations are left, or after the body. -/
theorem advance_in_body {f : Frag} {r : Rep} (h : f.rep = some r) (next : Dword) :
    advance f next = if r.idx + 1 < r.k then (next, some { r with idx := r.idx + 1 })
      else if 1 < r.left.toNat then (r.start, some { r with left := r.left - 1, idx := 0 }) else (next, none) := by
  unfold advance
  rw [h]

theorem nop_advances {j : Instr} (run : ∀ s, exec j s = runWave (insOf j) nopBody s) :
    Completes j (fun _ _ => True) fun _ _ c w' => KeptButFrags c.w w' ∧ OtherFrags c.w w' c.i ∧
      ∀ r, c.fr.rep = some r → ∃ fr', w'.frags[c.i]? = some fr' ∧
        if r.idx + 1 < r.k then fr'.pc = c.seqPc ∧ fr'.rep = some { r with idx := r.idx + 1 }
        else if 1 < r.left.toNat then fr'.pc = r.start ∧ fr'.rep = some { r with left := r.left - 1, idx := 0 }
        else fr'.pc = c.seqPc ∧ fr'.rep = none := by
  refine completesVia_of_goesOn run (fun _ => rfl) fun _ s k i w fr hi _ _ => ?_
  let c := ctxOf j k i w fr
  refine ⟨s.tick (coreOf k), w, c.after.1, c.after.2, ⟨rfl, hi.wave, rfl, rfl⟩, keptUpTo_tick _ s k, fun u pk _ =>
    ⟨Wave.wentOn_keptButFrags _ _ _ _ _ _ rfl, ⟨Wave.wentOn_length .., fun n hn => Wave.wentOn_other _ _ _ _ _ _ hn⟩,
      fun r hr => ⟨_, (Wave.wentOn_frag ..).trans (congrArg _ hi.frag), ?_⟩⟩⟩
  have after : c.after = _ := advance_in_body hr c.seqPc
  show if r.idx + 1 < r.k then c.after.1 = c.seqPc ∧ c.after.2 = _ else if 1 < r.left.toNat then c.after.1 = _ ∧ c.after.2 = _
    else c.after.1 = c.seqPc ∧ c.after.2 = _
  rw [after]
  split
  · exact ⟨rfl, rfl⟩
  · split
    · exact ⟨rfl, rfl⟩
    · exact ⟨rfl, rfl⟩

/-- Settles O10: CALL writes the link pair and branches, JMPX and RET divide their fragment by target, REP starts its body or reads
past it, and the place after an instruction of the body is the one stated. -/
theorem callsAndRepBodies : Obligations.CallsAndRepBodies :=
  ⟨⟨fun _ => completes_of_callBody (fun _ => rfl) rfl,
      fun f => completes_of_callBody (fun _ => rfl) (signExtend_signExtend_imm7 f.b 64),
      fun f => completes_of_jumpBody f.a.toNat (fun _ => rfl) fun _ _ _ _ => rfl,
      fun f => completes_of_jumpBody f.a.toNat (fun _ => rfl) fun _ _ _ _ => rfl,
      fun _ => completes_of_jumpBody 46 (fun _ => rfl) fun _ _ _ _ => rfl,
      fun _ => completes_of_jumpBody 46 (fun _ => rfl) fun _ _ _ _ => rfl⟩,
    ⟨rep_starts, rep_passes⟩,
    fun _ => nop_advances fun _ => rfl, fun _ => nop_advances fun _ => rfl⟩

end Sys2Proof.Machine
end

section
/-! O11, float arithmetic: an encoded value has the bits of its format, so that the model's results are those of R63 in a register. -/

namespace Sys2Proof.Machine

open Sys2Proof

/-! ### Codes have the bits of their format (R64) -/

theorem Fmt.signed_lt (F : Fmt) (s : Bool) {code : Nat} (h : code < 2 ^ (F.eb + F.fb)) : F.signed s code < 2 ^ F.width := by
  have width : 2 ^ F.width = 2 * 2 ^ (F.eb + F.fb) := by rw [Fmt.width, Nat.add_assoc, Nat.pow_add]
  unfold Fmt.signed
  split <;> omega

theorem Fmt.infCode_lt (F : Fmt) : F.infCode < 2 ^ (F.eb + F.fb) := by
  rw [Nat.pow_add]
  exact Nat.mul_lt_mul_of_pos_right (Nat.sub_lt (by positivity) one_pos) (by positivity)

/-- A property of the six formats holds of every format that a type field names (R39). -/
theorem forall_fmtOf {p : Fmt → Prop} (six : ∀ t < 6, p (fmtOf t)) (t : Nat) : p (fmtOf t) := by
  by_cases h : t < 6
  · exact six t h
  · have last : fmtOf t = fmtOf 5 := by
      obtain ⟨n, rfl⟩ := Nat.exists_eq_add_of_le (not_lt.1 h)
      rw [Nat.add_comm]
      rfl
    exact last ▸ six 5 (by decide)

theorem fmtOf_maxCode_lt (t : Nat) : (fmtOf t).maxCode < 2 ^ ((fmtOf t).eb + (fmtOf t).fb) :=
  forall_fmtOf (p := fun F => F.maxCode < 2 ^ (F.eb + F.fb)) (by decide) t

theorem fmtOf_nan_lt (t : Nat) : (fmtOf t).nan < 2 ^ (fmtOf t).width :=
  forall_fmtOf (p := fun F => F.nan < 2 ^ F.width) (by decide) t

theorem fmtOf_over_lt (t : Nat) (rm : RM) (s : Bool) : (fmtOf t).over rm s < 2 ^ ((fmtOf t).eb + (fmtOf t).fb) := by
  have most := fmtOf_maxCode_lt t
  have inf := (fmtOf t).infCode_lt
  unfold Fmt.over
  split
  · exact most
  · split
    · exact most
    · cases s <;> assumption
    · cases s <;> assumption
    · exact inf

theorem fmtOf_round_lt (t : Nat) (rm : RM) (s : Bool) (m : Nat) (e : Int) :
    ((fmtOf t).round rm s m e).1 < 2 ^ (fmtOf t).width := by
  unfold Fmt.round
  split
  · exact Fmt.signed_lt _ s (by positivity)
  · refine Fmt.signed_lt _ s ?_
    split
    · exact fmtOf_over_lt t rm s
    · exact (not_lt.1 ‹_›).trans_lt (fmtOf_maxCode_lt t)

theorem fmtOf_enc_lt (t : Nat) (rm : RM) (sm : Nat) (x : FVal) : (fmtOf t).enc rm sm x < 2 ^ (fmtOf t).width := by
  cases x with
  | nan => exact fmtOf_nan_lt t
  | inf s =>
    refine Fmt.signed_lt _ s ?_
    split
    · exact (fmtOf t).infCode_lt
    · exact fmtOf_maxCode_lt t
  | fin s m e =>
    unfold Fmt.enc
    dsimp only
    split
    · exact Fmt.signed_lt _ s (by positivity)
    · exact fmtOf_round_lt t rm s m e

/-! ### Results in a 32-bit register (R63, R174) -/

/-- The signed reading of the low n bits of a number is that of their bit pattern. -/
theorem toSigned_eq (n v : Nat) : toSigned n v = (BitVec.ofNat n v).toInt := by
  rw [← toSigned_toNat, BitVec.toNat_ofNat]
  simp only [toSigned, Nat.mod_mod]

theorem extend32_signed (n v : Nat) : extend32 true n v = ((BitVec.ofNat n v).signExtend 32).toNat := by
  rw [BitVec.signExtend, BitVec.toNat_ofInt, ← toSigned_eq]
  rfl

/-- A code in a register: sign-extended where its format has less than 16 bits, and otherwise as it is. -/
theorem fmtReg_eq (F : Fmt) {v : Nat} (h : v < 2 ^ F.width) :
    fmtReg F v = if F.width < 16 then ((BitVec.ofNat F.width v).signExtend 32).toNat else v := by
  unfold fmtReg
  by_cases narrow : F.width < 16
  · rw [if_pos narrow, decide_eq_true narrow, extend32_signed]
  · rw [if_neg narrow, decide_eq_false narrow]
    exact Nat.mod_eq_of_lt h

theorem fres_eq (c : Ctx) (rm : RM) (x : FVal) : fres c rm x = c.floatReg (fmtOf c.f.t.toNat) rm x :=
  fmtReg_eq _ (fmtOf_enc_lt ..)

/-! ### The bodies -/

/-- An instruction whose one result is the model's own expression of the value stated. -/
theorem wordResult_of_eq {j : Instr} {g v : Ctx → Nat → Nat}
    (run : ∀ s, exec j s = runWave (insOf j) (laneBody (fun _ => 1) g) s) (value : ∀ c l, g c l = v c l) :
    ResultInD j (fun _ => 1) v :=
  wordResult_of_laneBody run fun _ _ _ _ _ _ => congrArg (BitVec.ofNat 32) (value ..)

/-- An instruction of two float operands (R174). -/
theorem float2_result {j : Instr} (g : RM → FVal → FVal → FVal)
    (run : ∀ s, exec j s = runWave (insOf j) (float2 g) s) : ResultInD j (fun _ => 1) fun c l =>
      let F := fmtOf c.f.t.toNat
      c.floatReg F c.rm (g c.rm (c.float F (c.opA 1 l)) (c.float F (c.opB 1 l))) :=
  wordResult_of_eq run fun c _ => fres_eq c c.rm _

theorem width_of_half {t : Nat} (h : t ∈ [1, 2]) : (fmtOf t).width = 16 := by
  fin_cases h <;> rfl

/-- Half j of a packed operand, flushed in: the low 16 bits of the operand shifted down (R181). -/
theorem fval_half (c : Ctx) (h : c.f.t.toNat ∈ [1, 2]) (v j : Nat) :
    fval c (half v j) = c.float (fmtOf c.f.t.toNat) (v / 2 ^ (16 * j)) := by
  have width : (fmtT c).width = 16 := width_of_half h
  unfold fval half
  rw [width, Nat.mod_mod]
  exact congrArg _ (congrArg (_ % 2 ^ ·) width.symm)

/-- A half's result, which a register holds as it is. -/
theorem hres_eq (c : Ctx) (h : c.f.t.toNat ∈ [1, 2]) (x : FVal) :
    hres c x = c.floatReg (fmtOf c.f.t.toNat) c.rm x := by
  refine (if_neg ?_).symm
  rw [width_of_half h]
  decide

/-- The result of a packed instruction of three operands, each half by itself (R181). -/
theorem packed2_value (c : Ctx) (h : c.f.t.toNat ∈ [1, 2]) (g : FVal → FVal → FVal → FVal) (u v w : Nat) :
    packed2 (fun j => hres c (g (fval c (half u j)) (fval c (half v j)) (fval c (half w j)))) =
      let F := fmtOf c.f.t.toNat
      let x := fun j => g (c.float F (u / 2 ^ (16 * j))) (c.float F (v / 2 ^ (16 * j))) (c.float F (w / 2 ^ (16 * j)))
      c.floatReg F c.rm (x 0) + 2 ^ 16 * c.floatReg F c.rm (x 1) := by
  simp only [packed2, hres_eq c h, fval_half c h]

/-- An instruction of two or three packed operands, whose type is FP16 or BF16. -/
theorem packedResult_of_eq {j : Instr} {r : Rule} {g v : Ctx → Nat → Nat}
    (run : ∀ s, exec j s = runWave (insOf j) (laneBody (fun _ => 1) g) s)
    (rule : xRule (insOf j).op (insOf j).f = some r ∧ r.tys = [1, 2])
    (value : ∀ c l, c.f.t.toNat ∈ [1, 2] → g c l = v c l) : ResultInD j (fun _ => 1) v :=
  wordResult_of_laneBody run fun hw _ _ _ _ _ =>
    congrArg (BitVec.ofNat 32) (value _ _ (rule.2 ▸ XF.ok_type (ok_of_wellFormed hw rule.1)))

/-- Settles O11: every instruction of the family is one body in one lane, whose value is the one stated. -/
theorem floatArithmeticRoundsOnce : Obligations.FloatArithmeticRoundsOnce := by
  refine ⟨?_, ?_, ?_, ?_, ?_, ?_, ?_, ?_, ?_, ?_, ?_, ?_, ?_, ?_⟩
  -- FADD, FSUB, FMUL, FFMA, FSQRT
  iterate 2 exact fun f => float2_result (fun rm x y => x.add rm y) fun _ => rfl
  iterate 2 exact fun f => float2_result (fun rm x y => x.add rm y.neg) fun _ => rfl
  iterate 2 exact fun f => float2_result (fun _ x y => x.mul y) fun _ => rfl
  iterate 3 exact fun f => wordResult_of_eq (fun _ => rfl) fun c _ => fres_eq c c.rm _
  -- PADD2, PMUL2, PFMA2
  iterate 2 exact fun f => packedResult_of_eq (fun _ => rfl) ⟨rfl, rfl⟩ fun c l h =>
    packed2_value c h (fun x y _ => x.add c.rm y) (c.opA 1 l) (c.opB 1 l) 0
  iterate 2 exact fun f => packedResult_of_eq (fun _ => rfl) ⟨rfl, rfl⟩ fun c l h =>
    packed2_value c h (fun x y _ => x.mul y) (c.opA 1 l) (c.opB 1 l) 0
  exact fun f => packedResult_of_eq (fun _ => rfl) ⟨rfl, rfl⟩ fun c l h =>
    packed2_value c h (fun x y z => (x.mul y).add c.rm z) (c.opA 1 l) (c.opB 1 l) (c.opC 1 l)

end Sys2Proof.Machine
end

section
/-! O13, float extremes, comparison, class and conversions. -/

namespace Sys2Proof.Machine

open Sys2Proof

/-! ### Extremes and comparison (R175, R176) -/

/-- The order of FMIN and FMAX: -0 stands below +0 (R175). -/
def FVal.below (x y : FVal) : Bool := x.cmp y == .lt || (x.cmp y == .eq && x.sign && !y.sign)

theorem FVal.minMax_eq (mx : Bool) (x y : FVal) :
    x.minMax mx y = if x = .nan then y else if y = .nan then x else if x.below y != mx then x else y := by
  have less : (match x.cmp y with | .lt => true | .eq => x.sign && !y.sign | .gt => false) = x.below y := by
    unfold FVal.below
    cases x.cmp y <;> simp
  rw [← less]
  match x, y with
  | .nan, y => rfl
  | .inf _, .nan => rfl
  | .fin _ _ _, .nan => rfl
  | .inf _, .inf _ => rfl
  | .inf _, .fin _ _ _ => rfl
  | .fin _ _ _, .inf _ => rfl
  | .fin _ _ _, .fin _ _ _ => rfl

theorem FVal.min_eq (x y : FVal) :
    x.minMax false y = if x = .nan then y else if y = .nan then x else if x.below y then x else y := by
  rw [FVal.minMax_eq]
  cases x.below y <;> rfl

theorem FVal.max_eq (x y : FVal) :
    x.minMax true y = if x = .nan then y else if y = .nan then x else if x.below y then y else x := by
  rw [FVal.minMax_eq]
  cases x.below y <;> rfl

theorem fmin_value (c : Ctx) (u v : Nat) :
    fres c 0 ((fval c u).minMax false (fval c v)) =
      let F := fmtOf c.f.t.toNat
      let a := c.float F u
      let b := c.float F v
      c.floatReg F 0 (if a = .nan then b else if b = .nan then a else if a.below b then a else b) := by
  rw [fres_eq, FVal.min_eq]
  rfl

theorem fmax_value (c : Ctx) (u v : Nat) :
    fres c 0 ((fval c u).minMax true (fval c v)) =
      let F := fmtOf c.f.t.toNat
      let a := c.float F u
      let b := c.float F v
      c.floatReg F 0 (if a = .nan then b else if b = .nan then a else if a.below b then b else a) := by
  rw [fres_eq, FVal.max_eq]
  rfl

/-! ### Integers as bit patterns (R62) -/

/-- A number of n bits is read as its type says (R62). -/
theorem tyRead_eq (t : BitVec 3) (n v : Nat) :
    tyRead t n v = if t.toNat < 4 then (BitVec.ofNat n v).toInt else ((BitVec.ofNat n v).toNat : Int) := by
  rw [← toSigned_eq, BitVec.toNat_ofNat]
  unfold tyRead tySigned
  by_cases h : t.toNat < 4 <;> simp [h]

/-! ### Conversions (R73, R180) -/

theorem cvtif_value (c : Ctx) (v : Nat) :
    fmtReg (fmtOf c.f.c.toNat) (cvtIF (fmtOf c.f.c.toNat) c.rm (tyRead c.f.t (8 * tyBytes c.f.t) v)) =
      let w := 8 * 2 ^ (c.f.t.toNat % 4)
      let n := if c.f.t.toNat < 4 then (BitVec.ofNat w v).toInt else ((BitVec.ofNat w v).toNat : Int)
      let F := fmtOf c.f.c.toNat
      let code := (F.round c.rm (decide (n < 0)) n.natAbs 0).1
      if F.width < 16 then ((BitVec.ofNat F.width code).signExtend 32).toNat else code := by
  rw [tyRead_eq]
  exact fmtReg_eq _ (fmtOf_round_lt ..)

/-- The least and the greatest value of the integer type that a number below 8 names. -/
def typeLow (t : Nat) : Int := if t < 4 then -2 ^ (8 * 2 ^ (t % 4) - 1) else 0

def typeHigh (t : Nat) : Int := if t < 4 then 2 ^ (8 * 2 ^ (t % 4) - 1) - 1 else 2 ^ (8 * 2 ^ (t % 4)) - 1

theorem tyMin_eq_typeLow (t : BitVec 3) : tyMin t = typeLow t.toNat := by
  simp [tyMin, typeLow, tySigned, tyBytes]

theorem tyMax_eq_typeHigh (t : BitVec 3) : tyMax t = typeHigh t.toNat := by
  simp [tyMax, typeHigh, tySigned, tyBytes]

theorem typeLow_le_typeHigh : ∀ t : BitVec 3, typeLow t.toNat ≤ typeHigh t.toNat := by decide

/-- A float rounded to an integer of a range (R73). -/
def intOfFloat (lo hi : Int) (rm : RM) (x : FVal) : Int :=
  match x with
  | .nan => 0
  | .inf s => if s then lo else hi
  | .fin s m e => max lo (min hi (if s then -(roundTo rm true m e 0 : Int) else roundTo rm false m e 0))

theorem cvtFI_eq {lo hi : Int} (h : lo ≤ hi) (rm : RM) (x : FVal) : cvtFI lo hi rm x = intOfFloat lo hi rm x := by
  match x with
  | .nan => rfl
  | .inf _ => rfl
  | .fin s m e =>
    have rounded : roundInt rm s m e = if s then -(roundTo rm true m e 0 : Int) else roundTo rm false m e 0 := by
      cases s <;> rfl
    exact (clampI_eq h _).trans (by rw [rounded, min_comm]; rfl)

/-- The type that C names: a code below 8 is the type itself (R179). -/
theorem cType_toNat {c : Ctx} (h : c.f.c.toNat < 8) : (cType c).toNat = c.f.c.toNat := by
  simp only [cType, bits, BitVec.extractLsb'_toNat, Nat.shiftRight_zero]
  exact Nat.mod_eq_of_lt h

theorem tyWords_cType {c : Ctx} (h : c.f.c.toNat < 8) : tyWords (cType c) = if c.f.c = 3 ∨ c.f.c = 7 then 2 else 1 := by
  have named (n : Nat) (hn : n < 8) : cType c = BitVec.ofNat 3 n ↔ c.f.c = BitVec.ofNat 7 n := by
    rw [← BitVec.toNat_inj, ← BitVec.toNat_inj, cType_toNat h, BitVec.toNat_ofNat, BitVec.toNat_ofNat]
    omega
  have three := named 3 (by decide)
  have seven := named 7 (by decide)
  simp only [tyWords]
  exact if_congr (or_congr three seven) rfl rfl

theorem cvtfi_value (c : Ctx) (h : c.f.c.toNat < 8) (v : Nat) :
    BitVec.ofNat (32 * tyWords (cType c))
        (wrap (32 * tyWords (cType c)) (cvtFI (tyMin (cType c)) (tyMax (cType c)) c.rm (fval c v))) =
      BitVec.ofNat (32 * tyWords (cType c)) (BitVec.ofInt 64
        (intOfFloat (typeLow c.f.c.toNat) (typeHigh c.f.c.toNat) c.rm (c.float (fmtOf c.f.t.toNat) v))).toNat := by
  have width : 32 * tyWords (cType c) ≤ 64 := by rcases tyWords_cases (cType c) with hw | hw <;> omega
  have saturated := cvtFI_eq (typeLow_le_typeHigh (cType c)) c.rm (fval c v)
  rw [cType_toNat h] at saturated
  rw [ofNat_wrap, tyMin_eq_typeLow, tyMax_eq_typeHigh, cType_toNat h, saturated, BitVec.ofNat_toNat, setWidth_ofInt width]
  rfl

/-- CVTFI writes one or two words, as the type that C names has (R179). -/
theorem cvtfi_result (f : XF) : ResultInD (.cvtfi f) (fun _ => if f.c = 3 ∨ f.c = 7 then 2 else 1) fun c l =>
    (BitVec.ofInt 64 (intOfFloat (typeLow f.c.toNat) (typeHigh f.c.toNat) c.rm
      (c.float (fmtOf f.t.toNat) (c.opA 1 l)))).toNat := by
  intro hw
  have ok := ok_of_wellFormed (j := .cvtfi f) hw rfl
  obtain ⟨-, -, -, -, -, -, -, dest, -, -, code, -⟩ := (f.ok_iff _).1 ok
  have type : f.c.toNat < 8 := by simpa [Use.ok] using code
  have words (k i : Nat) (w : Wave) (fr : Frag) :
      tyWords (cType (ctxOf (.cvtfi f) k i w fr)) = if f.c = 3 ∨ f.c = 7 then 2 else 1 := tyWords_cType type
  refine writesRegs_of_regBody (fun _ => rfl) (fun k i w fr => List.flatMap_congr fun l _ => ?_) (fun _ k i w fr x hx => ?_) hw
  · rw [wrVal_eq]
    refine congrArg _ ((valueIn_congr (tyWords_cases _) (cvtfi_value (ctxOf (.cvtfi f) k i w fr) type _)).trans ?_)
    rw [words]
    rfl
  · obtain ⟨l, -, hx⟩ := List.mem_flatMap.1 hx
    refine wrVal_lt ?_ x hx
    show tyWords (cType (ctxOf (.cvtfi f) k i w fr)) = 1 ∨ tyWords (cType (ctxOf (.cvtfi f) k i w fr)) = 2 ∧ f.d.toNat % 2 = 0
    rw [words]
    by_cases pair : f.c = 3 ∨ f.c = 7
    · have dest : (Use.val (if f.c = 3 ∨ f.c = 7 then 2 else 1)).ok f.d = true := dest
      rw [if_pos pair] at dest ⊢
      exact .inr ⟨rfl, Use.ok_pair dest⟩
    · exact .inl (if_neg pair)

/-! ### IDOT4 (R182) -/

/-- Byte j of a word, extended to 32 bits as its type says. -/
def byteBits (sgn : Bool) (v j : Nat) : BitVec 32 :=
  let x := (BitVec.ofNat 32 v).extractLsb' (8 * j) 8
  if sgn then x.signExtend 32 else x.setWidth 32

theorem extractLsb'_byte (v : Nat) {j : Nat} (h : j < 4) :
    (BitVec.ofNat 32 v).extractLsb' (8 * j) 8 = BitVec.ofNat 8 (v / 2 ^ (8 * j) % 256) := by
  refine BitVec.eq_of_toNat_eq ?_
  rw [BitVec.extractLsb'_toNat, BitVec.toNat_ofNat, BitVec.toNat_ofNat, Nat.shiftRight_eq_div_pow]
  interval_cases j <;> omega

theorem byteOf_eq (sgn : Bool) (v : Nat) {j : Nat} (h : j < 4) : BitVec.ofInt 32 (byteOf sgn v j) = byteBits sgn v j := by
  unfold byteOf byteBits
  rw [extractLsb'_byte v h]
  cases sgn
  · have small : v / 2 ^ (8 * j) % 256 < 256 := Nat.mod_lt _ (by decide)
    simp only [Bool.false_eq_true, if_false, BitVec.ofInt_natCast]
    refine BitVec.eq_of_toNat_eq ?_
    rw [BitVec.toNat_setWidth, BitVec.toNat_ofNat, BitVec.toNat_ofNat, Nat.mod_eq_of_lt (a := _ % 256) small]
  · simp only [if_true, toSigned_eq]
    rfl

/-- The sum of four byte products, modulo 2^32. -/
theorem wrap_dot (sa sb : Bool) (u v w : Nat) :
    BitVec.ofNat 32 (wrap 32 (w + ((List.range 4).map fun j => byteOf sa u j * byteOf sb v j).sum)) =
      let p := fun j => byteBits sa u j * byteBits sb v j
      BitVec.ofNat 32 w + p 0 + p 1 + p 2 + p 3 := by
  have product {j : Nat} (h : j < 4) : BitVec.ofInt 32 (byteOf sa u j * byteOf sb v j) = byteBits sa u j * byteBits sb v j := by
    rw [BitVec.ofInt_mul, byteOf_eq _ _ h, byteOf_eq _ _ h]
  have sum : ((List.range 4).map fun j => byteOf sa u j * byteOf sb v j).sum =
      byteOf sa u 0 * byteOf sb v 0 + byteOf sa u 1 * byteOf sb v 1 + byteOf sa u 2 * byteOf sb v 2 +
        byteOf sa u 3 * byteOf sb v 3 := by
    simp [List.range_succ, add_assoc]
  rw [ofNat_wrap, sum]
  simp only [BitVec.ofInt_add, BitVec.ofInt_natCast, product (show 0 < 4 by decide), product (show 1 < 4 by decide),
    product (show 2 < 4 by decide), product (show 3 < 4 by decide), BitVec.add_assoc]

/-- The bytes of vB have the type of those of vA, or with M = 1 the other. -/
theorem idot4_value (c : Ctx) (l : Nat) :
    BitVec.ofNat 32 (let sa := c.f.t == 0
        let sb := if c.f.m = 1 then !sa else sa
        wrap 32 (c.opC 1 l + ((List.range 4).map fun j => byteOf sa (c.opA 1 l) j * byteOf sb (c.opB 1 l) j).sum)) =
      let sa := decide (c.f.t = 0)
      let sb := decide (c.f.m = 1) != sa
      let p := fun j => byteBits sa (c.opA 1 l) j * byteBits sb (c.opB 1 l) j
      BitVec.ofNat 32 (BitVec.ofNat 32 (c.opC 1 l) + p 0 + p 1 + p 2 + p 3).toNat := by
  have other (sa : Bool) : (if c.f.m = 1 then !sa else sa) = (decide (c.f.m = 1) != sa) := by
    by_cases h : c.f.m = 1
    · rw [if_pos h, decide_eq_true h, Bool.true_bne]
    · rw [if_neg h, decide_eq_false h, Bool.false_bne]
  simp only [other, wrap_dot, BitVec.ofNat_toNat, BitVec.setWidth_eq]
  rfl

/-- Settles O13: every instruction of the family is one body in one lane, whose value is the one stated. -/
theorem floatCompareAndConvert : Obligations.FloatCompareAndConvert := by
  refine ⟨⟨?_, ?_, ?_, ?_, ?_, ?_⟩, ?_, ?_, ?_, ?_⟩
  -- FMIN, FMAX
  iterate 2 exact fun f => wordResult_of_eq (fun _ => rfl) fun c l => fmin_value c (c.opA 1 l) (c.opB 1 l)
  iterate 2 exact fun f => wordResult_of_eq (fun _ => rfl) fun c l => fmax_value c (c.opA 1 l) (c.opB 1 l)
  -- FCMP, FCLASS: the model's own case distinctions
  · exact fun f => wordResult_of_laneBody (fun _ => rfl) fun _ _ _ _ _ _ => rfl
  · exact fun f => wordResult_of_eq (fun _ => rfl) fun _ _ => rfl
  -- FCVT, CVTIF, CVTFI, IDOT4
  · exact fun f => wordResult_of_laneBody (fun _ => rfl) fun _ k i w fr l =>
      congrArg (BitVec.ofNat 32) (fres_eq (ctxOf (.fcvt f) k i w fr) _ _)
  · exact fun f => wordResult_of_laneBody (fun _ => rfl) fun _ k i w fr l =>
      congrArg (BitVec.ofNat 32) (cvtif_value (ctxOf (.cvtif f) k i w fr) _)
  · exact cvtfi_result
  · exact fun f => wordResult_of_laneBody (fun _ => rfl) fun _ k i w fr l => idot4_value (ctxOf (.idot4 f) k i w fr) l

end Sys2Proof.Machine
end

section
/-! O14, reciprocals, exponential, logarithm, sine and cosine: the one body of R178, and the cases of its table. -/

namespace Sys2Proof.Machine

open Sys2Proof

/-- A result of R178 in FP32: toward zero, a magnitude of 2^128 or more as infinity, then flushed out. -/
def roundedTowardZero (sm : Nat) (y : FVal) : Nat :=
  match y with
  | .fin s m e => if m ≠ 0 ∧ 128 ≤ topExp m e then f32.signed s 0x7F800000 else f32.enc 1 sm y
  | _ => f32.enc 1 sm y

theorem rtzRes_eq (c : Ctx) (y : FVal) : rtzRes c y = roundedTowardZero c.sm y := by
  cases y <;> rfl

/-- An instruction of R178 completes with the value of its function, rounded so. -/
theorem rtz_result {j : Instr} (g : FVal → FVal) (run : ∀ s, exec j s = runWave (insOf j) (rtzBody g) s) :
    ResultInD j (fun _ => 1) fun c l => roundedTowardZero c.sm (g (c.float f32 (c.opA 1 l))) :=
  wordResult_of_laneBody run fun _ k i w fr l => by
    have low : (ctxOf j k i w fr).opA 1 l % 2 ^ f32.width = (ctxOf j k i w fr).opA 1 l :=
      Nat.mod_eq_of_lt (w.val_lt (.inl rfl) _ _)
    rw [rtzRes_eq, Ctx.float, low]
    rfl

/-! ### The cases of the table (R178) -/

theorem frcp_zero (s : Bool) (e : Int) : frcp (.fin s 0 e) = .inf s := rfl

theorem frsq_zero (s : Bool) (e : Int) : frsq (.fin s 0 e) = .inf s := rfl

theorem fexp2_zero (s : Bool) (e : Int) : fexp2 (.fin s 0 e) = .fin false 1 0 := rfl

theorem flog2_zero (s : Bool) (e : Int) : flog2 (.fin s 0 e) = .inf true := rfl

theorem rat_one : (FVal.fin false 1 0).rat = 1 := by simp [FVal.rat]

theorem scaleTo_zero (e q : Int) : scaleTo 0 e q = 0 := Nat.zero_mul _

theorem fixOne_half_pos : 0 < fixOne / 2 := Nat.div_pos (Nat.le_self_pow (n := fixBits) (by decide) 2) two_pos

theorem trigQuarter_zero_zero : trigQuarter 0 0 = .fin false 0 0 := by
  unfold trigQuarter
  exact if_pos rfl

theorem trigQuarter_one_zero : trigQuarter 1 0 = .fin false 1 0 := by
  unfold trigQuarter
  exact if_pos rfl

theorem ftrig_fin (cosine s : Bool) (m : Nat) (e : Int) : ftrig cosine (.fin s m e) =
    let x := scaleTo m e (-fixBits) % (2 * fixOne)
    let x := if cosine then x + fixOne / 2 else x
    match trigQuarter (x / (fixOne / 2)) (x % (fixOne / 2)) with
    | .fin _ 0 g => .fin (if cosine then false else s) 0 g
    | .fin t n g => .fin (if cosine then t else t != s) n g
    | r => r := rfl

/-- The sine of a zero is a zero of its sign. -/
theorem fsin_zero (s : Bool) (e : Int) : ftrig false (.fin s 0 e) = .fin s 0 0 := by
  rw [ftrig_fin]
  simp only [scaleTo_zero, Nat.zero_mod, Nat.zero_div, Bool.false_eq_true, if_false, trigQuarter_zero_zero]

/-- The cosine of a zero is the sine a quarter-turn on. -/
theorem fcos_zero (s : Bool) (e : Int) : ftrig true (.fin s 0 e) = .fin false 1 0 := by
  rw [ftrig_fin]
  simp only [scaleTo_zero, Nat.zero_mod, Nat.zero_add, if_true, Nat.div_self fixOne_half_pos, Nat.mod_self, trigQuarter_one_zero]

theorem frsq_negative {m : Nat} (e : Int) (h : m ≠ 0) : frsq (.fin true m e) = .nan := if_neg h

theorem flog2_negative {m : Nat} (e : Int) (h : m ≠ 0) : flog2 (.fin true m e) = .nan := if_neg h

/-- Settles O14: one body for all instructions of R178, and its table case by case. -/
theorem transcendentalResults : Obligations.TranscendentalResults := by
  refine ⟨?_, ?_, ?_, ?_, ?_, ?_, ?_, ?_, ?_, ?_, ?_, ?_, ?nan, fun e s => ⟨frcp_zero s e, frsq_zero s e, ?_, flog2_zero s e,
    ⟨0, fsin_zero s e⟩, ?_⟩, fun s => ⟨⟨0, rfl⟩, rfl, rfl⟩, ⟨0, rfl⟩, rfl, rfl, ⟨0, rfl⟩, rfl, rfl,
    fun m e h => ⟨frsq_negative e h, flog2_negative e h⟩⟩
  iterate 2 exact fun f => rtz_result frcp fun _ => rfl
  iterate 2 exact fun f => rtz_result frsq fun _ => rfl
  iterate 2 exact fun f => rtz_result fexp2 fun _ => rfl
  iterate 2 exact fun f => rtz_result flog2 fun _ => rfl
  iterate 2 exact fun f => rtz_result (ftrig false) fun _ => rfl
  iterate 2 exact fun f => rtz_result (ftrig true) fun _ => rfl
  case nan =>
    intro g hg
    simp only [List.mem_cons, List.not_mem_nil, or_false] at hg
    rcases hg with rfl | rfl | rfl | rfl | rfl | rfl <;> rfl
  · rw [fexp2_zero, rat_one]
  · rw [fcos_zero, rat_one]

end Sys2Proof.Machine
end

section
/-! O15, narrow blocks: the block of a lane as one number, its codes, and the writes of a group of registers. -/

namespace Sys2Proof.Machine

open Sys2Proof

/-! ### Writes of a group of registers -/

/-- Values of one word each for a list of registers, as register writes of a lane. -/
theorem flatMap_wrVal (ns : List Nat) (r v : Nat → Nat) (l : Nat) :
    (ns.flatMap fun i => wrVal 1 (r i) l (v i)) = (ns.map fun i => (r i, BitVec.ofNat 32 (v i))).map fun x => (x.1, l, x.2) := by
  rw [List.map_map, List.map_eq_flatMap]
  rfl

theorem Use.ok_group {n : Nat} {r : BitVec 7} (h : (Use.group n).ok r = true) : r.toNat + n ≤ 128 := by
  simpa [Use.ok] using h

/-- A body that writes, lane by lane, registers of the group of n from vD on. -/
theorem writesRegs_of_group {j : Instr} {r : Rule} {n : Nat} {g : Ctx → Nat → List RegW} {ws : Ctx → Nat → List (Nat × Word)}
    (run : ∀ s, exec j s = runWave (insOf j) (regBody fun c => c.lanes.flatMap (g c)) s)
    (rule : xRule (insOf j).op (insOf j).f = some r ∧ r.d = .group n)
    (writes : ∀ k i w fr l, g (ctxOf j k i w fr) l = (ws (ctxOf j k i w fr) l).map fun x => (x.1, l, x.2))
    (inGroup : ∀ k i w fr l, ∀ x ∈ ws (ctxOf j k i w fr) l, x.1 < (insOf j).f.d.toNat + n) : WritesRegs j ws := by
  refine writesRegs_of_regBody run (fun k i w fr => List.flatMap_congr fun l _ => writes k i w fr l) fun hw k i w fr x hx => ?_
  obtain ⟨l, -, hx⟩ := List.mem_flatMap.1 hx
  rw [writes k i w fr l] at hx
  obtain ⟨y, hy, rfl⟩ := List.mem_map.1 hx
  exact (inGroup k i w fr l y hy).trans_le (Use.ok_group (rule.2 ▸ XF.ok_d (ok_of_wellFormed hw rule.1)))

theorem mem_group {n d : Nat} {v : Nat → Word} {x : Nat × Word} (h : x ∈ (List.range n).map fun i => (d + i, v i)) :
    x.1 < d + n := by
  obtain ⟨i, hi, rfl⟩ := List.mem_map.1 h
  exact Nat.add_lt_add_left (List.mem_range.1 hi) d

/-! ### UNPK3 (R183) -/

theorem unpk3_value (w : Word) (m i : Nat) :
    BitVec.ofNat 32 (wrap 32 (tritOf (w.toNat / 2 ^ (8 * m) % 256) i)) =
      let x := (w.extractLsb' (8 * m) 8).toNat
      let b := if 243 ≤ x then 121 else x
      BitVec.ofInt 32 (((b / 3 ^ i % 3 : Nat) : Int) - 1) := by
  rw [ofNat_wrap, BitVec.extractLsb'_toNat, Nat.shiftRight_eq_div_pow]
  rfl

/-! ### The block of a lane (R68, R184) -/

/-- The first n registers of a group, as a number and as a bit pattern of the block's width. -/
theorem foldl_block (w : Wave) (r m l : Nat) {n : Nat} (hn : n ≤ m) :
    ((List.range n).foldl (fun v j => v ||| (((w.reg (r + j) l).setWidth (32 * m)) <<< (32 * j))) (0 : BitVec (32 * m))).toNat =
      (List.range n).foldl (fun v j => v + (w.reg (r + j) l).toNat * 2 ^ (32 * j)) 0 ∧
    (List.range n).foldl (fun v j => v + (w.reg (r + j) l).toNat * 2 ^ (32 * j)) 0 < 2 ^ (32 * n) := by
  induction n with
  | zero => simp
  | succ n ih =>
    obtain ⟨bits, low⟩ := ih (Nat.le_of_succ_le hn)
    simp only [List.range_succ, List.foldl_append, List.foldl_cons, List.foldl_nil]
    set v := (List.range n).foldl (fun v j => v + (w.reg (r + j) l).toNat * 2 ^ (32 * j)) 0
    have word : (w.reg (r + n) l).toNat < 2 ^ 32 := (w.reg (r + n) l).isLt
    have width : 2 ^ (32 * (n + 1)) = 2 ^ 32 * 2 ^ (32 * n) := by rw [← Nat.pow_add]; congr 1; omega
    have top : (w.reg (r + n) l).toNat * 2 ^ (32 * n) + 2 ^ (32 * n) ≤ 2 ^ 32 * 2 ^ (32 * n) := by
      rw [← Nat.succ_mul]
      exact Nat.mul_le_mul_right _ word
    have inside : 2 ^ (32 * (n + 1)) ≤ 2 ^ (32 * m) := Nat.pow_le_pow_right two_pos (by omega)
    have fits : (w.reg (r + n) l).toNat < 2 ^ (32 * m) := word.trans_le (Nat.pow_le_pow_right two_pos (by omega))
    refine ⟨?_, by omega⟩
    rw [BitVec.toNat_or, bits, BitVec.toNat_shiftLeft, BitVec.toNat_setWidth, Nat.mod_eq_of_lt fits, Nat.shiftLeft_eq,
      Nat.mod_eq_of_lt (by omega), Nat.or_comm, Nat.mul_comm, ← Nat.two_pow_add_eq_or_of_lt low, Nat.add_comm]

theorem toNat_blockBits (w : Wave) (r m l : Nat) : (blockBits w r m l).toNat = groupBlock w r m l :=
  (foldl_block w r m l (Nat.le_refl m)).1

/-! ### UNPKN (R184) -/

/-- Code i of a block, the most negative one read as the next (R67, R70). -/
theorem blockCode_eq {n m : Nat} (v : BitVec n) (i : Nat) : blockCode m v.toNat i = codeAt m v i := by
  have code : toSigned m (v.toNat / 2 ^ (m * i)) = (v.extractLsb' (m * i) m).toInt := by
    rw [toSigned_eq]
    refine congrArg BitVec.toInt (BitVec.eq_of_toNat_eq ?_)
    rw [BitVec.toNat_ofNat, BitVec.extractLsb'_toNat, Nat.shiftRight_eq_div_pow]
  have least : -2 ^ (m - 1) ≤ (v.extractLsb' (m * i) m).toInt := by exact_mod_cast BitVec.le_toInt _
  unfold blockCode codeAt
  dsimp only
  rw [code]
  split <;> omega

theorem unpkn_value (c : Ctx) (l : Nat) :
    BitVec.ofNat 32 (let m := blockM c.f.t
        let q := blockCode m (groupBlock c.w c.f.a.toNat m l) (c.opB 1 l % 32)
        if c.f.m = 1 then (f32.round 0 (decide (q < 0)) q.natAbs (1 - (m : Int))).1 else wrap 32 q) =
      BitVec.ofNat 32 (let m := c.f.t.toNat + 2
        let q := codeAt m (blockBits c.w c.f.a.toNat m l) (c.opB 1 l % 32)
        if c.f.m = 1 then (f32.round 0 (decide (q < 0)) q.natAbs (1 - (m : Int))).1 else (BitVec.ofInt 32 q).toNat) := by
  dsimp only
  rw [← toNat_blockBits, blockCode_eq]
  split
  · rfl
  · rw [ofNat_wrap, BitVec.ofNat_toNat, BitVec.setWidth_eq]
    rfl

/-! ### PACKN (R185) -/

/-- A block with the m-bit code at place i replaced. -/
def replaceCode {n : Nat} (m : Nat) (v : BitVec n) (i : Nat) (q : Int) : BitVec n :=
  (v &&& ~~~(((BitVec.allOnes m).setWidth n) <<< (m * i))) ||| (((BitVec.ofInt m q).setWidth n) <<< (m * i))

theorem putCode_eq {n m : Nat} (v : BitVec n) {i : Nat} (h : m * (i + 1) ≤ n) (q : Int) :
    putCode m v.toNat i q = (replaceCode m v i q).toNat := by
  have wrapped : wrap m q = (BitVec.ofInt m q).toNat := (BitVec.toNat_ofInt ..).symm
  have succ : m * (i + 1) = m * i + m := Nat.mul_succ ..
  have low : v.toNat % 2 ^ (m * i) < 2 ^ (m * i) := Nat.mod_lt _ (by positivity)
  have middle : wrap m q * 2 ^ (m * i) + v.toNat % 2 ^ (m * i) < 2 ^ (m * (i + 1)) := by
    have := Nat.mul_le_mul_right (2 ^ (m * i)) (Nat.succ_le_of_lt (wrap_lt m q))
    rw [Nat.succ_mul, ← Nat.pow_add, Nat.add_comm m, ← succ] at this
    omega
  have parts : putCode m v.toNat i q =
      2 ^ (m * (i + 1)) * (v.toNat / 2 ^ (m * (i + 1))) + (2 ^ (m * i) * wrap m q + v.toNat % 2 ^ (m * i)) := by
    unfold putCode
    ring
  refine Nat.eq_of_testBit_eq fun b => ?_
  rw [parts, Nat.testBit_two_pow_mul_add _ (by rw [Nat.mul_comm]; exact middle), Nat.testBit_two_pow_mul_add _ low, wrapped,
    BitVec.testBit_toNat, BitVec.testBit_toNat, Nat.testBit_mod_two_pow, Nat.testBit_div_two_pow, BitVec.testBit_toNat]
  simp only [replaceCode, BitVec.getLsbD_or, BitVec.getLsbD_and, BitVec.getLsbD_not, BitVec.getLsbD_shiftLeft,
    BitVec.getLsbD_setWidth, BitVec.getLsbD_allOnes]
  by_cases below : b < m * i
  · have inside : b < m * (i + 1) := by omega
    simp [inside, below, inside.trans_le h]
  · by_cases inside : b < m * (i + 1)
    · have own : b - m * i < m := by omega
      have fits : b - m * i < n := by omega
      simp [inside, below, own, fits, inside.trans_le h]
    · have other : ¬ b - m * i < m := by omega
      have place : b - m * (i + 1) + m * (i + 1) = b := by omega
      have kept : (v.getLsbD b && decide (b < n)) = v.toNat.testBit b := by
        rw [BitVec.testBit_toNat, Bool.and_eq_left_iff_imp]
        exact fun bit => decide_eq_true (BitVec.lt_of_getLsbD bit)
      simp [inside, below, other, place, kept, BitVec.getLsbD_of_ge (BitVec.ofInt m q) (b - m * i) (by omega)]

theorem packn_value (c : Ctx) (k l : Nat) :
    (let m := blockM c.f.t
      let q : Int := 2 ^ (m - 1) - 1
      wrGroup c.f.d.toNat m l (putCode m (groupBlock c.w c.f.d.toNat m k) (c.opB 1 k % 32)
        (clampI (-q) q (toSigned 32 (c.opA 1 k))))) =
      let m := c.f.t.toNat + 2
      let q : Int := max (1 - 2 ^ (m - 1)) (min (2 ^ (m - 1) - 1) (c.w.reg c.f.a.toNat k).toInt)
      let v := replaceCode m (blockBits c.w c.f.d.toNat m k) (c.opB 1 k % 32) q
      ((List.range m).map fun j => (c.f.d.toNat + j, v.extractLsb' (32 * j) 32)).map fun x => ((x.1, l, x.2) : RegW) := by
  dsimp only
  rw [show blockM c.f.t = c.f.t.toNat + 2 from rfl]
  set m := c.f.t.toNat + 2
  have pos : (1 : Int) ≤ 2 ^ (m - 1) := one_le_pow₀ (by decide)
  have clamped : clampI (-(2 ^ (m - 1) - 1)) (2 ^ (m - 1) - 1) (toSigned 32 (c.opA 1 k)) =
      max (1 - 2 ^ (m - 1)) (min (2 ^ (m - 1) - 1) (c.w.reg c.f.a.toNat k).toInt) := by
    rw [clampI_eq (by omega), c.opA_word, toSigned_toNat, min_comm, neg_sub]
  have place : m * (c.opB 1 k % 32 + 1) ≤ 32 * m := by
    rw [Nat.mul_comm 32]
    exact Nat.mul_le_mul_left m (Nat.succ_le_of_lt (Nat.mod_lt _ (by decide)))
  rw [clamped, ← toNat_blockBits, putCode_eq _ place, List.map_map]
  refine List.map_congr_left fun j _ => ?_
  refine congrArg (fun x => (c.f.d.toNat + j, l, x)) (BitVec.eq_of_toNat_eq ?_)
  rw [BitVec.toNat_ofNat, BitVec.extractLsb'_toNat, Nat.shiftRight_eq_div_pow]

end Sys2Proof.Machine
end

section
/-! O15, search helpers: the windows of SSI and the sorted list of KINS. -/

namespace Sys2Proof.Machine

open Sys2Proof

/-- A key of the instruction's type in a register of a lane (R187, R188). -/
def keyOf (c : Ctx) (r l : Nat) : Int := if tySigned c.f.t then (c.w.reg r l).toInt else ((c.w.reg r l).toNat : Int)

theorem tyRead_reg (c : Ctx) (r l : Nat) : tyRead c.f.t 32 (c.w.reg r l).toNat = keyOf c r l := by
  unfold tyRead keyOf
  rw [toSigned_toNat, Nat.mod_eq_of_lt (c.w.reg r l).isLt]

/-! ### SSI (R187) -/

theorem window_eq (c : Ctx) (r l : Nat) : window c r l = (List.range 4).map fun j => keyOf c (r + j) l :=
  List.map_congr_left fun _ _ => tyRead_reg ..

/-- The mask of four keys that satisfy a test, bit by bit. -/
theorem keyMask_four (p : Int → Bool) (f : Nat → Int) : keyMask p ((List.range 4).map f) =
    (if p (f 0) then 1 else 0) + (if p (f 1) then 2 else 0) + (if p (f 2) then 4 else 0) + (if p (f 3) then 8 else 0) := by
  unfold keyMask
  cases h0 : p (f 0) <;> cases h1 : p (f 1) <;> cases h2 : p (f 2) <;> cases h3 : p (f 3) <;>
    simp [List.range_succ, h0, h1, h2, h3]

theorem contains_four (f : Nat → Int) (x : Int) :
    ((List.range 4).map f).contains x = (x == f 0 || x == f 1 || x == f 2 || x == f 3) := by
  show [f 0, f 1, f 2, f 3].contains x = _
  simp only [List.contains_cons, List.contains_nil, Bool.or_false, Bool.or_assoc]

theorem length_filter_map (p : Int → Bool) (f : Nat → Int) (n : Nat) :
    (((List.range n).map f).filter p).length = ((List.range n).filter fun i => p (f i)).length := by
  rw [List.filter_map, List.length_map]
  rfl

/-- SSI of two windows of four keys each. -/
def ssiWord (a b : Nat → Int) : Nat :=
  let lim := min (a 3) (b 3)
  let inA := fun x => x == a 0 || x == a 1 || x == a 2 || x == a 3
  let inB := fun x => x == b 0 || x == b 1 || x == b 2 || x == b 3
  let one := fun (p : Bool) (n : Nat) => if p then n else 0
  one (inB (a 0)) 1 + one (inB (a 1)) 2 + one (inB (a 2)) 4 + one (inB (a 3)) 8 +
  one (inA (b 0)) 16 + one (inA (b 1)) 32 + one (inA (b 2)) 64 + one (inA (b 3)) 128 +
  ((List.range 4).filter fun i => decide (a i ≤ lim)).length * 256 +
  ((List.range 4).filter fun i => decide (b i ≤ lim)).length * 4096

theorem ssi_value (c : Ctx) (l : Nat) :
    (let a := window c c.f.a.toNat l
      let b := window c c.f.b.toNat l
      let lim := min (a.getD 3 0) (b.getD 3 0)
      keyMask b.contains a + keyMask a.contains b * 16 +
        (a.filter fun x => decide (x ≤ lim)).length * 256 + (b.filter fun x => decide (x ≤ lim)).length * 4096) =
      ssiWord (fun i => keyOf c (c.f.a.toNat + i) l) fun i => keyOf c (c.f.b.toNat + i) l := by
  have last (f : Nat → Int) : ((List.range 4).map f).getD 3 0 = f 3 := rfl
  simp only [window_eq, last, length_filter_map, keyMask_four, contains_four, ssiWord, Nat.add_mul, ite_mul, Nat.zero_mul,
    Nat.one_mul, Nat.reduceMul, Nat.add_assoc]

/-! ### KINS (R188) -/

/-- Where a list keeps its length, the elements up to the place stay, and those after it move up by one. -/
theorem insertKeep_getD {α : Type} (x d : α) {xs : List α} {i j : Nat} (hi : i ≤ j) (hj : j < xs.length) :
    (insertKeep i x xs).getD j d = if j = i then x else xs.getD (j - 1) d := by
  have taken : (xs.take i).length = i := List.length_take_of_le (hi.trans hj.le)
  have cut : (insertKeep i x xs).getD j d = (xs.take i ++ x :: xs.drop i).getD j d := by
    simp only [insertKeep, List.getD_eq_getElem?_getD, List.getElem?_take, if_pos hj]
  rw [cut, List.getD_append_right _ _ _ _ (taken.le.trans hi), taken]
  by_cases place : j = i
  · simp [place]
  · obtain ⟨k, hk⟩ := Nat.exists_eq_add_of_lt (Nat.lt_of_le_of_ne hi (Ne.symm place))
    subst hk
    rw [if_neg place]
    simp [List.getD_eq_getElem?_getD, List.getElem?_drop, show i + k + 1 - i = k + 1 by omega]

/-- The j-th word of a list of registers into which a value has been inserted. -/
theorem insertKeep_reg (w : Wave) (r m k v : Nat) {pos j : Nat} (hp : pos ≤ j) (hj : j < k) :
    BitVec.ofNat 32 ((insertKeep pos v ((List.range k).map fun j => (w.reg (r + j) m).toNat)).getD j 0) =
      if j = pos then BitVec.ofNat 32 v else w.reg (r + j - 1) m := by
  rw [insertKeep_getD _ _ hp (by simpa using hj)]
  split
  · rfl
  · have before : j - 1 < k := by omega
    have place : r + (j - 1) = r + j - 1 := by omega
    simp [List.getD_eq_getElem?_getD, before, place]

/-- Whether KINS puts the candidate before the j-th key (R188). -/
def kinsBetter (c : Ctx) (m j : Nat) : Bool :=
  let x := keyOf c c.f.a.toNat m
  let y := keyOf c (c.f.d.toNat + j) m
  if c.f.imm.toNat / 8 % 2 = 1 then decide (x < y) else decide (y < x)

/-- The place of insertion: after the keys that the candidate does not better. -/
def kinsPlace (c : Ctx) (m : Nat) : Nat :=
  ((List.range (c.f.imm.toNat % 8 + 1)).filter fun j => !kinsBetter c m j).length

/-- The writes of KINS to the j-th registers of keys and payloads, from the sources of lane m. -/
def kinsWrites (c : Ctx) (m j : Nat) : List (Nat × Word) :=
  if j < kinsPlace c m then []
  else if j = kinsPlace c m then
    [(c.f.d.toNat + j, c.w.reg c.f.a.toNat m), (c.f.c.toNat + j, BitVec.ofNat 32 (c.opB 1 m))]
  else [(c.f.d.toNat + j, c.w.reg (c.f.d.toNat + j - 1) m), (c.f.c.toNat + j, c.w.reg (c.f.c.toNat + j - 1) m)]

/-- The model's bound for bit 3 of an immediate of four bits, and its reading of the keys. -/
theorem kinsBetter_eq (c : Ctx) (himm : c.f.imm.toNat < 16) (m j : Nat) :
    (let num := fun v => tyRead c.f.t 32 v
      let x := c.opA 1 m
      let v := (c.w.reg (c.f.d.toNat + j) m).toNat
      if 8 ≤ c.uimm then decide (num x < num v) else decide (num v < num x)) = kinsBetter c m j := by
  have upper : 8 ≤ c.uimm ↔ c.f.imm.toNat / 8 % 2 = 1 := by
    have : c.uimm = c.f.imm.toNat := rfl
    omega
  simp only [c.opA_word, tyRead_reg]
  exact if_congr upper rfl rfl

theorem kins_write (c : Ctx) (m l : Nat) {j : Nat} (hj : j < c.f.imm.toNat % 8 + 1) :
    (let regs := fun r => (List.range (c.f.imm.toNat % 8 + 1)).map fun j => (c.w.reg (r + j) m).toNat
      if j < kinsPlace c m then []
      else
        wrVal 1 (c.f.d.toNat + j) l ((insertKeep (kinsPlace c m) (c.opA 1 m) (regs c.f.d.toNat)).getD j 0) ++
          wrVal 1 (c.f.c.toNat + j) l ((insertKeep (kinsPlace c m) (c.opB 1 m) (regs c.f.c.toNat)).getD j 0)) =
      (kinsWrites c m j).map fun x => ((x.1, l, x.2) : RegW) := by
  unfold kinsWrites
  by_cases low : j < kinsPlace c m
  · rw [if_pos low, if_pos low]
    rfl
  · have word (r v : Nat) : wrVal 1 r l v = [(r, l, BitVec.ofNat 32 v)] := rfl
    rw [if_neg low, if_neg low, word, word, insertKeep_reg _ _ _ _ _ (not_lt.1 low) hj, insertKeep_reg _ _ _ _ _ (not_lt.1 low) hj]
    by_cases place : j = kinsPlace c m
    · simp only [if_pos place, c.opA_word, BitVec.ofNat_toNat, BitVec.setWidth_eq]
      rfl
    · simp only [if_neg place]
      rfl

theorem kins_writes (c : Ctx) (himm : c.f.imm.toNat < 16) (m l : Nat) :
    (let k := c.uimm % 8 + 1
      let num := fun v => tyRead c.f.t 32 v
      let keys := (List.range k).map fun j => (c.w.reg (c.f.d.toNat + j) m).toNat
      let pays := (List.range k).map fun j => (c.w.reg (c.f.c.toNat + j) m).toNat
      let x := c.opA 1 m
      let better := fun v => if 8 ≤ c.uimm then decide (num x < num v) else decide (num v < num x)
      let pos := (keys.filter fun v => !better v).length
      (List.range k).flatMap fun j =>
        if j < pos then []
        else
          wrVal 1 (c.f.d.toNat + j) l ((insertKeep pos x keys).getD j 0) ++
            wrVal 1 (c.f.c.toNat + j) l ((insertKeep pos (c.opB 1 m) pays).getD j 0)) =
      ((List.range (c.f.imm.toNat % 8 + 1)).flatMap (kinsWrites c m)).map fun x => ((x.1, l, x.2) : RegW) := by
  have better (j : Nat) := kinsBetter_eq c himm m j
  dsimp only at better
  simp only [List.filter_map, List.length_map, Function.comp_def, better, List.map_flatMap]
  exact List.flatMap_congr fun j hj => kins_write c m l (List.mem_range.1 hj)

/-- The registers that KINS writes are in its two groups. -/
theorem kinsWrites_lt {c : Ctx} {m j : Nat} {x : Nat × Word} (hx : x ∈ kinsWrites c m j) {k : Nat} (hj : j < k)
    (keys : c.f.d.toNat + k ≤ 128) (pays : c.f.c.toNat + k ≤ 128) : x.1 < 128 := by
  unfold kinsWrites at hx
  split at hx
  · simp at hx
  · split at hx <;> simp only [List.mem_cons, List.not_mem_nil, or_false] at hx <;> rcases hx with rfl | rfl <;> dsimp only <;> omega

theorem kins_result (f : XF) : WritesRegs (.kins f) fun c l =>
    (List.range (f.imm.toNat % 8 + 1)).flatMap (kinsWrites c (c.src l)) := by
  intro hw
  have ok := ok_of_wellFormed (j := .kins f) hw rfl
  obtain ⟨-, -, -, -, -, -, -, keys, -, -, pays, -, more⟩ := (f.ok_iff _).1 ok
  have himm : f.imm.toNat < 16 := (of_decide_eq_true more).1
  refine writesRegs_of_regBody (fun _ => rfl) (fun k i w fr => List.flatMap_congr fun l _ =>
    kins_writes (ctxOf (.kins f) k i w fr) himm _ l) (fun _ k i w fr x hx => ?_) hw
  obtain ⟨l, -, hx⟩ := List.mem_flatMap.1 hx
  rw [kins_writes (ctxOf (.kins f) k i w fr) himm _ l] at hx
  obtain ⟨y, hy, rfl⟩ := List.mem_map.1 hx
  obtain ⟨j, hj, hy⟩ := List.mem_flatMap.1 hy
  exact kinsWrites_lt hy (List.mem_range.1 hj) (Use.ok_group keys) (Use.ok_group pays)

end Sys2Proof.Machine
end

section
/-! O15, BFPQ: register writes, the scale of the block and its binding, each by itself. -/

namespace Sys2Proof.Machine

open Sys2Proof

/-! ### The fragment that goes on -/

/-- A fragment that has gone on after its instruction, itself as before but for spin detection and what the end of an instruction
changes. -/
theorem Frag.goesOn_resume {f fr : Frag} (mask : f.mask = fr.mask) (tokens : f.tokens = fr.tokens) (handler : f.handler = fr.handler)
    (cons : f.cons = fr.cons) (held : f.held = fr.held) (len now : Nat) :
    let next := advance fr (fr.pc + BitVec.ofNat 64 len)
    GoesOn fr (f.resume next.1 next.2 now) len :=
  ⟨mask, tokens, handler, cons, rfl, held, fun hr => by
    have next := advance_none hr (fr.pc + BitVec.ofNat 64 len)
    exact ⟨congrArg Prod.fst next, congrArg Prod.snd next⟩⟩

/-- A fragment after its instruction's register writes, which end spin detection where a value changed (R142). -/
def Frag.unspun (changed : Bool) (f : Frag) : Frag := if changed then { f with spins := [], prio := 0 } else f

theorem Frag.goesOn_unspun (fr : Frag) (changed : Bool) (len now : Nat) :
    let next := advance fr (fr.pc + BitVec.ofNat 64 len)
    GoesOn fr ((fr.unspun changed).resume next.1 next.2 now) len := by
  cases changed with
  | false => exact Frag.goesOn_resume (f := fr) rfl rfl rfl rfl rfl len now
  | true => exact Frag.goesOn_resume (fr := fr) (f := { fr with spins := [], prio := 0 }) rfl rfl rfl rfl rfl len now

/-! ### Registers -/

/-- What a lane's registers hold after writes gathered lane by lane. -/
theorem Wave.writeRegs_laneWrites (c : Ctx) {ws : Nat → List (Nat × Word)} (named : ∀ l, ∀ y ∈ ws l, y.1 < 128) (w : Wave)
    {r l : Nat} (hr : r < 128) (hl : l < 32) :
    (w.writeRegs (laneWrites c ws)).reg r l = if l ∈ c.lanes then afterWrites (ws l) r (w.reg r l) else w.reg r l := by
  have inFile : ∀ x ∈ laneWrites c ws, x.1 < 128 ∧ x.2.1 < 32 := by
    intro x hx
    obtain ⟨m, hm, hx⟩ := List.mem_flatMap.1 hx
    obtain ⟨y, hy, rfl⟩ := List.mem_map.1 hx
    exact ⟨named m y hy, Ctx.lanes_lt hm⟩
  rw [Wave.writeRegs_reg _ inFile w hr hl]
  exact foldl_lanes c.lanes c.lanes_nodup ws r l _

/-! ### Scales (R193) -/

theorem Wave.foldl_putScale_rest (k : Nat) (v : Byte) (ls : List Nat) (w : Wave) :
    ls.foldl (fun w l => w.putScale k l v) w = { w with scales := (ls.foldl (fun w l => w.putScale k l v) w).scales } := by
  induction ls generalizing w with
  | nil => rfl
  | cons l ls ih => exact ih (w.putScale k l v)

theorem Wave.foldl_putScale_bind (k : Nat) (v : Byte) (ls : List Nat) (w : Wave) (b : Nat) :
    (ls.foldl (fun w l => w.putScale k l v) w).bind b = w.bind b := by
  rw [Wave.foldl_putScale_rest]
  rfl

theorem Wave.putScale_scale (w : Wave) (k m : Nat) (v : Byte) {j l : Nat} (hm : m < 32) (hl : l < 32) :
    (w.putScale k m v).scale j l = if j = k ∧ l = m then substE8 v else w.scale j l := by
  have key : 32 * j + l = 32 * k + m ↔ j = k ∧ l = m := by omega
  exact (Tab.getD_setD ..).trans (if_congr key rfl rfl)

/-- One scale written to a list of lanes. -/
theorem Wave.foldl_putScale_scale (k : Nat) (v : Byte) {ls : List Nat} (hls : ∀ m ∈ ls, m < 32) (w : Wave) {j l : Nat} (hl : l < 32) :
    (ls.foldl (fun w l => w.putScale k l v) w).scale j l = if j = k ∧ l ∈ ls then substE8 v else w.scale j l := by
  induction ls generalizing w with
  | nil => simp
  | cons m ls ih =>
    rw [List.foldl_cons, ih (fun n hn => hls n (List.mem_cons_of_mem _ hn)), Wave.putScale_scale _ _ _ _ (hls m List.mem_cons_self) hl]
    by_cases scale : j = k
    · by_cases own : l = m
      · simp [scale, own]
      · simp [scale, own]
    · simp [scale]

/-! ### Bindings (R193, R195) -/

/-- A maker of a binding makes every other one that shares with it lose its own. -/
theorem Wave.makeBind_bind (w : Wave) (k : Nat) {new : Binding} (unbound : bindOverlaps 0 new = false) (b : Nat) :
    (w.makeBind k new).bind b = if b = k then new else if bindOverlaps (w.bind b) new then lostBind else w.bind b := by
  unfold Wave.makeBind
  refine (Tab.getD_setD ..).trans (if_ctx_congr Iff.rfl (fun _ => rfl) fun other => ?_)
  have entries : (w.binds.map fun e => if e.1 ≠ k ∧ bindOverlaps e.2 new = true then (e.1, lostBind) else e) =
      w.binds.map fun e => (e.1, if e.1 ≠ k ∧ bindOverlaps e.2 new = true then lostBind else e.2) :=
    List.map_congr_left fun e _ => by split <;> rfl
  show Tab.getD 0 b (w.binds.map fun e => if e.1 ≠ k ∧ bindOverlaps e.2 new = true then (e.1, lostBind) else e) = _
  unfold Wave.bind Tab.getD
  rw [entries, Tab.find_map b fun n v => if n ≠ k ∧ bindOverlaps v new = true then lostBind else v]
  cases Tab.find b w.binds with
  | none => exact (if_neg (Bool.eq_false_iff.1 unbound)).symm
  | some v => simp [other]

theorem Wave.makeBind_rest (w : Wave) (k : Nat) (new : Binding) :
    w.makeBind k new = { w with binds := (w.makeBind k new).binds } := rfl

/-- The binding to one register (R193). -/
def registerBind (d : Nat) (frame : Bool) : Binding := mkBind 1 (groupInfo d 1 frame)

theorem registerBind_kind : ∀ (d : BitVec 7) (frame : Bool), bindKind (registerBind d.toNat frame) = 1 := by decide

theorem registerBind_regs : ∀ (d : BitVec 7) (frame : Bool), bindRegs (registerBind d.toNat frame) = [d.toNat] := by decide

theorem registerBind_frame : ∀ (d : BitVec 7) (frame : Bool),
    decide (bindInfo (registerBind d.toNat frame) / 1024 % 2 = 1) = (frame && decide (48 ≤ d.toNat ∧ d.toNat < 64)) := by decide

/-- A binding shares with that to one register where it has the register (R195). -/
theorem bindOverlaps_registerBind (b : Binding) (d : BitVec 7) (frame : Bool) :
    bindOverlaps b (registerBind d.toNat frame) = bindHasReg b d.toNat frame := by
  unfold bindOverlaps
  rw [registerBind_kind, registerBind_regs]
  dsimp only
  rw [registerBind_frame]
  unfold bindHasReg
  by_cases framed : 48 ≤ d.toNat ∧ d.toNat < 64
  · simp [framed, ← Bool.and_assoc]
  · have open_ : d.toNat < 48 ∨ 64 ≤ d.toNat := by omega
    simp [framed, open_, ← Bool.and_assoc]

/-! ### The body of BFPQ (R186, R195) -/

/-- The scale and the codes of the block of a fragment: the values of the enabled lanes, the others as 0.0. -/
def bfpqBlock (c : Ctx) : Nat × List Int :=
  quantBlock (c.f.t.toNat + 2) ((List.range 32).map fun l =>
    if l ∈ c.lanes then f32.dec (c.w.reg c.f.a.toNat l).toNat else .fin false 0 0)

/-- The code of a lane, as a register write to vD. -/
def bfpqCode (c : Ctx) (l : Nat) : List (Nat × Word) := [(c.f.d.toNat, BitVec.ofInt 32 ((bfpqBlock c).2.getD l 0))]

/-- The wave after BFPQ, with an enabled lane, before its fragment goes on. -/
def bfpqWave (c : Ctx) (w : Wave) : Wave :=
  let ws := laneWrites c (bfpqCode c)
  let w1 := (w.writeRegs ws).setFrag c.i (Frag.unspun (w.changes c.fr.mask ws))
  (c.lanes.foldl (fun w l => w.putScale c.f.c.toNat l (BitVec.ofNat 8 (bfpqBlock c).1)) w1).makeBind c.f.c.toNat
    (registerBind c.f.d.toNat w1.landing.mode)

theorem bfpqBlock_eq (c : Ctx) :
    quantBlock (blockM c.f.t) ((List.range 32).map fun l =>
      if c.lanes.contains l then f32.dec (c.opA 1 l) else .fin false 0 0) = bfpqBlock c := by
  simp only [bfpqBlock, List.contains_iff_mem]
  rfl

theorem State.setWave_setWave (k : Nat) (g h : Wave → Wave) (s : State) :
    (s.setWave k g).setWave k h = s.setWave k fun w => h (g w) :=
  congrArg (fun t => { s with waves := t }) (Tab.upd_upd k g h s.waves)

/-- With an enabled lane, BFPQ changes its wave and nothing else. -/
theorem bfpqBody_eq {c : Ctx} (h : c.lanes ≠ []) (s : State) : bfpqBody c s = .next (s.setWave c.k (bfpqWave c)) := by
  have writes : (c.lanes.flatMap fun l => wrVal 1 c.f.d.toNat l (wrap 32 ((bfpqBlock c).2.getD l 0))) =
      laneWrites c (bfpqCode c) :=
    List.flatMap_congr fun l _ => congrArg (fun x => [(c.f.d.toNat, l, x)]) (ofNat_wrap ..)
  have some : ¬ c.lanes.isEmpty = true := by simpa using h
  unfold bfpqBody
  rw [if_neg some]
  dsimp only
  rw [bfpqBlock_eq, writes]
  unfold State.writeRegs
  rw [State.setWave_setWave]
  rfl

section
variable (c : Ctx) (w : Wave)

theorem bfpqWave_rest : ∃ changed, bfpqWave c w =
    { w with regs := (bfpqWave c w).regs, scales := (bfpqWave c w).scales, binds := (bfpqWave c w).binds,
             frags := w.frags.modify c.i (Frag.unspun changed) } := by
  refine ⟨w.changes c.fr.mask (laneWrites c (bfpqCode c)), ?_⟩
  unfold bfpqWave
  dsimp only
  rw [Wave.makeBind_rest, Wave.foldl_putScale_rest, Wave.writeRegs_rest]
  rfl

/-- Lane l of vD takes its code. -/
theorem bfpqWave_reg {r l : Nat} (hr : r < 128) (hl : l < 32) : (bfpqWave c w).reg r l =
    if r = c.f.d.toNat ∧ l ∈ c.lanes then BitVec.ofInt 32 ((bfpqBlock c).2.getD l 0) else w.reg r l := by
  have named : ∀ l, ∀ y ∈ bfpqCode c l, y.1 < 128 := fun l y hy => by
    obtain rfl := List.mem_singleton.1 hy
    exact c.f.d.isLt
  have writes : (bfpqWave c w).reg r l = (w.writeRegs (laneWrites c (bfpqCode c))).reg r l := by
    unfold bfpqWave
    dsimp only
    rw [Wave.makeBind_rest, Wave.foldl_putScale_rest]
    exact Wave.reg_congr rfl rfl r l
  rw [writes, Wave.writeRegs_laneWrites c named w hr hl]
  by_cases lane : l ∈ c.lanes
  · by_cases dest : r = c.f.d.toNat
    · simp [lane, dest, bfpqCode, afterWrites]
    · simp [lane, dest, Ne.symm dest, bfpqCode, afterWrites]
  · simp [lane]

/-- Each enabled lane of kC takes the scale of the block. -/
theorem bfpqWave_scale {j l : Nat} (hl : l < 32) : (bfpqWave c w).scale j l =
    if j = c.f.c.toNat ∧ l ∈ c.lanes then substE8 (BitVec.ofNat 8 (bfpqBlock c).1) else w.scale j l := by
  have before : ∀ g : Frag → Frag, ((w.writeRegs (laneWrites c (bfpqCode c))).setFrag c.i g).scale j l = w.scale j l := fun g => by
    rw [Wave.writeRegs_rest]
    rfl
  unfold bfpqWave
  dsimp only
  rw [Wave.makeBind_rest]
  exact (Wave.foldl_putScale_scale _ _ (fun _ => Ctx.lanes_lt) _ hl).trans (if_congr Iff.rfl rfl (before _))

/-- kC is bound to vD, and every other binding over vD is lost. -/
theorem bfpqWave_bind (h : c.lanes ≠ []) (b : Nat) : (bfpqWave c w).bind b =
    if b = c.f.c.toNat then registerBind c.f.d.toNat w.landing.mode
    else if bindHasReg (w.bind b) c.f.d.toNat w.landing.mode then lostBind else w.bind b := by
  have written : (∃ x ∈ laneWrites c (bfpqCode c), bindHasReg (w.bind b) x.1 w.landing.mode = true) ↔
      bindHasReg (w.bind b) c.f.d.toNat w.landing.mode = true := by
    constructor
    · rintro ⟨x, hx, has⟩
      obtain ⟨l, -, hx⟩ := List.mem_flatMap.1 hx
      obtain rfl : x = (c.f.d.toNat, l, _) := by simpa [bfpqCode] using hx
      exact has
    · intro has
      obtain ⟨l, hl⟩ := List.exists_mem_of_ne_nil _ h
      exact ⟨_, List.mem_flatMap.2 ⟨l, hl, List.mem_map_of_mem List.mem_cons_self⟩, has⟩
  have stale : (w.writeRegs (laneWrites c (bfpqCode c))).bind b = _ :=
    (Wave.writeRegs_bind_iff _ w b).trans (if_congr written rfl rfl)
  unfold bfpqWave
  dsimp only
  rw [Wave.makeBind_bind _ _ (bindOverlaps_registerBind ..), Wave.foldl_putScale_bind, Wave.setFrag_landing,
    Wave.writeRegs_landing, bindOverlaps_registerBind, show Wave.bind (Wave.setFrag ..) b = _ from stale]
  by_cases has : bindHasReg (w.bind b) c.f.d.toNat w.landing.mode = true
  · simp only [has, if_true, bindHasReg_setStale]
  · simp only [has, Bool.false_eq_true, if_false]

end

/-! ### BFPQ completes -/

/-- A wave in which only registers, scales, bindings and spin detection have changed, its fragment having gone on. -/
theorem keptBesideScales_wentOn {c : Ctx} (hfr : c.w.frags[c.i]? = some c.fr) (pk : Option Nat) (now : Nat) {v : Wave}
    {changed : Bool}
    (rest : v = { c.w with regs := v.regs, scales := v.scales, binds := v.binds,
                           frags := c.w.frags.modify c.i (Frag.unspun changed) }) :
    KeptBesideScales c (v.wentOn c.i c.after.1 c.after.2 now pk) := by
  have frags : v.frags = (c.w.setFrag c.i (Frag.unspun changed)).frags := by rw [rest]; rfl
  refine ⟨by rw [rest]; rfl, fun n hn => ?_, _, ?_, c.fr.goesOn_unspun changed c.ins.len now⟩
  · rw [Wave.wentOn_other _ _ _ _ _ _ hn, frags, Wave.setFrag_get, if_neg hn]
  · rw [Wave.wentOn_frag, frags, Wave.setFrag_get, if_pos rfl, hfr]
    rfl

theorem bfpq_result (f : XF) : Completes (.bfpq f) (fun _ _ => True) fun _ _ c w' =>
    KeptBesideScales c w' ∧
    RegsAre w' (fun r l => if r = c.f.d.toNat ∧ l ∈ c.lanes then BitVec.ofInt 32 ((bfpqBlock c).2.getD l 0) else c.w.reg r l) ∧
    ScalesWritten c w' c.f.c.toNat (fun _ => BitVec.ofNat 8 (bfpqBlock c).1) ∧
    BindsAre w' fun b =>
      if c.lanes = [] then c.w.bind b
      else if b = c.f.c.toNat then registerBind c.f.d.toNat c.w.landing.mode
      else if bindHasReg (c.w.bind b) c.f.d.toNat c.w.landing.mode then lostBind else c.w.bind b := by
  refine completesVia_of_goesOn (fun _ => rfl) (fun _ => rfl) fun _ s k i w fr hi _ _ => ?_
  let c := ctxOf (.bfpq f) k i w fr
  by_cases none : c.lanes = []
  · have unwritten (p : Prop) (l : Nat) : ¬ (p ∧ l ∈ c.lanes) := fun h => by simp [none] at h
    refine ⟨s.tick (coreOf k), w, c.after.1, c.after.2, ⟨?_, hi.wave, rfl, rfl⟩, keptUpTo_tick _ s k, fun u pk _ =>
      ⟨keptBesideScales_wentOn (changed := false) hi.frag pk _ ?_, fun r l _ _ => (if_neg (unwritten _ l)).symm,
        fun j l _ _ => (if_neg (unwritten _ l)).symm, fun b => (if_pos none).symm⟩⟩
    · unfold bfpqBody
      rw [if_pos (List.isEmpty_iff.2 none)]
      rfl
    · exact congrArg (fun fs => { w with frags := fs }) (List.modify_id i w.frags).symm
  · obtain ⟨changed, rest⟩ := bfpqWave_rest c w
    refine ⟨(s.tick (coreOf k)).setWave k (bfpqWave c), bfpqWave c w, c.after.1, c.after.2,
      ⟨by rw [bfpqBody_eq none]; rfl, ?_, by rw [rest], by rw [rest]⟩, (keptUpTo_tick _ s k).setWave _, fun u pk _ =>
      ⟨keptBesideScales_wentOn hi.frag pk _ rest, fun r l hr hl => bfpqWave_reg c w hr hl,
        fun j l _ hl => bfpqWave_scale c w hl, fun b => (bfpqWave_bind c w none b).trans (if_neg none).symm⟩⟩
    rw [State.setWave_find, if_pos rfl, State.tick_waves, hi.wave]
    rfl

/-- Settles O15: what each instruction of the family writes to a lane; BFPQ also writes scales and makes a binding. -/
theorem narrowBlocksAndSearch : Obligations.NarrowBlocksAndSearch := by
  refine ⟨⟨fun f => ?_, fun f => ?_, fun f => ?_⟩, ⟨fun f => ?_, kins_result⟩, bfpq_result⟩
  · exact writesRegs_of_group (n := 5) (fun _ => rfl) ⟨rfl, rfl⟩
      (fun k i w fr l => (flatMap_wrVal ..).trans
        (congrArg (List.map _) (List.map_congr_left fun i _ => congrArg (Prod.mk _) (unpk3_value ..))))
      fun _ _ _ _ _ _ hx => mem_group hx
  · exact wordResult_of_laneBody (fun _ => rfl) fun _ k i w fr l => unpkn_value (ctxOf (.unpkn f) k i w fr) l
  · exact writesRegs_of_group (n := f.t.toNat + 2) (fun _ => rfl) ⟨rfl, rfl⟩
      (fun k i w fr l => packn_value (ctxOf (.packn f) k i w fr) _ l) fun _ _ _ _ _ _ hx => mem_group hx
  · exact wordResult_of_laneBody (fun _ => rfl) fun _ k i w fr l =>
      congrArg (BitVec.ofNat 32) (ssi_value (ctxOf (.ssi f) k i w fr) l)

end Sys2Proof.Machine
end

section
/-! O16, the value of ACT: the sum of finite values is exact, rounding down is the floor, and the entry is that of R190. -/

namespace Sys2Proof.Machine

open Sys2Proof

/-! ### Finite values as rational numbers (R64, R174) -/

theorem FVal.rat_fin (s : Bool) (m : Nat) (e : Int) : (FVal.fin s m e).rat = (if s then -1 else 1) * m * (2 : ℚ) ^ e := rfl

theorem FVal.rat_zero (s : Bool) (e : Int) : (FVal.fin s 0 e).rat = 0 := by simp [FVal.rat_fin]

theorem FVal.rat_eq_zero_iff (s : Bool) (m : Nat) (e : Int) : (FVal.fin s m e).rat = 0 ↔ m = 0 := by
  have power : (2 : ℚ) ^ e ≠ 0 := zpow_ne_zero _ two_ne_zero
  cases s <;> simp [FVal.rat_fin, power]

theorem FVal.rat_neg (x : FVal) : x.neg.rat = -x.rat := by
  match x with
  | .nan => exact neg_zero.symm
  | .inf _ => exact neg_zero.symm
  | .fin s m e => cases s <;> simp [FVal.neg, FVal.rat_fin]

/-- A value scaled to a lower exponent is the same value. -/
theorem signedAt_rat (s : Bool) (m : Nat) {e q : Int} (h : q ≤ e) : (signedAt s m e q : ℚ) * 2 ^ q = (FVal.fin s m e).rat := by
  have power : (2 : ℚ) ^ (e - q).toNat * 2 ^ q = 2 ^ e := by
    rw [← zpow_natCast, Int.toNat_of_nonneg (by omega), ← zpow_add₀ two_ne_zero]
    congr 1
    omega
  cases s <;> simp [signedAt, scaleTo, FVal.rat_fin, mul_assoc, power]

/-- A whole number of units, as the sum of finite values gives it. -/
theorem FVal.rat_natAbs (z q : Int) : (FVal.fin (decide (z < 0)) z.natAbs q).rat = z * 2 ^ q := by
  rw [FVal.rat_fin]
  rcases lt_or_ge z 0 with neg | pos
  · rw [decide_eq_true neg, Nat.cast_natAbs, abs_of_neg neg, if_pos rfl]
    push_cast
    ring
  · rw [decide_eq_false (not_lt.2 pos), Nat.cast_natAbs, abs_of_nonneg pos, if_neg Bool.false_ne_true]
    ring

/-- The sum of finite values is a finite value, exactly. -/
theorem FVal.add_fin (rm : RM) (s t : Bool) (m n : Nat) (e g : Int) :
    ∃ u k h, (FVal.fin s m e).add rm (.fin t n g) = .fin u k h ∧
      (FVal.fin u k h).rat = (FVal.fin s m e).rat + (FVal.fin t n g).rat := by
  set q := min e g
  have sum : ((signedAt s m e q + signedAt t n g q : Int) : ℚ) * 2 ^ q = (FVal.fin s m e).rat + (FVal.fin t n g).rat := by
    rw [Int.cast_add, add_mul, signedAt_rat s m (min_le_left e g), signedAt_rat t n (min_le_right e g)]
  by_cases zero : signedAt s m e q + signedAt t n g q = 0
  · refine ⟨_, 0, q, if_pos zero, ?_⟩
    rw [FVal.rat_zero, ← sum, zero, Int.cast_zero, zero_mul]
  · exact ⟨_, _, q, if_neg zero, (FVal.rat_natAbs ..).trans sum⟩

/-- The magnitude m over 2^k, rounded down with its sign. -/
theorem floor_signed_div (s : Bool) (m k : Nat) :
    ⌊(if s then -1 else 1) * (m : ℚ) * (2 : ℚ) ^ (-(k : Int))⌋ = (if s then -(m : Int) else m) / 2 ^ k := by
  have quotient : (if s then -1 else 1) * (m : ℚ) * (2 : ℚ) ^ (-(k : Int)) = ((if s then -(m : Int) else m : Int) : ℚ) / (2 ^ k : Nat) := by
    rw [zpow_neg, zpow_natCast, div_eq_mul_inv]
    cases s <;> push_cast <;> simp
  rw [quotient, Rat.floor_intCast_div_natCast]
  push_cast
  rfl

/-- A negative value rounded down to an integer is the quotient rounded down. -/
theorem roundInt_down_negative (m k : Nat) : roundInt 3 true m (-k) = -(m : Int) / 2 ^ k := by
  have digits : 2 ^ k * (m / 2 ^ k) + m % 2 ^ k = m := Nat.div_add_mod m (2 ^ k)
  have low : m % 2 ^ k < 2 ^ k := Nat.mod_lt _ (by positivity)
  have rounded : roundInt 3 true m (-k) = -((if m % 2 ^ k = 0 then m / 2 ^ k else m / 2 ^ k + 1 : Nat) : Int) := by
    rcases Nat.eq_zero_or_pos k with rfl | pos
    · simp [roundInt, roundTo, Nat.mod_one]
    · by_cases exact : m % 2 ^ k = 0
      · simp [roundInt, roundTo, roundUp, pos.ne', exact]
      · simp [roundInt, roundTo, roundUp, pos.ne', exact, add_comm]
  rw [rounded, eq_comm]
  split
  · next exact =>
    refine Int.ediv_eq_of_eq_mul_right (by positivity) ?_
    rw [exact, add_zero] at digits
    rw [mul_neg, ← digits]
    push_cast
    simp
  · next inexact =>
    refine ((Int.ediv_emod_unique (r := 2 ^ k - (m % 2 ^ k : Nat)) (by positivity)).2 ⟨?_, ?_, ?_⟩).1
    · rw [← congrArg Nat.cast digits]
      push_cast
      ring
    · exact sub_nonneg.2 (by exact_mod_cast low.le)
    · exact sub_lt_self _ (by exact_mod_cast Nat.pos_of_ne_zero inexact)

/-- Rounded down, a finite value is the floor of its number (R71). -/
theorem roundInt_down (s : Bool) (m : Nat) (e : Int) : roundInt 3 s m e = ⌊(FVal.fin s m e).rat⌋ := by
  rw [FVal.rat_fin]
  rcases le_or_gt 0 e with whole | broken
  · obtain ⟨n, rfl⟩ := Int.eq_ofNat_of_zero_le whole
    have value : (if s then -1 else 1) * (m : ℚ) * (2 : ℚ) ^ ((n : Nat) : Int) = ((if s then -(m * 2 ^ n : Nat) else (m * 2 ^ n : Nat) : Int) : ℚ) := by
      cases s <;> simp
    rw [value, Int.floor_intCast]
    simp [roundInt, roundTo]
  · obtain ⟨k, rfl⟩ : ∃ k : Nat, e = -k := ⟨(-e).toNat, by omega⟩
    rw [floor_signed_div]
    cases s
    · have zero (h : k = 0) : (m : Int) = m / 2 ^ k := by simp [h]
      simpa [roundInt, roundTo, roundUp] using zero
    · rw [roundInt_down_negative]
      rfl

/-! ### The interval and the value (R189, R190) -/

/-- The base is a finite value, that of its code where the code is finite. -/
theorem Bank.base_fin (b : Bank) : ∃ s m e, b.base = .fin s m e ∧ (FVal.fin s m e).rat = (f32.dec b.x0.toNat).rat := by
  unfold Bank.base
  generalize f32.dec b.x0.toNat = x
  match x with
  | .nan => exact ⟨false, 0, 0, rfl, FVal.rat_zero ..⟩
  | .inf _ => exact ⟨false, 0, 0, rfl, FVal.rat_zero ..⟩
  | .fin s m e => exact ⟨s, m, e, rfl, rfl⟩

/-- The number of the interval that holds an argument (R190). -/
def Bank.entry (b : Bank) (x : FVal) : Nat :=
  match x with
  | .inf s => if s then 0 else 255
  | _ => (max 0 (min 255 ⌊(x.rat - (f32.dec b.x0.toNat).rat) * (2 : ℚ) ^ (-b.e.toInt)⌋)).toNat

theorem FVal.rat_shift (s : Bool) (m : Nat) (e d : Int) : (FVal.fin s m (e - d)).rat = (FVal.fin s m e).rat * 2 ^ (-d) := by
  rw [FVal.rat_fin, FVal.rat_fin, mul_assoc _ _ (2 ^ (-d)), ← zpow_add₀ two_ne_zero, sub_eq_add_neg]

theorem Bank.index_eq_entry (b : Bank) {x : FVal} (h : x ≠ .nan) : b.index x = b.entry x := by
  match x, h with
  | .inf true, _ => rfl
  | .inf false, _ => rfl
  | .fin s m e, _ =>
    obtain ⟨bs, bm, be, base, origin⟩ := b.base_fin
    obtain ⟨u, k, g, sum, difference⟩ := FVal.add_fin 0 s (!bs) m bm e be
    have negated : (FVal.fin (!bs) bm be).rat = -(f32.dec b.x0.toNat).rat := by rw [← origin]; exact FVal.rat_neg (.fin bs bm be)
    have step : b.index (.fin s m e) = (clampI 0 255 (roundInt 3 u k (g - b.e.toInt))).toNat := by
      simp only [Bank.index, base, FVal.neg, sum]
    rw [step, clampI_eq (by decide), roundInt_down, FVal.rat_shift, difference, negated, ← sub_eq_add_neg, min_comm]
    rfl

/-- The value of an interval before rounding: its intercept where the slope is zero, and else the product with the slope and the
intercept, exactly (R190). -/
theorem Bank.eval_eq (b : Bank) {x : FVal} (h : x ≠ .nan) :
    let sl := f32.dec (Tab.getD 0 (b.entry x) b.slope).toNat
    let ic := f32.dec (Tab.getD 0 (b.entry x) b.icept).toNat
    b.eval x = if sl ≠ .nan ∧ (∀ s, sl ≠ .inf s) ∧ sl.rat = 0 then ic else (sl.mul x).add 0 ic := by
  dsimp only
  unfold Bank.eval
  rw [b.index_eq_entry h]
  dsimp only
  generalize f32.dec (Tab.getD 0 (b.entry x) b.slope).toNat = v
  match v with
  | .nan => simp
  | .inf s => simp
  | .fin s 0 e => simp [FVal.rat_zero]
  | .fin s (m + 1) e => simp [FVal.rat_eq_zero_iff]

/-- What ACT writes in a lane whose source is v, of the bank b and for the launch own (R190). -/
def actWord (f : XF) (own : Word) (b : Bank) (v : Word) : Nat :=
  let F := fmtOf f.t.toNat
  let x := f32.dec v.toNat
  let sl := f32.dec (Tab.getD 0 (b.entry x) b.slope).toNat
  let ic := f32.dec (Tab.getD 0 (b.entry x) b.icept).toNat
  if b.owner ≠ some own then 0
  else if x = .nan then F.nan
  else F.enc 0 0 (if sl ≠ .nan ∧ (∀ s, sl ≠ .inf s) ∧ sl.rat = 0 then ic else (sl.mul x).add 0 ic)

theorem actValue_eq (f : XF) (own : Word) (b : Bank) (v : Word) : actValue own b (fmtOf f.t.toNat) v.toNat = actWord f own b v := by
  unfold actValue actWord
  dsimp only
  split
  · rfl
  · split
    · next nan => rw [if_pos nan]
    · next number => rw [if_neg number, b.eval_eq number]

end Sys2Proof.Machine
end

section
/-! O16, ACT in the state: the bank it reads, its register writes, and the commit of the wave's own image before it. -/

namespace Sys2Proof.Machine

open Sys2Proof

/-! ### Register writes that depend on the state -/

/-- An instruction whose body writes registers lane by lane, the values read off the state before it, does that and nothing else. -/
theorem completes_wrote {j : Instr} {body : Ctx → State → Act} {pre : State → Ctx → Prop} {ws : State → Ctx → Nat → List (Nat × Word)}
    (run : ∀ s, exec j s = runWave (insOf j) body s)
    (answer : ∀ s k i w fr, let c := ctxOf j k i w fr
      pre s c → body c (s.tick (coreOf k)) = .next ((s.tick (coreOf k)).writeRegs c (laneWrites c (ws s c))))
    (named : ∀ s c l, ∀ y ∈ ws s c l, y.1 < 128) : Completes j pre fun s _ c w' => Wrote (ws s) c w' := by
  intro _ s k i w fr hi ha hu hp
  let c := ctxOf j k i w fr
  let g : Ctx → List RegW := fun c => laneWrites c (ws s c)
  have same : runWave (insOf j) body s = runWave (insOf j) (regBody g) s := by
    rw [runWave_admits hi ha, runWave_admits hi ha, answer s k i w fr hp]
    rfl
  obtain ⟨t, w', fr', ran, kept, found, wave, frag, goes, regs, -⟩ := runWave_regBody hi ha hu (g := g) (ws s c) rfl (named s c)
  refine ⟨t, w', (run s).trans (same.trans ran), kept, found, wave, ⟨fr', frag, goes⟩, regs, fun b => ?_⟩
  have after : w'.bind b = _ := (runWave_regBody_bind hi ha hu ran found b).trans (Wave.writeRegs_bind_iff _ w b)
  have stale : (∃ x ∈ g c, bindHasReg (w.bind b) x.1 w.landing.mode = true) ↔ BindsOver (ws s) c (w.bind b) := by
    simp only [g, laneWrites, List.mem_flatMap, List.mem_map, BindsOver]
    constructor
    · rintro ⟨-, ⟨l, hl, x, hx, rfl⟩, has⟩; exact ⟨l, hl, x, hx, has⟩
    · rintro ⟨l, hl, x, hx, has⟩; exact ⟨_, ⟨l, hl, x, hx, rfl⟩, has⟩
  exact ⟨fun h => after.trans (if_pos (stale.2 h)), fun h => after.trans (if_neg (mt stale.1 h))⟩

/-! ### Commits (R191) -/

/-- Without a pending image of the wave for the bank, ACT commits none. -/
theorem State.commitFor_of_none {s : State} {core k b : Nat} (h : ∀ p ∈ (s.core core).pending, p.wave ≠ some k ∨ p.bank ≠ b)
    (n : Nat) : s.commitFor core k b n = s := by
  cases n with
  | zero => rfl
  | succ n =>
    refine if_neg fun any => ?_
    obtain ⟨p, hp, own⟩ := List.any_eq_true.1 any
    simp only [Bool.and_eq_true, beq_iff_eq] at own
    exact (h p hp).elim (absurd own.1) (absurd own.2)

/-- Without a parked team no bank is spilt. -/
theorem State.bankLoser_of_unparked {s : State} (h : ∀ e ∈ s.teams, e.2.parked = false) (core b : Nat) (new : Option Word) :
    s.bankLoser core b new = none := by
  have nobody (own : Option Word) : (s.teams.find? fun e => e.2.core == core && e.2.parked &&
      ((Tab.find e.2.launch s.launches).map (·.id)) == own) = none := List.find?_eq_none.2 fun e he => by simp [h e he]
  unfold State.bankLoser
  dsimp only
  rw [nobody, Option.map_none, ite_self]

theorem Core.bank_setBank (c : Core) (b : Nat) (img : Bank) : (c.setBank b img).bank b = img := by
  unfold Core.setBank Core.bank
  by_cases zero : b = 0
  · rw [if_pos zero, if_pos zero]
  · rw [if_neg zero, if_neg zero]

theorem Core.setBank_pending (c : Core) (b : Nat) (img : Bank) : (c.setBank b img).pending = c.pending := by
  unfold Core.setBank
  split <;> rfl

/-- The wave's own image, alone pending on the core, is committed: it stands in its bank, and the wave has one result less to wait for. -/
theorem State.commitFor_own {s : State} {core k b : Nat} {img : Bank} (pending : (s.core core).pending = [⟨b, some k, img⟩])
    (unparked : ∀ e ∈ s.teams, e.2.parked = false) :
    let t := s.commitFor core k b (s.core core).pending.length
    (t.core core).pending = [] ∧ (t.core core).bank b = img ∧ t.teams = s.teams ∧ t.launches = s.launches ∧
      t.waves = (s.setWave k fun w => { w with outstanding := w.outstanding - 1 }).waves := by
  have once : s.commitFor core k b (s.core core).pending.length = s.commitOldest core := by
    rw [pending]
    refine (if_pos ?_).trans rfl
    simp [pending]
  rw [once]
  unfold State.commitOldest State.commitImage
  rw [pending]
  dsimp only
  rw [State.bankLoser_of_unparked (s := s.setCore core fun c => { c with pending := [] }) unparked]
  simp only [State.setWave_core, State.setCore_core_same, Core.bank_setBank, Core.setBank_pending]
  exact ⟨trivial, trivial, rfl, rfl, rfl⟩

/-! ### The instruction -/

/-- The body of ACT writes the value of each enabled lane, of the bank it names as it stands after the commits. -/
theorem actBody_eq (f : XF) {k i : Nat} {w : Wave} {fr : Frag} {s t : State} {la : Launch} :
    let c := ctxOf (.act f) k i w fr
    s.commitFor (coreOf k) k f.imm.toNat (s.core (coreOf k)).pending.length = t → t.launchOf w = some la →
    actBody c s = .next (t.writeRegs c (laneWrites c fun l =>
      [(f.d.toNat, BitVec.ofNat 32 (actWord f la.id ((t.core (coreOf k)).bank f.imm.toNat) (w.reg f.a.toNat (c.src l))))])) := by
  intro c committed launch
  have body : actBody c s = .next (t.writeRegs c (c.lanes.flatMap fun l => wrVal 1 f.d.toNat l
      (actValue (((t.launchOf w).map (·.id)).getD 0) ((t.core (coreOf k)).bank f.imm.toNat) (fmtOf f.t.toNat)
        (w.reg f.a.toNat (c.src l)).toNat))) := by
    rw [← committed]
    rfl
  rw [body, launch]
  simp only [wrVal_eq, actValue_eq]
  rfl

theorem State.tick_pending (c j : Nat) (s : State) : ((s.tick c).core j).pending = (s.core j).pending := by
  have core := congrArg Core.pending (State.tick_core c j s)
  exact core

theorem State.tick_bank (c j b : Nat) (s : State) : ((s.tick c).core j).bank b = (s.core j).bank b := by
  have core := congrArg (Core.bank · b) (State.tick_core c j s)
  exact core

theorem Wrote.congr {ws ws' : Ctx → Nat → List (Nat × Word)} {c : Ctx} {w' : Wave} (same : ws c = ws' c) (h : Wrote ws c w') :
    Wrote ws' c w' := by
  unfold Wrote BindsOver at h ⊢
  rwa [same] at h

/-- With no image of its own to commit, ACT writes its results and does nothing else. -/
theorem act_completes (f : XF) : Completes (.act f)
    (fun s c => (s.launchOf c.w).isSome ∧ ∀ p ∈ (s.core (coreOf c.k)).pending, p.wave ≠ some c.k ∨ p.bank ≠ f.imm.toNat)
    fun s _ c w' => Wrote (fun c l => [(f.d.toNat, BitVec.ofNat 32 (actWord f (((s.launchOf c.w).map (·.id)).getD 0)
      ((s.core (coreOf c.k)).bank f.imm.toNat) (c.w.reg f.a.toNat (c.src l))))]) c w' := by
  refine completes_wrote (fun _ => rfl) (fun s k i w fr hp => ?_) fun s c l y hy => ?_
  · obtain ⟨launched, unowned⟩ := hp
    obtain ⟨la, launch⟩ := Option.isSome_iff_exists.1 launched
    have others : ∀ p ∈ ((s.tick (coreOf k)).core (coreOf k)).pending, p.wave ≠ some k ∨ p.bank ≠ f.imm.toNat := by
      rw [State.tick_pending]
      exact unowned
    refine (actBody_eq f (State.commitFor_of_none others _) launch).trans ?_
    rw [State.tick_bank, launch]
    rfl
  · rw [List.mem_singleton.1 hy]
    exact f.d.isLt

/-- With its own image pending, alone on the core, ACT commits it and reads it. -/
theorem act_commits (f : XF) {s : State} {k i : Nat} {w : Wave} {fr : Frag} {la : Launch} {img : Bank} (hi : Issues s k i w fr)
    (ha : Admits (insOf (.act f)) w fr) (hu : Undisturbed (insOf (.act f)) w) (launch : s.launchOf w = some la)
    (pending : (s.core (coreOf k)).pending = [⟨f.imm.toNat, some k, img⟩]) (unparked : ∀ e ∈ s.teams, e.2.parked = false) :
    let c := ctxOf (.act f) k i w fr
    ∃ t w', exec (.act f) s = .next t ∧ Tab.find k t.waves = some w' ∧ (t.core (coreOf k)).pending = [] ∧
      (t.core (coreOf k)).bank f.imm.toNat = img ∧
      RegsAre w' fun r l => if r = f.d.toNat ∧ l ∈ c.lanes
        then BitVec.ofNat 32 (actWord f la.id img (w.reg f.a.toNat (c.src l))) else w.reg r l := by
  intro c
  let s1 := s.tick (coreOf k)
  let ws := fun l => [(f.d.toNat, BitVec.ofNat 32 (actWord f la.id img (w.reg f.a.toNat (c.src l))))]
  let v := { w with outstanding := w.outstanding - 1 }
  let writes := laneWrites c ws
  let v' := (v.writeRegs writes).setFrag i (Frag.unspun (v.changes fr.mask writes))
  obtain ⟨emptied, bank, teams, launches, waves⟩ := State.commitFor_own (s := s1) ((State.tick_pending ..).trans pending) unparked
  generalize ht : s1.commitFor (coreOf k) k f.imm.toNat (s1.core (coreOf k)).pending.length = t at *
  have body := actBody_eq f (i := i) (w := w) (fr := fr) ht (by unfold State.launchOf State.teamOf; rw [teams, launches]; exact launch)
  rw [bank] at body
  have found : Tab.find k (t.writeRegs c writes).waves = some v' := by
    unfold State.writeRegs
    rw [State.setWave_find, if_pos rfl, waves, State.setWave_find, if_pos rfl, show Tab.find k s1.waves = some w from hi.wave]
    rfl
  have undisturbed : c.ins.f.p = false ∨ v'.faults = [] ∨ v'.handlerFlag = true := by
    rw [Wave.setFrag_faults, Wave.setFrag_handlerFlag, Wave.writeRegs_faults, Wave.writeRegs_handlerFlag]
    exact hu
  have went := c.goOn_park c.after.1 c.after.2 _ found undisturbed
  obtain ⟨pk, wave⟩ := went.wave
  have cores := congrArg (fun u : State => u.core (coreOf k)) went.rest
  refine ⟨_, _, (runWave_admits hi ha actBody).trans (congrArg (fun a => Host.Outcome.next (c.finish s1 a)) body), wave, ?_, ?_, ?_⟩
  · exact (congrArg Core.pending cores).trans emptied
  · exact (congrArg (Core.bank · f.imm.toNat) cores).trans bank
  · intro r l hr hl
    refine (Wave.writeRegs_laneWrites c (ws := ws) (fun l y hy => ?_) v hr hl).trans ?_
    · rw [List.mem_singleton.1 hy]
      exact f.d.isLt
    · have kept : v.reg r l = w.reg r l := rfl
      by_cases enabled : l ∈ c.lanes
      · by_cases same : r = f.d.toNat
        · simp [afterWrites, ws, enabled, same]
        · simp [afterWrites, ws, enabled, same, Ne.symm same, kept]
      · simp [enabled, kept]

/-- Settles O16: the body of ACT writes R190's value of the bank after the commits, of which there is none where no own image is
pending and one where it is alone. -/
theorem activationReadsOneBank : Obligations.ActivationReadsOneBank := by
  refine ⟨fun f => ?_, fun f _ s k i w fr la img hi ha hu launch pending _ unparked => act_commits f hi ha hu launch pending unparked⟩
  intro hw s k i w fr hi ha hu hp
  obtain ⟨t, w', ran, kept, found, wrote⟩ := act_completes f hw s k i w fr hi ha hu hp
  refine ⟨t, w', ran, kept, found, fun la launch => ?_⟩
  refine wrote.congr (funext fun l => ?_)
  rw [show s.launchOf (ctxOf (.act f) k i w fr).w = some la from launch]
  rfl

end Sys2Proof.Machine
end

section
/-! O24: the fill of a stash line is asked of the cluster of the team's core (R103); the statement does not ask that this is the core of
the wave that loads. -/

namespace Sys2Proof.Machine

open Sys2Proof

/-! ### Reads of lines that are filled -/

/-- A read in a filled line, of which no other party holds newer bytes, changes nothing. -/
theorem State.load_filled {s : State} {who : Who} {ea : Dword} {t n : Nat} {tm : Team} {b : Nat × Nat} (at' : classify ea = .scratch t)
    (found : Tab.find who.team s.teams = some tm) (pinned : tm.away (t / 4096) = false) (bound : (tm.page t).bound = some b)
    (filled : (tm.page t).line t = ⟨true, none, false, false, false⟩)
    (recalled : s.recallStash (some (who.team, t / 4096)) (lineOf (b.2 + t % 4096)) false = s)
    (widened : s.widen (some who.cl) (lineOf (b.2 + t % 4096)) = s)
    (clean : Tab.find (lineOf (b.2 + t % 4096)) (s.cluster who.cl).dirty = none)
    (loose : s.loose = []) : (s.load who ea n).2 = s := by
  have pin : s.pin who.team t = s := by
    unfold State.pin
    rw [found]
    exact if_pos (by rw [pinned]; rfl)
  have fill : s.fillLine who.team t who.hint = s := by
    unfold State.fillLine
    rw [found]
    exact if_pos (by rw [filled])
  have read : (s.readGlobal (some (who.team, t / 4096)) who.cl (b.2 + t % 4096) n).2 = s := by
    unfold State.readGlobal State.markRead
    dsimp only
    rw [recalled, widened, clean]
  have scratch : (s.readScratch who.hint who.cl who.team t n).2 = s := by
    unfold State.readScratch
    rw [found]
    dsimp only
    rw [bound, filled]
    dsimp only
    rw [read, fill]
  have fetch : (s.fetchBytes who ea n).2 = s := by
    unfold State.fetchBytes
    rw [at']
    dsimp only
    rw [pin, scratch]
  unfold State.load State.observe
  dsimp only
  rw [fetch, loose]
  rfl

/-- Of words whose loads change nothing the load of a list of words after them takes no notice. -/
theorem Ctx.loadWords_of_same {c : Ctx} {s : State} (n : Nat) : ∀ (m : Nat) (ea : Dword),
    (∀ i < m, (c.loadLane 4 (ea + BitVec.ofNat 64 (4 * i)) s).2 = s) →
      (c.loadWords ea (m + n) s).2 = (c.loadWords (ea + BitVec.ofNat 64 (4 * m)) n s).2
  | 0, ea, _ => by simp
  | m + 1, ea, same => by
    have first : (c.loadLane 4 ea s).2 = s := by simpa using same 0 (Nat.succ_pos m)
    have next (i : Nat) : ea + 4 + BitVec.ofNat 64 (4 * i) = ea + BitVec.ofNat 64 (4 * (i + 1)) := by
      rw [BitVec.add_assoc]
      congr 1
      bv_omega
    rw [show m + 1 + n = m + n + 1 by omega]
    show (c.loadWords (ea + 4) (m + n) (c.loadLane 4 ea s).2).2 = _
    rw [first, Ctx.loadWords_of_same n m (ea + 4) fun i hi => by rw [next]; exact same (i + 1) (Nat.succ_lt_succ hi), next]

/-! ### The state -/

/-- The stash line of the window as it is once filled. -/
def filledLine : StashLine := ⟨true, none, false, false, false⟩

/-- A team, as if on a core of cluster 1, whose one page is bound to the first page of global memory; its first 16 lines are filled. -/
def elsewhereTeam : Team :=
  { placeTeam with
    core := Config.coresPerCluster
    pages := [(0, ⟨some (placeAt, 0), (List.range 16).map fun q => (q, filledLine), true⟩)] }

/-- Cluster 0 holds the first byte of line 16 dirty under a narrow release (R88). -/
def lastLineHolder : Cluster := { Cluster.fresh with dirty := [(16, ⟨[(0, 7)], 1, 0, false⟩)] }

/-- The wave issues on a core of cluster 0. -/
def elsewhereState : State :=
  { State.reset.placeWords [] with
    waves := [(0, windowWave)], teams := [(0, elsewhereTeam)], clusters := [(0, lastLineHolder)], cur := some (0, 0) }

/-- The address of the image: the start of the window. -/
def windowStart : Dword := 0xFF00000000000000

def elsewhereCtx : Ctx := ctxOf (.actld zeroFields) 0 0 windowWave laneFragment

theorem windowWord {i : Nat} (h : i < 1024) : classify (windowStart + BitVec.ofNat 64 (4 * i)) = .scratch (4 * i) := by
  have value : (windowStart + BitVec.ofNat 64 (4 * i)).toNat = 0xFF00000000000000 + 4 * i := by
    unfold windowStart
    rw [BitVec.toNat_add, BitVec.toNat_ofNat]
    show (0xFF00000000000000 + 4 * i % 2 ^ 64) % 2 ^ 64 = _
    omega
  have high : bits (windowStart + BitVec.ofNat 64 (4 * i)) 32 32 = 0xFF000000 := BitVec.eq_of_toNat_eq (by
    rw [bits, BitVec.extractLsb'_toNat, value, Nat.shiftRight_eq_div_pow]
    show _ = 0xFF000000
    omega)
  unfold classify
  rw [if_pos high, bits, BitVec.extractLsb'_toNat, value, Nat.shiftRight_zero]
  congr 1
  omega

/-- The state in which the body runs. -/
def elsewhereBegun : State := elsewhereState.tick (coreOf 0)

theorem elsewhereBegun_recalled : ∀ q < 16, elsewhereBegun.recallStash (some (0, 0)) q false = elsewhereBegun := by
  intro q hq
  interval_cases q <;> rfl

theorem elsewhereBegun_clean : ∀ q < 16, Tab.find q (elsewhereBegun.cluster 0).dirty = none := by decide

theorem elsewhereTeam_lines : ∀ q < 16, Tab.getD StashLine.empty q ((List.range 16).map fun q => (q, filledLine)) = filledLine := by
  decide

/-- The words in the first 16 lines are read without a trace. -/
theorem elsewhereBegun_same {i : Nat} (h : i < 512) :
    (elsewhereCtx.loadLane 4 (windowStart + BitVec.ofNat 64 (4 * i)) elsewhereBegun).2 = elsewhereBegun := by
  have page : 4 * i / 4096 = 0 := by omega
  have line : 4 * i % 4096 / 128 < 16 := by omega
  have physical : lineOf (0 + 4 * i % 4096) < 16 := by unfold lineOf; omega
  refine (congrArg Prod.snd (if_pos rfl)).trans (State.load_filled (tm := elsewhereTeam) (b := (placeAt, 0)) (windowWord (by omega)) rfl
    (by rw [page]; rfl) (by unfold Team.page; rw [page]; rfl) ?_ ?_ rfl (elsewhereBegun_clean _ physical) rfl)
  · unfold Team.page
    rw [page]
    exact elsewhereTeam_lines _ line
  · rw [page]
    exact elsewhereBegun_recalled _ physical

/-- The first word of line 16, once read, has made cluster 0 publish its byte. -/
theorem lastWords_published :
    memRead (elsewhereCtx.loadWords (windowStart + BitVec.ofNat 64 (4 * 512)) 4 elsewhereBegun).2.mem 2048 = 7 := by decide +kernel

/-! ### The access -/

/-- The accesses of the image. -/
def windowAccs : List Acc := imageAccs elsewhereCtx windowStart

theorem elsewhereState_checks : elsewhereCtx.failing elsewhereState elsewhereTeam windowAccs = none := by decide +kernel

theorem elsewhereState_whole : ∀ a ∈ windowAccs, elsewhereState.breaks (elsewhereState.partOf windowWave) elsewhereTeam a = false := by
  decide +kernel

theorem elsewhereState_room : ∀ t ∈ teamAddrs windowAccs, elsewhereTeam.away (t / 4096) = false := by decide +kernel

theorem elsewhereState_quiet : ∀ q < 17, Quiet elsewhereState 0 q := by
  have pages : ∀ q < 17, ∀ e ∈ elsewhereState.teams, ∀ p ∈ e.2.pages, p.2.dirtyOf q = none := by decide
  have clusters : ∀ e ∈ elsewhereState.clusters, e.1 = 0 := by decide
  exact fun q hq => ⟨pages q hq, fun e he other => absurd (clusters e he) other⟩

theorem windowAccs_word {a : Acc} (h : a ∈ windowAccs) : ∃ i < 516, a.ea = windowStart + BitVec.ofNat 64 (4 * i) ∧ a.n = 4 := by
  rcases List.mem_cons.1 h with rfl | later
  · exact ⟨0, by omega, (BitVec.add_zero _).symm, rfl⟩
  · obtain ⟨i, hi, rfl⟩ := List.mem_map.1 later
    exact ⟨i + 1, by have := List.mem_range.1 hi; omega, rfl, rfl⟩

theorem elsewhereState_canAccess : CanAccess elsewhereState elsewhereCtx elsewhereTeam windowAccs where
  team := rfl
  checks := elsewhereState_checks
  whole := elsewhereState_whole
  room := .inl elsewhereState_room
  steady a ha := by
    obtain ⟨i, hi, address, size⟩ := windowAccs_word ha
    have page : 4 * i / 4096 = 0 := by omega
    have bound : (elsewhereTeam.page (4 * i)).bound = some (placeAt, 0) := by unfold Team.page; rw [page]; rfl
    have stashed : placeOf elsewhereState (elsewhereState.partOf windowWave) elsewhereTeam a.ea = some (.stash (4 * i)) := by
      unfold placeOf
      rw [address, windowWord (by omega)]
      dsimp only
      rw [bound]
      rfl
    refine ⟨_, stashed, elsewhereTeam, (placeAt, 0), rfl, bound, ?_, ?_, .inr (elsewhereState_quiet _ ?_)⟩
    · omega
    · dsimp only; omega
    · unfold lineOf; dsimp only; omega

/-- An access that passes its checks and finds its pages leaves memory as its effect does. -/
theorem Ctx.finish_access_mem {c : Ctx} {s : State} {as : List Acc} {owes : Bool} {g : State → State} {tm : Team}
    (team : s.teamOf c.w = some tm) (checks : c.failing s tm as = none) (whole : as.any (s.breaks (s.partOf c.w) tm) = false)
    (room : s.canPin c.w.team (teamAddrs as) = true) : (c.finish s (c.access s as owes g)).mem = (g s).mem := by
  have runs : c.access s as owes g = .next
      (let t := (((g s).perform c.k c.i as).addFoot c.w.team as).watch c as
       if owes && !as.isEmpty then t.owe c.k else t) := by
    unfold Ctx.access
    rw [team]
    dsimp only
    rw [checks]
    dsimp only
    rw [whole, room]
    rfl
  rw [runs]
  unfold Ctx.finish
  dsimp only
  split <;> simp

theorem elsewhereBegun_checks : elsewhereCtx.failing elsewhereBegun elsewhereTeam windowAccs = none := elsewhereState_checks

theorem elsewhereBegun_canPin : elsewhereBegun.canPin 0 (teamAddrs windowAccs) = true := by decide +kernel

/-- What ACTLD does once its accesses have passed: the words of the image are loaded, and it is pending. -/
def Ctx.loadImage (c : Ctx) (ea : Dword) (own : Word) (s : State) : State :=
  let r := (c.together 4 ((List.range 516).map fun i => ea + BitVec.ofNat 64 (4 * i)) s).loadWords ea 516 s
  r.2.setCore (coreOf c.k) fun x => { x with pending := x.pending ++ [⟨c.uimm, some c.k, bankOf own r.1⟩] }

theorem actldBody_eq {c : Ctx} {s : State} {la : Launch} (h : c.lanes.isEmpty = false) (launch : s.launchOf c.w = some la) :
    actldBody c s = c.access s (imageAccs c (c.w.pair c.f.a.toNat c.low)) true (c.loadImage (c.w.pair c.f.a.toNat c.low) la.id) := by
  unfold actldBody
  rw [h, launch]
  rfl

/-- Where the core has read nothing ahead, the image is loaded word by word. -/
theorem Ctx.loadImage_mem {c : Ctx} (h : c.fr.early.isEmpty = true) (ea : Dword) (own : Word) (s : State) :
    (c.loadImage ea own s).mem = (c.loadWords ea 516 s).2.mem := by
  unfold Ctx.loadImage Ctx.together
  rw [if_pos h]
  exact State.setCore_mem ..

theorem windowWave_pair : windowWave.pair 0 elsewhereCtx.low = windowStart := by decide

theorem elsewhereState_issues : Issues elsewhereState 0 0 windowWave laneFragment := ⟨rfl, rfl, rfl⟩

theorem windowWave_admits : Admits (insOf (.actld zeroFields)) windowWave laneFragment :=
  ⟨.inl (by decide), ⟨.inl rfl, .inl (by decide)⟩⟩

theorem memAfter_actld : memAfter 2048 (exec (.actld zeroFields) elsewhereState) = some 7 := by
  have runs : exec (.actld zeroFields) elsewhereState =
      .next (elsewhereCtx.finish elsewhereBegun (actldBody elsewhereCtx elsewhereBegun)) :=
    runWave_admits elsewhereState_issues windowWave_admits actldBody
  have launch : elsewhereBegun.launchOf windowWave = some placeLaunch := rfl
  have body := actldBody_eq (c := elsewhereCtx) (s := elsewhereBegun) (by decide) launch
  rw [show elsewhereCtx.w.pair elsewhereCtx.f.a.toNat elsewhereCtx.low = windowStart from windowWave_pair,
    show imageAccs elsewhereCtx windowStart = windowAccs from rfl] at body
  have team : elsewhereBegun.teamOf windowWave = some elsewhereTeam := rfl
  have whole : windowAccs.any (elsewhereBegun.breaks (elsewhereBegun.partOf windowWave) elsewhereTeam) = false :=
    List.any_eq_false.2 fun a ha => Bool.not_eq_true _ ▸ elsewhereState_whole a ha
  have access := Ctx.finish_access_mem (owes := true) (g := elsewhereCtx.loadImage windowStart placeLaunch.id) team
    elsewhereBegun_checks whole elsewhereBegun_canPin
  rw [runs, body]
  refine congrArg some ?_
  rw [access, Ctx.loadImage_mem rfl, show 516 = 512 + 4 from rfl,
    Ctx.loadWords_of_same 4 512 windowStart fun i hi => elsewhereBegun_same hi, lastWords_published]

/-- Refutes O24: its clause on ACTLD has memory as it was, and does not ask that the team is on the core of its wave. The fill of a
line is asked by the team's core, so that every cluster but that core's publishes what it holds of the line under a narrow release
(R88): in `elsewhereState` the wave's own cluster publishes its byte of line 16, which stood at 0. -/
theorem not_tableLoadAndCommit : ¬ Obligations.TableLoadAndCommit := by
  unfold Obligations.TableLoadAndCommit
  intro h
  obtain ⟨loads, -⟩ := h
  obtain ⟨t, w', img, runs, looked, -⟩ := loads zeroFields (by decide) elsewhereState 0 0 windowWave laneFragment elsewhereTeam placeLaunch
    elsewhereState_issues windowWave_admits (.inl rfl) rfl (by decide) elsewhereState_canAccess
  have after : memRead t.mem 2048 = 7 := by
    have evaluated := memAfter_actld
    rw [runs] at evaluated
    exact Option.some.inj evaluated
  have kept := congrArg State.mem looked.rest
  rw [show t.mem = elsewhereState.mem from kept] at after
  exact absurd after (by decide)

end Sys2Proof.Machine
end
